-- ==== Sys2Proof/Word.lean ====
section
/-! DEFINITION. The bytes and line masks the ports and the hold stage carry as bits (R13, R206, R221).
Every other quantity of the part is an exact integer (R1, R2): `Int` where it is signed, `Nat` where it is not. -/

namespace Sys2Proof

/-- A byte of a frame or of a sensor record (R206, R21). -/
abbrev Byte := BitVec 8

/-- A set of hold lines, one bit a line, placed as R221 numbers the lines:
BOOM_OUT 0, TELE_OUT 1, LOWER 2, SLEW_L 3, SLEW_R 4, ALERT 5. -/
abbrev LineMask := BitVec 6

end Sys2Proof
end

