-- ==== Sys2Proof/Syntax.lean ====
section
/-! DEFINITION. The commands the part takes: one constructor for each row of spec/opcode_table.json.
A row that is an event of the outside (a sensor's answer, a level, a byte) carries what the outside supplies
as its operands; a request row carries the port it came in on and its body, byte for byte (R213, R222). -/

namespace Sys2Proof

/-- The two message ports. -/
inductive Port where
  | cab
  | service
  deriving DecidableEq, Repr

/-- The seven sensor roles (R14). -/
inductive Role where
  | link | slew | main | outer | tele | tilt | grip
  deriving DecidableEq, Repr

/-- The five bytes of a sensor record as they came over the bus (R21, R221). -/
structure SensorRecord where
  status : Byte
  value2 : Byte
  value1 : Byte
  value0 : Byte
  check  : Byte
  deriving DecidableEq, Repr

/-- What the bus showed during one poll transaction (R21 to R23). A stretch beyond 2 ms is no field of it:
it is the event STRETCH_TIMEOUT, taken while the transaction is in progress. -/
structure PollObs where
  /-- the data line was low at START (step 1) -/
  lowAtStart : Bool
  /-- the address was acknowledged (step 3) -/
  acked      : Bool
  /-- the five bytes read (step 4) -/
  record     : SensorRecord
  /-- the data line was low at STOP (step 5) -/
  lowAtStop  : Bool
  deriving DecidableEq, Repr

/-- What the bus showed during one passthrough transaction (R37). -/
structure PassObs where
  /-- the data line was low at a START or at STOP -/
  stuck     : Bool
  /-- every address byte was acknowledged -/
  addrAcked : Bool
  /-- every write byte was acknowledged -/
  dataAcked : Bool
  /-- the bytes the sensor sent; the first <read count> of them are the bytes read -/
  bytes     : Vector Byte 8
  deriving DecidableEq, Repr

/-- The commands: the steps of the part that spec/opcode_table.json lists. -/
inductive Instr where
  -- start and supply
  | powerOn
  | preloadDone (readFailed : Bool)
  -- the sensor bus
  | roundTimerExpiry
  | pollTransactionDone (obs : PollObs)
  | stretchTimeout
  | sensorStale (role : Role)
  | busFreePulseEnd
  | recoveryWaitEnd (dataHigh : Bool)
  | recoveryAttempt
  | attemptWaitEnd (dataHigh : Bool)
  | passthroughDone (obs : PassObs)
  -- timers of the other blocks
  | tareTimeout
  | permitExpiry
  | senseExpiry (levels : LineMask)
  | discardExpiry (slot : Fin 4)
  -- reception and transmission
  | frameGapTimeout (port : Port)
  | frameBadCheck (port : Port)
  | unknownKind (port : Port) (kind : Byte) (body : List Byte)
  | frameHeld (port : Port) (kind : Byte) (body : List Byte)
  | heldFrameHandled (port : Port)
  | frameSent (port : Port)
  | portBreak (port : Port)
  | standbyWake (port : Port) (kind : Byte) (body : List Byte)
  -- requests
  | status (port : Port) (body : List Byte)
  | pose (port : Port) (body : List Byte)
  | sensors (port : Port) (body : List Byte)
  | pollRead (port : Port) (body : List Byte)
  | pollWrite (port : Port) (body : List Byte)
  | sensorPass (port : Port) (body : List Byte)
  | busRestart (port : Port) (body : List Byte)
  | setAssortment (port : Port) (body : List Byte)
  | defineAssortment (port : Port) (body : List Byte)
  | deleteAssortment (port : Port) (body : List Byte)
  | tallyRead (port : Port) (body : List Byte)
  | logRead (port : Port) (body : List Byte)
  | voidLift (port : Port) (body : List Byte)
  | assignLift (port : Port) (body : List Byte)
  | tripRead (port : Port) (body : List Byte)
  | tripClose (port : Port) (body : List Byte)
  | totalsReset (port : Port) (body : List Byte)
  | tare (port : Port) (body : List Byte)
  | calSpan (port : Port) (body : List Byte)
  | chartRead (port : Port) (body : List Byte)
  | chartWrite (port : Port) (body : List Byte)
  | overrideSet (port : Port) (body : List Byte)
  | permit (port : Port) (body : List Byte)
  | watchRead (port : Port) (body : List Byte)
  | watchWrite (port : Port) (body : List Byte)
  | hitClear (port : Port) (body : List Byte)
  | captureRead (port : Port) (body : List Byte)
  | holdManual (port : Port) (body : List Byte)
  | linesRead (port : Port) (body : List Byte)
  | lineFaultClear (port : Port) (body : List Byte)
  | paramRead (port : Port) (body : List Byte)
  | paramWrite (port : Port) (body : List Byte)
  | features (port : Port) (body : List Byte)
  | enterService (port : Port) (body : List Byte)
  | leaveService (port : Port) (body : List Byte)
  | standby (port : Port) (body : List Byte)
  | commit (port : Port) (body : List Byte)
  | commitDone (ok : Bool)
  | restart (port : Port) (body : List Byte)
  | restartReset
  | reportEnable (port : Port) (body : List Byte)
  -- bytes and line levels
  | byteArrival (port : Port) (byte : Byte)
  | stopBitLow (port : Port)
  | lineReturnsToIdle (port : Port)
  | supplyLoss (backupInterrupted : Bool)
  deriving DecidableEq, Repr

end Sys2Proof
end

