-- ==== Sys2Proof/Decode.lean ====
section
/-! DEFINITION. Reading a command from a table word. No row of spec/opcode_table.json gives bits: the part's commands are
requests and events, not words, so no word spells one. The reading of bytes into frames is the receiver's
(Machine/Ports.lean, R206). -/

namespace Sys2Proof

/-- The command a word spells by the table's bits: none, since the table gives no row bits. -/
def decodeTableWord (_nbits _w : Nat) : Option Instr := none

end Sys2Proof
end

