-- ==== Sys2Proof/Machine/Arith.lean ====
section
/-! DEFINITION. The named operations on exact integers (R4 to R7), saturation (R6) and the sine table with its
interpolation (R11, R12). -/

namespace Sys2Proof.Machine

/-- round(a / b) for b > 0: the nearest integer, a half going away from zero (R4). -/
def roundDiv (a : Int) (b : Nat) : Int :=
  if 0 ≤ a then (2 * a + b) / (2 * b) else -((2 * (-a) + b) / (2 * b))

/-- trunc(a / b) for b > 0: toward zero (R5). -/
def truncDiv (a : Int) (b : Nat) : Int := a.tdiv b

/-- ceil(a / b) for b > 0: the least integer not less than the quotient (R5). -/
def ceilDiv (a : Int) (b : Nat) : Int := -((-a) / b)

/-- a mod n for n > 0, in 0..n−1 (R5). -/
def modInt (a : Int) (n : Nat) : Int := a % n

/-- Saturation into a range (R6). -/
def saturate (lo hi v : Int) : Int := max lo (min hi v)

/-- The rounded mean of a window's exact sum (R7). -/
def meanOf (sum : Int) (count : Nat) : Int := roundDiv sum count

/-- The shortest signed difference of two directions, from the earlier to the later, in −1799..1800 (R10). -/
def shortestDiff (earlier later : Int) : Int :=
  let d := modInt (later - earlier) 3600
  if d > 1800 then d - 3600 else d

/-- The sine table T[0]..T[90], T[k] = round(16384 sin k°) (R11). -/
def sineTable : List Int :=
  [
    0, 286, 572, 857, 1143, 1428, 1713, 1997, 2280, 2563,
    2845, 3126, 3406, 3686, 3964, 4240, 4516, 4790, 5063, 5334,
    5604, 5872, 6138, 6402, 6664, 6924, 7182, 7438, 7692, 7943,
    8192, 8438, 8682, 8923, 9162, 9397, 9630, 9860, 10087, 10311,
    10531, 10749, 10963, 11174, 11381, 11585, 11786, 11982, 12176, 12365,
    12551, 12733, 12911, 13085, 13255, 13421, 13583, 13741, 13894, 14044,
    14189, 14330, 14466, 14598, 14726, 14849, 14968, 15082, 15191, 15296,
    15396, 15491, 15582, 15668, 15749, 15826, 15897, 15964, 16026, 16083,
    16135, 16182, 16225, 16262, 16294, 16322, 16344, 16362, 16374, 16382,
    16384
  ]

/-- T[k] of R11. -/
def sineEntry (k : Nat) : Int := sineTable.getD k 0

/-- The magnitude for a quadrant angle q in 0..900: the interpolation of R12, steps 3 and 4. -/
def sineMagnitude (q : Nat) : Int :=
  let d := q / 10
  let f := q % 10
  if f = 0 then sineEntry d
  else sineEntry d + truncDiv ((sineEntry (d + 1) - sineEntry d) * f) 10

/-- The folding of a reduced angle in 0..3599 to a quadrant angle and a sign (R12, step 2); `true` is minus. -/
def sineFold (a : Nat) : Nat × Bool :=
  if a ≤ 900 then (a, false)
  else if a ≤ 1800 then (1800 - a, false)
  else if a ≤ 2700 then (a - 1800, true)
  else (3600 - a, true)

/-- sinT(a) for an angle in 0.1° of any integer value (R12). -/
def sinT (a : Int) : Int :=
  match sineFold (modInt a 3600).toNat with
  | (q, false) => sineMagnitude q
  | (q, true) => -sineMagnitude q

/-- cosT(a) is sinT(a + 900) (R12). -/
def cosT (a : Int) : Int := sinT (a + 900)

end Sys2Proof.Machine
end

