-- ==== Sys2Proof/Config.lean ====
section
/-! DEFINITION. What an installation fixes: the settings of the part as types (R201, R15, R136, R158), and the one
value the manual leaves open, the function behind the image's 16-bit check.
The default values stand in Machine/Defaults.lean. -/

namespace Sys2Proof

/-- Who owns a watch entry (R171). -/
inductive Owner where
  | open_ | locked
  deriving DecidableEq, Repr

/-- The quantities a watch entry may name (R159). -/
inductive Quantity where
  | liveMass | liftMass | reach | height | slew | util | downhill | bunkTotal
  deriving DecidableEq, Repr

/-- The comparisons of a watch entry (R160). -/
inductive WatchMode where
  | above | below | inside | outside
  deriving DecidableEq, Repr

/-- What a firing does (R163). -/
inductive WatchAction where
  | report | hold | capture
  deriving DecidableEq, Repr

/-- The nine definition fields of a watch entry (R158). -/
structure WatchDef where
  enable   : Bool
  quantity : Quantity
  mode     : WatchMode
  a        : Int
  b        : Int
  action   : WatchAction
  holdMask : LineMask
  chain    : Bool
  owner    : Owner
  deriving DecidableEq, Repr

/-- The stored fields of a poll list entry (R15); the period is in rounds. -/
structure PollDef where
  role   : Role
  addr   : Nat
  period : Nat
  enable : Bool
  deriving DecidableEq, Repr

/-- One page of the capacity chart (R136); the capacity is in 0.1 kg. -/
structure ChartEntry where
  cap    : Nat
  valid  : Bool
  derate : Bool
  deriving DecidableEq, Repr

/-- The geometry group, which POS takes (R201). -/
structure Geometry where
  l1       : Nat
  l2       : Nat
  teleMax  : Nat
  column   : Nat
  slewOff  : Nat
  deriving DecidableEq, Repr

/-- The zone group, which POS takes (R201, R50). -/
structure Zones where
  slewLo  : Nat
  slewHi  : Nat
  reachLo : Nat
  reachHi : Nat
  deriving DecidableEq, Repr

/-- The weighing parameters, which WGE takes; the working zero and span are not here, they are retained memory (R92). -/
structure WeighParams where
  lMin : Nat   -- L
  d    : Nat
  rs   : Nat
  rm   : Nat
  n    : Nat
  nMin : Nat
  zb   : Nat
  deriving DecidableEq, Repr

/-- The capacity settings, which CPM takes (R136, R141). -/
structure CapParams where
  pageSize : Nat
  chart    : Vector ChartEntry 64
  k        : Nat
  fMin     : Nat
  uWarn    : Nat
  uHold    : Nat
  uRel     : Nat
  permitS  : Nat
  deriving DecidableEq, Repr

/-- The three feature switches (R107, R141). -/
structure Switches where
  dynReject    : Bool
  autoZero     : Bool
  sectorDerate : Bool
  deriving DecidableEq, Repr

/-- The working settings that are held neither in retained memory nor in the poll list nor in the watch table. -/
structure Settings where
  geo   : Geometry
  zones : Zones
  weigh : WeighParams
  cap   : CapParams
  sw    : Switches
  deriving DecidableEq, Repr

/-- The contents of a settings image, less its check: what COMMIT collects (R201, R203). -/
structure ImageContents where
  settings : Settings
  z        : Int
  span     : Nat
  pollList : List PollDef
  locked   : Vector (Option WatchDef) 8
  deriving DecidableEq, Repr

/-- The 16-bit check over the image's contents (R201). The manual gives its width and not its formula, so it is an
uninterpreted function: no proof can see a value of it (UNVERIFIED, safe; notes/assumptions/6.md). -/
opaque Config.settingsCheck : ImageContents → BitVec 16

end Sys2Proof
end

