-- ==== Sys2Proof/Machine/Defaults.lean ====
section
/-! DEFINITION. The defaults of the parameter table (R201), of the chart (R136), of the switches (R107, R194) and of a
watch entry (R176, row 3). -/

namespace Sys2Proof.Machine

/-- The watch entry of R176, row 3: OPEN and disabled. -/
def defaultWatchDef : WatchDef where
  enable := false
  quantity := .liveMass
  mode := .above
  a := 0
  b := 0
  action := .report
  holdMask := 0#6
  chain := false
  owner := .open_

/-- A chart page of a bad image: C 0, valid clear, derate clear (R136). -/
def emptyPage : ChartEntry where
  cap := 0
  valid := false
  derate := false

def defaultGeometry : Geometry where
  l1 := 4200
  l2 := 3600
  teleMax := 1500
  column := 2800
  slewOff := 0

def defaultZones : Zones where
  slewLo := 1500
  slewHi := 2100
  reachLo := 1500
  reachHi := 5500

def defaultWeigh : WeighParams where
  lMin := 300
  d := 60
  rs := 300
  rm := 150
  n := 64
  nMin := 16
  zb := 150

def defaultCap : CapParams where
  pageSize := 250
  chart := Vector.replicate 64 emptyPage
  k := 20
  fMin := 512
  uWarn := 900
  uHold := 1000
  uRel := 950
  permitS := 20

def defaultSwitches : Switches where
  dynReject := true
  autoZero := true
  sectorDerate := true

/-- The working settings installed when the image is bad (R194). -/
def defaultSettings : Settings where
  geo := defaultGeometry
  zones := defaultZones
  weigh := defaultWeigh
  cap := defaultCap
  sw := defaultSwitches

/-- The default working zero (R92, R201). -/
def defaultZ : Int := 0

/-- The default working span, in mg per count (R92, R201). -/
def defaultSpan : Nat := 1000

end Sys2Proof.Machine
end

