-- ==== Sys2Proof/Machine/State.lean ====
section
/-! DEFINITION. Everything the part holds, block by block (00_scope, Block diagram), as plain data, with the state right
after a cold reset. A value that another field fixes is not held twice: the sensor state is read from the failure count
(R26), the lift state from the lift in progress (R63), the source sets, commanded levels and primary causes of the hold
lines from the sources' masks (R177, R178, R183), the bunk total from the table (R132). -/

namespace Sys2Proof.Machine

/-! ### Quantities with a mark (R3) -/

/-- A quantity beside its validity mark; an invalid one keeps its last value (R3). -/
structure Marked where
  val : Int
  ok  : Bool
  deriving DecidableEq, Repr

/-! ### Sensor Bus Controller (02_the_sensor_bus) -/

/-- Outcome of a poll transaction; `none_` before the first (R23, R40, R221). -/
inductive PollOutcome where
  | none_ | ok | stuck | waking | nakAddr | stretchTimeout | badCheck | notReady | badValue
  deriving DecidableEq, Repr

/-- Sensor state of an entry (R26). -/
inductive SensorState where
  | online | failing | missing
  deriving DecidableEq, Repr

inductive BusState where
  | running | recovering | down | stopped
  deriving DecidableEq, Repr

/-- Where a bus-free pulse and wait stand, with the time each ends (R31, R33). -/
inductive BusPhase where
  | idle
  | pulse (until_ : Nat)
  | wait (until_ : Nat)
  deriving DecidableEq, Repr

/-- The held value of a sensor: value, OVER mark (`mark`) and arrival time (R27). TILT holds the 24 bits as one signed number. -/
structure Sample where
  value : Int
  mark  : Bool
  time  : Nat
  deriving DecidableEq, Repr

/-- A poll list entry with its working state (R15). -/
structure Entry where
  pd           : PollDef
  failures     : Nat
  expectWaking : Bool
  last         : PollOutcome
  slot         : Option Sample
  stale        : Bool
  /-- no good sample has come since the bus last left STOPPED: the rate and the previous mass start over at the first one (R54, R60) -/
  firstDue     : Bool
  restarts     : Nat
  deriving DecidableEq, Repr

/-- Which transaction is on the bus: a round's poll, a recovery attempt's poll (R33) or the passthrough (R37). -/
inductive TxnKind where
  | poll (role : Role) (addr : Nat)
  | attempt (role : Role) (addr : Nat)
  | pass
  deriving DecidableEq, Repr

/-- The transaction in progress. -/
structure Txn where
  kind      : TxnKind
  /-- a stretch has lasted beyond 2 ms (R22) -/
  stretched : Bool
  /-- its entry did not survive a POLL_WRITE (R17) -/
  discarded : Bool
  deriving DecidableEq, Repr

/-- The passthrough slot's parameters (R36); it is in progress while the transaction is `TxnKind.pass`. -/
structure Passthrough where
  addr   : Nat
  count  : Nat
  writes : List Byte
  deriving DecidableEq, Repr

structure Sbc where
  entries        : List Entry
  bus            : BusState
  /-- the bus-free line is driven low -/
  busFreeLow     : Bool
  roundNo        : Nat
  /-- when the round timer next expires; `none` while it is halted -/
  roundTimer     : Option Nat
  /-- a round is polling, or is to begin when the transaction in progress has completed -/
  roundActive    : Bool
  /-- the due entries of the round not yet polled -/
  due            : List Role
  /-- the round-overrun flag -/
  overrun        : Bool
  txn            : Option Txn
  phase          : BusPhase
  attemptTimer   : Option Nat
  /-- the kept times of the two latest STUCK outcomes, older first (R32) -/
  stuckTimes     : List Nat
  pass           : Option Passthrough
  /-- the bus has been stopped while a transaction was in progress, which still completes (R35) -/
  stopping       : Bool
  /-- the bus is to leave STOPPED when that transaction has completed -/
  startPending   : Bool
  /-- a BUS_RESTART waits for the transaction in progress to complete (R34) -/
  restartPending : Bool
  deriving DecidableEq, Repr

/-! ### Pose Unit (03_crane_pose) -/

inductive Zone where
  | unknown | bunk | field_
  deriving DecidableEq, Repr

inductive Sector where
  | front | left | rear | right
  deriving DecidableEq, Repr

/-- The pose record (R41). -/
structure Pose where
  s            : Marked
  alpha        : Marked
  beta         : Marked
  e            : Marked
  gamma        : Marked
  r            : Marked
  h            : Marked
  pitch        : Marked
  roll         : Marked
  t            : Marked
  slewRate     : Marked
  mainRate     : Marked
  zone         : Zone
  sector       : Sector
  valid        : Bool
  reachClamped : Bool
  teleClamped  : Bool
  deriving DecidableEq, Repr

/-- A rate memory: the latest sample's value and arrival time, and the current rate (R42). -/
structure RateMem where
  value : Int
  time  : Nat
  rate  : Int
  deriving DecidableEq, Repr

/-- The freshness of POS's inputs as the delivered stale marks give it (R42). -/
structure Freshness where
  slew  : Bool
  main  : Bool
  outer : Bool
  tele  : Bool
  tilt  : Bool
  deriving DecidableEq, Repr

structure Pos where
  pose    : Pose
  slewMem : Option RateMem
  mainMem : Option RateMem
  fresh   : Freshness
  deriving DecidableEq, Repr

/-! ### Weighing Engine (04, 05) -/

inductive LiftState where
  | open_ | gripped | carrying | weighed
  deriving DecidableEq, Repr

/-- The lift states in which a lift is in progress (R63). -/
inductive Stage where
  | gripped | carrying | weighed
  deriving DecidableEq, Repr

/-- The lift flags (R84). -/
structure LiftFlags where
  short       : Bool
  restarted   : Bool
  clipped     : Bool
  zeroSuspect : Bool
  sensorGap   : Bool
  deriving DecidableEq, Repr

/-- The lift in progress (R63). -/
structure Lift where
  stage   : Stage
  origin  : Zone
  tag     : Nat
  confirm : Nat
  sum     : Int
  n       : Nat
  rejects : Nat
  drops   : Nat
  mass    : Option Nat
  flags   : LiftFlags
  peakU   : Nat
  deriving DecidableEq, Repr

/-- The auto-zero window (R95). -/
structure AzWindow where
  count : Nat
  sumC  : Int
  sumM  : Int
  deriving DecidableEq, Repr

/-- A working TARE: its port, its collection and when the tare timer expires (R98, R99). -/
structure TareWork where
  port     : Port
  count    : Nat
  sumC     : Int
  deadline : Nat
  deriving DecidableEq, Repr

/-- A working CAL_SPAN: its reference mass and its collection (R103, R104). -/
structure CalWork where
  mref  : Nat
  count : Nat
  sumC  : Int
  deriving DecidableEq, Repr

structure Wge where
  /-- the working zero, retained (R92) -/
  z           : Int
  /-- the working span, retained (R92) -/
  span        : Nat
  zeroSuspect : Bool
  /-- the previous mass (R60) -/
  prev        : Option Int
  /-- the live window, oldest first (R62) -/
  live        : List Int
  /-- the live mass as last formed; it is valid while the live window is not empty (R62) -/
  liveVal     : Int
  /-- the lift in progress; the lift state is OPEN while there is none (R63) -/
  lift        : Option Lift
  az          : AzWindow
  tare        : Option TareWork
  cal         : Option CalWork
  deriving DecidableEq, Repr

/-! ### Tally Unit (06) -/

/-- An assortment slot that holds an id, with its figures (R109). -/
structure AsnSlot where
  id           : Nat
  loadedCount  : Nat
  loadedMass   : Nat
  bunkCount    : Nat
  bunkMass     : Nat
  removedCount : Nat
  removedMass  : Nat
  excessCount  : Nat
  excessMass   : Nat
  saturated    : Bool
  deriving DecidableEq, Repr

/-- The outcome of a completed lift (R81). -/
inductive LiftOutcome where
  | add | remove | return_ | move | unzoned | unweighed | test
  deriving DecidableEq, Repr

/-- What WGE hands to TLU at a release (R82). -/
structure CompletedLift where
  tag     : Nat
  origin  : Zone
  dest    : Zone
  outcome : LiftOutcome
  mass    : Option Nat
  n       : Nat
  flags   : LiftFlags
  peakU   : Nat
  reach   : Marked
  slew    : Marked
  deriving DecidableEq, Repr

/-- A record of the lift log (R119). -/
structure LogRecord where
  number     : Nat
  asn        : Nat
  origin     : Zone
  dest       : Zone
  outcome    : LiftOutcome
  mass       : Option Nat
  taken      : Nat
  excess     : Nat
  countTaken : Bool
  n          : Nat
  flags      : LiftFlags
  voided     : Bool
  assigned   : Bool
  peakU      : Nat
  reach      : Marked
  slew       : Marked
  trip       : Option Nat
  deriving DecidableEq, Repr

inductive TripState where
  | empty | loading | unloading
  deriving DecidableEq, Repr

inductive CloseCause where
  | emptied | ordered
  deriving DecidableEq, Repr

/-- An entry of a trip list (R122). -/
structure TripEntry where
  id           : Nat
  loadedCount  : Nat
  loadedMass   : Nat
  removedCount : Nat
  removedMass  : Nat
  deriving DecidableEq, Repr

/-- The trip working record, and an entry of the trip history (R122, R125). -/
structure Trip where
  number     : Nat
  state      : TripState
  list       : List TripEntry
  /-- first and last lift, absent before the first trip -/
  lifts      : Option (Nat × Nat)
  writtenOff : Nat
  cause      : Option CloseCause
  deriving DecidableEq, Repr

structure Tlu where
  table    : Vector (Option AsnSlot) 16
  current  : Nat
  /-- the lift log, oldest first -/
  log      : List LogRecord
  nextLift : Nat
  trip     : Trip
  /-- the trip history, oldest first -/
  history  : List Trip
  deriving DecidableEq, Repr

/-! ### Capacity Monitor (07) -/

inductive Monitor where
  | normal | warn | hold | blind
  deriving DecidableEq, Repr

/-- An override slot (R138). -/
structure Override where
  page   : Nat
  value  : Nat
  enable : Bool
  deriving DecidableEq, Repr

structure Cpm where
  monitor   : Monitor
  u         : Nat
  uOk       : Bool
  page      : Nat
  f         : Nat
  cEff      : Nat
  /-- the mark that page, F and C_eff share: they are formed and invalidated together (R143) -/
  figOk     : Bool
  /-- the override slot that gave the page's capacity, if one did (R156) -/
  ovUsed    : Option (Fin 3)
  overrides : Vector Override 3
  /-- when the permit timer expires; `none` while no permit runs -/
  permit    : Option Nat
  liftCopy  : LiftState
  liveCopy  : Marked
  poseCopy  : Pose
  deriving DecidableEq, Repr

/-! ### Watch Table (08) -/

structure WatchEntry where
  d        : WatchDef
  hit      : Bool
  matching : Bool
  last     : Option Int
  deriving DecidableEq, Repr

/-- The capture record while FULL (R168). -/
structure Capture where
  entry   : Fin 8
  value   : Int
  s       : Marked
  alpha   : Marked
  beta    : Marked
  e       : Marked
  r       : Marked
  h       : Marked
  live    : Marked
  u       : Marked
  lift    : LiftState
  tag     : Option Nat
  overrun : Bool
  deriving DecidableEq, Repr

structure Wt where
  /-- the entries have been made since the reset (R176) -/
  made    : Bool
  entries : Vector WatchEntry 8
  /-- pair match states of (0,1), (2,3), (4,5), (6,7) (R165) -/
  pairs   : Vector Bool 4
  pose    : Pose
  live    : Marked
  u       : Marked
  lift    : LiftState
  tag     : Option Nat
  /-- `none` while EMPTY -/
  capture : Option Capture
  deriving DecidableEq, Repr

/-! ### Hold Line Stage (09) -/

/-- The six hold lines, in the order of R177. -/
inductive Line where
  | boomOut | teleOut | lower | slewL | slewR | alert
  deriving DecidableEq, Repr

/-- The sources of hold requests (R178). -/
inductive HoldSource where
  | state | fault | cap | watch (k : Fin 8) | manual
  deriving DecidableEq, Repr

/-- The latest mask of every source (R178). -/
structure HoldMasks where
  state  : LineMask
  fault  : LineMask
  cap    : LineMask
  watch  : Vector LineMask 8
  manual : LineMask
  deriving DecidableEq, Repr

/-- What HLS keeps of one line's read-back (R177); the observed level is `some true` for ACTIVE, `none` for not sampled. -/
structure LineSense where
  observed   : Option Bool
  mismatches : Nat
  fault      : Bool
  deriving DecidableEq, Repr

structure Hls where
  masks      : HoldMasks
  sense      : Vector LineSense 6
  /-- when the sense timer next expires -/
  senseTimer : Nat
  deriving DecidableEq, Repr

/-! ### State Controller (10) -/

inductive OpState where
  | start | run | service | standby
  deriving DecidableEq, Repr

/-- The settings image in non-volatile storage (R193, R201, R203). -/
structure StoredImage where
  contents : ImageContents
  check    : BitVec 16
  /-- marked invalid by a COMMIT begun and not ended OK -/
  invalid  : Bool
  deriving DecidableEq, Repr

/-- Where a RESTART stands: none; its OK reply not yet sent in full; the reset due (R204). -/
inductive RestartPhase where
  | none_ | replying | due
  deriving DecidableEq, Repr

structure Stc where
  op          : OpState
  preloading  : Bool
  image       : StoredImage
  settings    : Settings
  settingsBad : Bool
  /-- the retained-valid marker is intact; a cold start sets it only at its end, after the cold values (R92, R195) -/
  marker      : Bool
  /-- the kind of the latest start -/
  startWarm   : Bool
  /-- the finding of the latest start's image -/
  imageBad    : Bool
  /-- the collection a working COMMIT writes -/
  commit      : Option ImageContents
  restart     : RestartPhase
  deriving DecidableEq, Repr

/-! ### Message Ports (11) -/

/-- A receiver's state (R206). In CONTENT it keeps LEN and the bytes collected so far, first byte first. -/
inductive Rx where
  | hunt
  | length
  | content (len : Nat) (got : List Byte)
  deriving DecidableEq, Repr

/-- A reply or report frame, less SYNC, LEN and CHECK, which its other bytes fix (R206). -/
structure OutFrame where
  kind   : Byte
  status : Byte
  body   : List Byte
  deriving DecidableEq, Repr

structure PortState where
  rx       : Rx
  /-- when the latest byte arrived, for the gap test (R206) -/
  lastByte : Nat
  /-- the held frame: its kind and body (R208) -/
  held     : Option (Byte × List Byte)
  /-- the reply waiting to be sent -/
  reply    : Option OutFrame
  /-- the frame being sent -/
  tx       : Option OutFrame
  /-- the report queue, oldest first -/
  queue    : List OutFrame
  enable   : BitVec 16
  gap      : Bool
  /-- a port break lasts (R216) -/
  breakOn  : Bool
  deriving DecidableEq, Repr

/-- The delayed requests (R212). -/
inductive DelayedKind where
  | tare | calSpan | sensorPass | commit
  deriving DecidableEq, Repr

/-- The state of a delayed slot; DONE keeps the collecting reply's body and when the discard timer expires (R213, R215). -/
inductive SlotState where
  | working
  | done (result : List Byte) (until_ : Nat)
  deriving DecidableEq, Repr

structure DelayedSlot where
  port  : Port
  kind  : DelayedKind
  body  : List Byte
  state : SlotState
  deriving DecidableEq, Repr

structure Mpt where
  cab     : PortState
  service : PortState
  slots   : Vector (Option DelayedSlot) 4
  deriving DecidableEq, Repr

/-! ### The whole part -/

structure State where
  /-- the machine supply is present (R195) -/
  powered : Bool
  /-- the time base, ms since the latest reset (R8) -/
  now     : Nat
  sbc     : Sbc
  pos     : Pos
  wge     : Wge
  tlu     : Tlu
  cpm     : Cpm
  wt      : Wt
  hls     : Hls
  stc     : Stc
  mpt     : Mpt
  /-- THE MODEL'S OWN: the picks that settle the orders the manual leaves open (notes/assumptions/7.md) -/
  sched   : List Nat
  /-- the commands waiting, first in first out -/
  pending : List Instr
  deriving DecidableEq, Repr

/-- The reasons a step could stop the part with a fault. The manual gives the part no such event: every command of the
table has an effect in every state, so no step raises one and the type has no member. -/
inductive Fault where
  deriving DecidableEq, Repr

/-- The reasons a command could be refused by the model. -/
inductive Refusal where
  /-- Raised only by an arm of `exec` whose command has no meaning in the model yet; safe, since the run stops there.
  No arm of this model raises it. -/
  | notModelled (mnemonic : String)
  deriving DecidableEq, Repr

/-! ### The state after a cold reset -/

def Sbc.reset : Sbc where
  entries := []
  bus := .stopped
  busFreeLow := true
  roundNo := 0
  roundTimer := none
  roundActive := false
  due := []
  overrun := false
  txn := none
  phase := .idle
  attemptTimer := none
  stuckTimes := []
  pass := none
  stopping := false
  startPending := false
  restartPending := false

/-- A quantity of value 0 marked invalid. -/
def Marked.none_ : Marked where
  val := 0
  ok := false

/-- The pose record of R58. -/
def Pose.reset : Pose where
  s := .none_
  alpha := .none_
  beta := .none_
  e := .none_
  gamma := .none_
  r := .none_
  h := .none_
  pitch := .none_
  roll := .none_
  t := .none_
  slewRate := .none_
  mainRate := .none_
  zone := .unknown
  sector := .front
  valid := false
  reachClamped := false
  teleClamped := false

def Pos.reset : Pos where
  pose := .reset
  slewMem := none
  mainMem := none
  fresh := { slew := false, main := false, outer := false, tele := false, tilt := false }

def AzWindow.empty : AzWindow where
  count := 0
  sumC := 0
  sumM := 0

/-- R91, R94. The zero and span stand at their defaults until the settings are installed (notes/assumptions/4.md). -/
def Wge.reset : Wge where
  z := defaultZ
  span := defaultSpan
  zeroSuspect := false
  prev := none
  live := []
  liveVal := 0
  lift := none
  az := .empty
  tare := none
  cal := none

/-- A slot that has just taken an id (R112). -/
def AsnSlot.fresh (id : Nat) : AsnSlot where
  id := id
  loadedCount := 0
  loadedMass := 0
  bunkCount := 0
  bunkMass := 0
  removedCount := 0
  removedMass := 0
  excessCount := 0
  excessMass := 0
  saturated := false

def Trip.reset : Trip where
  number := 0
  state := .empty
  list := []
  lifts := none
  writtenOff := 0
  cause := none

/-- The cold column of R135. -/
def Tlu.reset : Tlu where
  table := (Vector.replicate 16 none).set 0 (some (AsnSlot.fresh 0))
  current := 0
  log := []
  nextLift := 1
  trip := .reset
  history := []

def Override.clear : Override where
  page := 0
  value := 0
  enable := false

/-- R157. -/
def Cpm.reset : Cpm where
  monitor := .normal
  u := 0
  uOk := true
  page := 0
  f := 1024
  cEff := 0
  figOk := false
  ovUsed := none
  overrides := Vector.replicate 3 .clear
  permit := none
  liftCopy := .open_
  liveCopy := .none_
  poseCopy := .reset

def WatchEntry.of (d : WatchDef) : WatchEntry where
  d := d
  hit := false
  matching := false
  last := none

/-- R176, cold: no retained OPEN entry. -/
def Wt.reset : Wt where
  made := false
  entries := Vector.replicate 8 (.of defaultWatchDef)
  pairs := Vector.replicate 4 false
  pose := .reset
  live := .none_
  u := { val := 0, ok := true }
  lift := .open_
  tag := none
  capture := none

/-- The five motion lines (R177). -/
def motionLines : LineMask := 0b011111#6

def LineSense.reset : LineSense where
  observed := none
  mismatches := 0
  fault := false

/-- R190. -/
def Hls.reset : Hls where
  masks := { state := motionLines, fault := 0#6, cap := 0#6, watch := Vector.replicate 8 0#6, manual := 0#6 }
  sense := Vector.replicate 6 .reset
  senseTimer := 10

/-- A settings image that no COMMIT has written: it carries the invalid mark (notes/assumptions/5.md). -/
def StoredImage.unwritten : StoredImage where
  contents :=
    { settings := defaultSettings, z := defaultZ, span := defaultSpan, pollList := [], locked := Vector.replicate 8 none }
  check := 0#16
  invalid := true

/-- R205. The marker is still lost: a cold start sets it intact once the last cold values, z and s, are in place (R92, R195;
notes/assumptions/36.md). -/
def Stc.reset : Stc where
  op := .start
  preloading := true
  image := .unwritten
  settings := defaultSettings
  settingsBad := false
  marker := false
  startWarm := false
  imageBad := false
  commit := none
  restart := .none_

/-- R220, R218: the cab mask is all ten kinds, the service mask none. A break that lasts across the reset is forgotten (DESIGN
CHOICE, notes/assumptions/40.md). -/
def PortState.reset (enable : BitVec 16) : PortState where
  rx := .hunt
  lastByte := 0
  held := none
  reply := none
  tx := none
  queue := []
  enable := enable
  gap := false
  breakOn := false

def Mpt.reset : Mpt where
  cab := .reset 0x3FF#16
  service := .reset 0#16
  slots := Vector.replicate 4 none

/-- The part right after a cold reset: START with the preload working, nothing waiting. -/
def State.reset : State where
  powered := true
  now := 0
  sbc := .reset
  pos := .reset
  wge := .reset
  tlu := .reset
  cpm := .reset
  wt := .reset
  hls := .reset
  stc := .reset
  mpt := .reset
  sched := []
  pending := []

end Sys2Proof.Machine
end

