-- ==== Sys2Proof/Machine/Bytes.lean ====
section
/-! DEFINITION. How numbers travel (R13): most significant byte first, signed values in two's complement; the frame
around a body, with its CHECK (R206); and the numbers of the enumerated values (R210, R212, R218, R221). -/

namespace Sys2Proof.Machine

/-! ### Numbers -/

/-- The `k` bytes that carry `v` in two's complement, most significant first (R13). -/
def beBytes : Nat → Int → List Byte
  | 0, _ => []
  | k + 1, v => BitVec.ofInt 8 (v / (256 : Int) ^ k) :: beBytes k v

/-- One byte carrying a number. -/
def be1 (v : Nat) : List Byte := beBytes 1 v

/-- Two bytes carrying an unsigned number. -/
def be2 (v : Nat) : List Byte := beBytes 2 v

/-- Four bytes carrying an unsigned number. -/
def be4 (v : Nat) : List Byte := beBytes 4 v

/-- The unsigned number that bytes carry, most significant first. -/
def beNat (bs : List Byte) : Nat := bs.foldl (fun acc b => acc * 256 + b.toNat) 0

/-- The signed number that bytes carry, most significant first. -/
def beInt (bs : List Byte) : Int := (BitVec.ofNat (8 * bs.length) (beNat bs)).toInt

/-- The byte at an offset of a body. -/
def byteAt (body : List Byte) (i : Nat) : Byte := body.getD i 0#8

/-- The unsigned number in `k` bytes from an offset of a body. -/
def natAt (body : List Byte) (i k : Nat) : Nat := beNat ((body.drop i).take k)

/-- The signed number in `k` bytes from an offset of a body. -/
def intAt (body : List Byte) (i k : Nat) : Int := beInt ((body.drop i).take k)

/-- Bit k of a marks byte. -/
def bitOf (k : Nat) (b : Bool) : Nat := if b then 2 ^ k else 0

/-! ### Frames -/

/-- CHECK: the 16-bit two's complement of the sum of the bytes from KIND to the end of the body (R206). -/
def checkOf (bytes : List Byte) : BitVec 16 := BitVec.ofInt 16 (-((bytes.map BitVec.toNat).sum : Int))

/-- The bytes of a reply or report frame as they go out on the line (R206, R221). -/
def OutFrame.wire (f : OutFrame) : List Byte :=
  let inner := f.kind :: f.status :: f.body
  0xA5#8 :: BitVec.ofNat 8 inner.length :: inner ++ be2 (checkOf inner).toNat

/-- The CHECK test on the LEN + 2 bytes collected in CONTENT (R206). -/
def checkPasses (len : Nat) (got : List Byte) : Bool :=
  checkOf (got.take len) == BitVec.ofNat 16 (beNat (got.drop len))

/-! ### Request kinds -/

/-- The requests of R212, in the order of its table. -/
inductive Req where
  | status | pose | sensors | pollRead | pollWrite | sensorPass | busRestart
  | setAssortment | defineAssortment | deleteAssortment | tallyRead | logRead | voidLift | assignLift | tripRead
  | tripClose | totalsReset
  | tare | calSpan | chartRead | chartWrite | overrideSet | permit
  | watchRead | watchWrite | hitClear | captureRead | holdManual | linesRead | lineFaultClear
  | paramRead | paramWrite | features | enterService | leaveService | standby | commit | restart | reportEnable
  deriving DecidableEq, Repr

/-- The KIND code of a request (R212). -/
def Req.code : Req → Byte
  | .status => 0x01#8
  | .pose => 0x02#8
  | .sensors => 0x03#8
  | .pollRead => 0x04#8
  | .pollWrite => 0x05#8
  | .sensorPass => 0x06#8
  | .busRestart => 0x07#8
  | .setAssortment => 0x10#8
  | .defineAssortment => 0x11#8
  | .deleteAssortment => 0x12#8
  | .tallyRead => 0x13#8
  | .logRead => 0x14#8
  | .voidLift => 0x15#8
  | .assignLift => 0x16#8
  | .tripRead => 0x17#8
  | .tripClose => 0x18#8
  | .totalsReset => 0x19#8
  | .tare => 0x20#8
  | .calSpan => 0x21#8
  | .chartRead => 0x22#8
  | .chartWrite => 0x23#8
  | .overrideSet => 0x24#8
  | .permit => 0x25#8
  | .watchRead => 0x28#8
  | .watchWrite => 0x29#8
  | .hitClear => 0x2A#8
  | .captureRead => 0x2B#8
  | .holdManual => 0x2C#8
  | .linesRead => 0x2D#8
  | .lineFaultClear => 0x2E#8
  | .paramRead => 0x30#8
  | .paramWrite => 0x31#8
  | .features => 0x32#8
  | .enterService => 0x38#8
  | .leaveService => 0x39#8
  | .standby => 0x3A#8
  | .commit => 0x3B#8
  | .restart => 0x3C#8
  | .reportEnable => 0x3D#8

/-- Every request. -/
def Req.all : List Req :=
  [.status, .pose, .sensors, .pollRead, .pollWrite, .sensorPass, .busRestart, .setAssortment, .defineAssortment,
   .deleteAssortment, .tallyRead, .logRead, .voidLift, .assignLift, .tripRead, .tripClose, .totalsReset, .tare,
   .calSpan, .chartRead, .chartWrite, .overrideSet, .permit, .watchRead, .watchWrite, .hitClear, .captureRead,
   .holdManual, .linesRead, .lineFaultClear, .paramRead, .paramWrite, .features, .enterService, .leaveService,
   .standby, .commit, .restart, .reportEnable]

/-- The request a KIND byte names, if any (R207, row 3). -/
def Req.ofCode (k : Byte) : Option Req := Req.all.find? (fun r => r.code == k)

/-- The KIND of the reply to a frame of kind k (R207). -/
def replyKind (k : Byte) : Byte := if 1 ≤ k.toNat ∧ k.toNat ≤ 0x3F then k + 0x80#8 else 0x80#8

/-- The delayed request of a kind, if it is one (R212). -/
def Req.delayed : Req → Option DelayedKind
  | .tare => some .tare
  | .calSpan => some .calSpan
  | .sensorPass => some .sensorPass
  | .commit => some .commit
  | _ => none

/-- The codes of a reply's STATUS byte (R210). -/
inductive Code where
  | ok | clamped | pending | busy | startBusy | waking | locked | wrongState
  | badField | unknownKind | notFound | conflict | noRoom
  deriving DecidableEq, Repr

def Code.byte : Code → Byte
  | .ok => 0x00#8
  | .clamped => 0x01#8
  | .pending => 0x02#8
  | .busy => 0x10#8
  | .startBusy => 0x11#8
  | .waking => 0x12#8
  | .locked => 0x13#8
  | .wrongState => 0x14#8
  | .badField => 0x20#8
  | .unknownKind => 0x21#8
  | .notFound => 0x22#8
  | .conflict => 0x23#8
  | .noRoom => 0x24#8

/-- What an owner answers: the status and the body, empty unless the status is OK or CLAMPED (R207). -/
structure Answer where
  code : Code
  body : List Byte
  deriving DecidableEq, Repr

/-- An answer with an empty body: every refusal, and PENDING (R207). -/
def Answer.refuse (c : Code) : Answer where
  code := c
  body := []

def Answer.ok (body : List Byte) : Answer where
  code := .ok
  body := body

/-- The report kinds (R218). -/
inductive Report where
  | liftDone | tripClosed | watch | captureReady | holdChange | capacity | permitEnd | sensorState | lineFault
  | stateChange
  deriving DecidableEq, Repr

/-- The enable bit of a report kind (R218). -/
def Report.bit : Report → Nat
  | .liftDone => 0
  | .tripClosed => 1
  | .watch => 2
  | .captureReady => 3
  | .holdChange => 4
  | .capacity => 5
  | .permitEnd => 6
  | .sensorState => 7
  | .lineFault => 8
  | .stateChange => 9

/-- The KIND of a report: 0xC0 plus its bit (R218). -/
def Report.kind (r : Report) : Byte := BitVec.ofNat 8 (0xC0 + r.bit)

/-- A frame is a reply when its KIND lies below the report kinds (R207, R218). -/
def OutFrame.isReply (f : OutFrame) : Bool := f.kind.toNat < 0xC0

/-! ### The numbers of enumerated values (R221) -/

def OpState.num : OpState → Nat
  | .start => 0
  | .run => 1
  | .service => 2
  | .standby => 3

def BusState.num : BusState → Nat
  | .running => 0
  | .recovering => 1
  | .down => 2
  | .stopped => 3

def LiftState.num : LiftState → Nat
  | .open_ => 0
  | .gripped => 1
  | .carrying => 2
  | .weighed => 3

def Zone.num : Zone → Nat
  | .unknown => 0
  | .bunk => 1
  | .field_ => 2

def LiftOutcome.num : LiftOutcome → Nat
  | .add => 0
  | .remove => 1
  | .return_ => 2
  | .move => 3
  | .unzoned => 4
  | .unweighed => 5
  | .test => 6

def Monitor.num : Monitor → Nat
  | .normal => 0
  | .warn => 1
  | .hold => 2
  | .blind => 3

def TripState.num : TripState → Nat
  | .empty => 0
  | .loading => 1
  | .unloading => 2

def causeNum : Option CloseCause → Nat
  | none => 0
  | some .emptied => 1
  | some .ordered => 2

/-- Result codes of delayed work (R221). -/
inductive WorkCode where
  | ok | notSteady | aborted | sensorLost | badSpan | writeFail | nakAddr | nakData | stretchTimeout | stuck
  deriving DecidableEq, Repr

def WorkCode.num : WorkCode → Nat
  | .ok => 0x00
  | .notSteady => 0x01
  | .aborted => 0x02
  | .sensorLost => 0x03
  | .badSpan => 0x04
  | .writeFail => 0x05
  | .nakAddr => 0x10
  | .nakData => 0x11
  | .stretchTimeout => 0x12
  | .stuck => 0x13

def roleNum : Role → Nat
  | .link => 0
  | .slew => 1
  | .main => 2
  | .outer => 3
  | .tele => 4
  | .tilt => 5
  | .grip => 6

def roleOf : Nat → Option Role
  | 0 => some .link
  | 1 => some .slew
  | 2 => some .main
  | 3 => some .outer
  | 4 => some .tele
  | 5 => some .tilt
  | 6 => some .grip
  | _ => none

def SensorState.num : SensorState → Nat
  | .online => 0
  | .failing => 1
  | .missing => 2

def PollOutcome.num : PollOutcome → Nat
  | .none_ => 0
  | .ok => 1
  | .stuck => 2
  | .waking => 3
  | .nakAddr => 4
  | .stretchTimeout => 5
  | .badCheck => 6
  | .notReady => 7
  | .badValue => 8

def Sector.num : Sector → Nat
  | .front => 0
  | .left => 1
  | .rear => 2
  | .right => 3

def Line.num : Line → Nat
  | .boomOut => 0
  | .teleOut => 1
  | .lower => 2
  | .slewL => 3
  | .slewR => 4
  | .alert => 5

/-- The lines in the order of R177. -/
def Line.all : List Line := [.boomOut, .teleOut, .lower, .slewL, .slewR, .alert]

/-- A line's index among the six. -/
def Line.idx (l : Line) : Fin 6 :=
  match l with
  | .boomOut => 0
  | .teleOut => 1
  | .lower => 2
  | .slewL => 3
  | .slewR => 4
  | .alert => 5

/-- A level as R221 numbers it; `none` is not sampled. -/
def levelNum : Option Bool → Nat
  | some false => 0
  | some true => 1
  | none => 2

/-- A hold source as a primary cause (R221). -/
def sourceNum : Option HoldSource → Nat
  | none => 0
  | some .state => 1
  | some .fault => 2
  | some .cap => 3
  | some (.watch k) => 4 + k.val
  | some .manual => 12

/-- A hold source's bit in a source set (R221). -/
def HoldSource.bit : HoldSource → Nat
  | .state => 0
  | .fault => 1
  | .cap => 2
  | .watch k => 3 + k.val
  | .manual => 11

def quantityNum : Quantity → Nat
  | .liveMass => 0
  | .liftMass => 1
  | .reach => 2
  | .height => 3
  | .slew => 4
  | .util => 5
  | .downhill => 6
  | .bunkTotal => 7

def quantityOf : Nat → Option Quantity
  | 0 => some .liveMass
  | 1 => some .liftMass
  | 2 => some .reach
  | 3 => some .height
  | 4 => some .slew
  | 5 => some .util
  | 6 => some .downhill
  | 7 => some .bunkTotal
  | _ => none

def modeNum : WatchMode → Nat
  | .above => 0
  | .below => 1
  | .inside => 2
  | .outside => 3

def modeOf : Nat → Option WatchMode
  | 0 => some .above
  | 1 => some .below
  | 2 => some .inside
  | 3 => some .outside
  | _ => none

def actionNum : WatchAction → Nat
  | .report => 0
  | .hold => 1
  | .capture => 2

def actionOf : Nat → Option WatchAction
  | 0 => some .report
  | 1 => some .hold
  | 2 => some .capture
  | _ => none

def ownerNum : Owner → Nat
  | .open_ => 0
  | .locked => 1

def ownerOf : Nat → Option Owner
  | 0 => some .open_
  | 1 => some .locked
  | _ => none

/-- The kind of source event a firing is taken at (R163, R221). -/
inductive SourceEvent where
  | liveMass | weighed | poseUpdate | cpmEvaluation | bunkTotal
  deriving DecidableEq, Repr

def SourceEvent.num : SourceEvent → Nat
  | .liveMass => 0
  | .weighed => 1
  | .poseUpdate => 2
  | .cpmEvaluation => 3
  | .bunkTotal => 4

/-- The causes of a permit's end (R153). -/
inductive PermitCause where
  | expired | leftHold | opened
  deriving DecidableEq, Repr

def PermitCause.num : PermitCause → Nat
  | .expired => 0
  | .leftHold => 1
  | .opened => 2

end Sys2Proof.Machine
end

