-- ==== Sys2Proof/Machine/Ops.lean ====
section
/-! DEFINITION. The operations every block shares: replacing one block of the state, reports and replies on the ports
(R207 to R209, R217), ending a delayed work (R213, R215), and hand-overs taken in an order the manual leaves open. -/

namespace Sys2Proof.Machine

/-! ### Replacing one part of the state -/

def State.setPowered (s : State) (b : Bool) : State := { s with powered := b }
def State.setNow (s : State) (t : Nat) : State := { s with now := t }
def State.setSbc (s : State) (b : Sbc) : State := { s with sbc := b }
def State.setPos (s : State) (b : Pos) : State := { s with pos := b }
def State.setWge (s : State) (b : Wge) : State := { s with wge := b }
def State.setTlu (s : State) (b : Tlu) : State := { s with tlu := b }
def State.setCpm (s : State) (b : Cpm) : State := { s with cpm := b }
def State.setWt (s : State) (b : Wt) : State := { s with wt := b }
def State.setHls (s : State) (b : Hls) : State := { s with hls := b }
def State.setStc (s : State) (b : Stc) : State := { s with stc := b }
def State.setMpt (s : State) (b : Mpt) : State := { s with mpt := b }
def State.setSched (s : State) (l : List Nat) : State := { s with sched := l }
def State.setPending (s : State) (l : List Instr) : State := { s with pending := l }

/-- The working settings (R194, R201). -/
def State.cfg (s : State) : Settings := s.stc.settings

def State.setCfg (s : State) (c : Settings) : State := s.setStc { s.stc with settings := c }

/-- The block of one port. -/
def Mpt.port (m : Mpt) : Port → PortState
  | .cab => m.cab
  | .service => m.service

def Mpt.setPort (m : Mpt) (p : Port) (q : PortState) : Mpt :=
  match p with
  | .cab => { m with cab := q }
  | .service => { m with service := q }

def State.port (s : State) (p : Port) : PortState := s.mpt.port p

def State.setPort (s : State) (p : Port) (q : PortState) : State := s.setMpt (s.mpt.setPort p q)

/-! ### Orders the manual leaves open -/

/-- The next pick among `n` possibilities: the first number of the schedule mod n, or the first possibility when the
schedule is empty (DESIGN CHOICE, notes/assumptions/7.md). -/
def State.pick (s : State) (n : Nat) : Nat × State :=
  match s.sched with
  | [] => (0, s)
  | k :: rest => (k % n, s.setSched rest)

/-- Hand-overs of one event taken one after another, each whole, in an order the schedule picks. -/
def runAnyFuel : Nat → List (State → State) → State → State
  | 0, _, s => s
  | _ + 1, [], s => s
  | _ + 1, [f], s => f s
  | k + 1, f :: g :: fs, s =>
    let (i, s') := s.pick (f :: g :: fs).length
    runAnyFuel k ((f :: g :: fs).eraseIdx i) (((f :: g :: fs).getD i id) s')

/-- Hand-overs to blocks that "need no order among themselves" (R142, R149, R194): every order is some schedule's. -/
def runAny (fs : List (State → State)) (s : State) : State := runAnyFuel fs.length fs s

/-! ### Reports (R217) -/

/-- A report meets one port's queue: dropped when its kind is disabled, discarded with the gap flag set when 16 wait. -/
def PortState.queueReport (q : PortState) (r : Report) (body : List Byte) : PortState :=
  if q.enable.getLsbD r.bit then
    if q.queue.length < 16 then { q with queue := q.queue ++ [{ kind := r.kind, status := 0#8, body := body }] }
    else { q with gap := true }
  else q

/-- A block queues a report on each port whose enable mask admits it. -/
def Mpt.queueReport (m : Mpt) (r : Report) (body : List Byte) : Mpt :=
  { m with cab := m.cab.queueReport r body, service := m.service.queueReport r body }

def State.queueReport (s : State) (r : Report) (body : List Byte) : State := s.setMpt (s.mpt.queueReport r body)

/-! ### Replies and the transmitter (R207 to R209) -/

/-- The reply path holds a reply waiting or being sent (R208). -/
def PortState.replyBusy (q : PortState) : Bool :=
  q.reply.isSome || (match q.tx with | some f => f.isReply | none => false)

/-- The reply to a frame of KIND `kind` is formed and waits (R207). -/
def PortState.putReply (q : PortState) (kind : Byte) (a : Answer) : PortState :=
  { q with reply := some { kind := replyKind kind, status := a.code.byte, body := a.body } }

/-- A held frame whose turn has come: its port's reply has been sent in full (R208). -/
def PortState.heldDue (q : PortState) : Bool := q.held.isSome && !q.replyBusy

/-- An idle transmitter begins the waiting reply, or else the oldest report with GAP in its STATUS byte when the gap
flag is set (R209, R210, R217). No report begins while a held frame's turn has come: its reply goes first
(DEDUCED, notes/assumptions/9.md). -/
def PortState.pump (q : PortState) : PortState :=
  match q.tx with
  | some _ => q
  | none =>
    match q.reply with
    | some f => { q with tx := some f, reply := none }
    | none =>
      if q.held.isSome then q
      else
        match q.queue with
        | [] => q
        | f :: rest => { q with tx := some { f with status := if q.gap then 1#8 else 0#8 }, queue := rest, gap := false }

/-- Both transmitters at the end of an event (DESIGN CHOICE, notes/assumptions/8.md). -/
def State.pump (s : State) : State :=
  s.setMpt { s.mpt with cab := s.mpt.cab.pump, service := s.mpt.service.pump }

/-! ### Delayed slots (R213 to R215) -/

/-- How long a DONE slot keeps its result, in ms (R215). -/
def discardMs : Nat := 5000

/-- A work ends: the WORKING slot of its kind, if one is left, becomes DONE with the result; otherwise the result is
lost (R215). At most one work of a kind is on, so at most one slot of the kind is WORKING (R213). -/
def DelayedSlot.finish (d : DelayedSlot) (k : DelayedKind) (result : List Byte) (now : Nat) : DelayedSlot :=
  if d.kind = k ∧ d.state = .working then { d with state := .done result (now + discardMs) } else d

def State.finishWork (s : State) (k : DelayedKind) (result : List Byte) : State :=
  s.setMpt { s.mpt with slots := s.mpt.slots.map (fun o => o.map (fun d => d.finish k result s.now)) }

/-- The lowest-numbered free slot (R213). -/
def Mpt.freeSlot (m : Mpt) : Option (Fin 4) := (List.finRange 4).find? (fun i => m.slots[i].isNone)

/-- The lowest-numbered free slot takes a request, WORKING (R213). -/
def State.takeSlot (s : State) (p : Port) (k : DelayedKind) (body : List Byte) : State :=
  match s.mpt.freeSlot with
  | some i =>
    s.setMpt { s.mpt with slots := s.mpt.slots.set i (some { port := p, kind := k, body := body, state := .working }) }
  | none => s

/-- How many slots are in use (R219). -/
def Mpt.slotsInUse (m : Mpt) : Nat := (m.slots.toList.filter Option.isSome).length

end Sys2Proof.Machine
end

