-- ==== Sys2Proof/Machine/Hold.lean ====
section
/-! DEFINITION. The Hold Line Stage (09_hold_lines): sources and their combination, primary causes, sensing and line faults. -/

namespace Sys2Proof.Machine

/-- The sources in rank order, highest first (R183). -/
def HoldSource.ranked : List HoldSource :=
  [.state, .fault, .cap, .watch 0, .watch 1, .watch 2, .watch 3, .watch 4, .watch 5, .watch 6, .watch 7, .manual]

/-- The latest mask a source has presented (R178). -/
def HoldMasks.get (m : HoldMasks) : HoldSource → LineMask
  | .state => m.state
  | .fault => m.fault
  | .cap => m.cap
  | .watch k => m.watch[k]
  | .manual => m.manual

/-- A presentation replaces the source's previous mask whole (R178). -/
def HoldMasks.put (m : HoldMasks) (src : HoldSource) (mask : LineMask) : HoldMasks :=
  match src with
  | .state => { m with state := mask }
  | .fault => { m with fault := mask }
  | .cap => { m with cap := mask }
  | .watch k => { m with watch := m.watch.set k mask }
  | .manual => { m with manual := mask }

/-- A mask names a line. -/
def names (mask : LineMask) (l : Line) : Bool := mask.getLsbD l.num

/-- The source set of a line, highest source first (R177). -/
def HoldMasks.sources (m : HoldMasks) (l : Line) : List HoldSource :=
  HoldSource.ranked.filter (fun src => names (m.get src) l)

/-- The commanded level of a line, `true` for ACTIVE: while at least one source's latest mask includes it (R178). -/
def HoldMasks.level (m : HoldMasks) (l : Line) : Bool := HoldSource.ranked.any (fun src => names (m.get src) l)

/-- The primary cause of a line: the highest source of its source set (R183). -/
def HoldMasks.cause (m : HoldMasks) (l : Line) : Option HoldSource :=
  HoldSource.ranked.find? (fun src => names (m.get src) l)

/-- The six commanded levels as a mask. -/
def HoldMasks.levels (m : HoldMasks) : LineMask :=
  m.state ||| m.fault ||| m.cap ||| m.watch[0] ||| m.watch[1] ||| m.watch[2] ||| m.watch[3] ||| m.watch[4] |||
    m.watch[5] ||| m.watch[6] ||| m.watch[7] ||| m.manual

/-- A line's source set as the bits of R221. -/
def HoldMasks.sourceBits (m : HoldMasks) (l : Line) : Nat :=
  ((m.sources l).map (fun src => 2 ^ src.bit)).sum

/-- The HOLD_CHANGE body of a line (R184, R222). -/
def holdChangeBody (m : HoldMasks) (l : Line) : List Byte :=
  be1 l.num ++ be1 (levelNum (some (m.level l))) ++ be1 (sourceNum (m.cause l)) ++ be2 (m.sourceBits l)

/-- The HOLD_CHANGE reports of a presentation: one for each line whose level it changed, in line order (R184). -/
def holdChanges (old new : HoldMasks) : List (List Byte) :=
  (Line.all.filter (fun l => old.level l != new.level l)).map (holdChangeBody new)

/-- Reports of one kind queued in the order listed. -/
def State.queueAll (s : State) (r : Report) (bodies : List (List Byte)) : State :=
  bodies.foldl (fun s b => s.queueReport r b) s

/-- A source presents a mask (R178, R184). -/
def present (src : HoldSource) (mask : LineMask) (s : State) : State :=
  let new := s.hls.masks.put src mask
  (s.setHls { s.hls with masks := new }).queueAll .holdChange (holdChanges s.hls.masks new)

/-- The hold outputs as driven: the commanded levels while the machine supply is present (R177). -/
def State.outputs (s : State) : LineMask := if s.powered then s.hls.masks.levels else 0#6

/-! ### Sensing (R185, R186) -/

/-- The lines of a mask. -/
def linesOf (mask : LineMask) : List Line := Line.all.filter (names mask)

/-- One line at a sense expiry: the level sampled and the level commanded (R186). -/
def LineSense.sample (x : LineSense) (observed commanded : Bool) : LineSense :=
  let count := if observed = commanded then 0 else min 3 (x.mismatches + 1)
  { observed := some observed, mismatches := count, fault := x.fault || count == 3 }

/-- All six lines at a sense expiry. -/
def Hls.sample (h : Hls) (levels : LineMask) : Vector LineSense 6 :=
  Vector.ofFn (fun i => (h.sense[i]).sample (levels.getLsbD i) (h.masks.levels.getLsbD i))

/-- The lines that have become faulty between two samplings, in line order (R186). -/
def newFaults (old new : Vector LineSense 6) : List Line :=
  Line.all.filter (fun l => !(old[l.idx]).fault && (new[l.idx]).fault)

/-- The mask the FAULT source presents: ALERT while any motion line is faulty (R182). -/
def faultMask (sense : Vector LineSense 6) : LineMask :=
  if (Line.all.filter (fun l => l ≠ .alert)).any (fun l => (sense[l.idx]).fault) then 0b100000#6 else 0#6

/-- The LINE_FAULT body of a line (R186, R222). -/
def lineFaultBody (h : Hls) (l : Line) : List Byte :=
  be1 l.num ++ be1 (levelNum (some (h.masks.level l))) ++ be1 (levelNum (h.sense[l.idx]).observed)

/-- The six FAULT flags as a mask. -/
def Hls.faultFlags (h : Hls) : LineMask :=
  BitVec.ofNat 6 ((Line.all.map (fun l => bitOf l.num (h.sense[l.idx]).fault)).sum)

/-- A sense expiry with the six levels read back (R185, R186): LINE_FAULT reports in line order, then the FAULT source. -/
def sense (levels : LineMask) (s : State) : State :=
  let new := s.hls.sample levels
  let s1 := s.setHls { s.hls with sense := new }
  let fresh := newFaults s.hls.sense new
  let s2 := s1.queueAll .lineFault (fresh.map (lineFaultBody s1.hls))
  if fresh.any (fun l => l ≠ .alert) then present .fault (faultMask new) s2 else s2

/-- The clearing of the FAULT flags and counts of the marked lines (R188). -/
def clearFaults (marks : LineMask) (s : State) : State :=
  let old := s.hls.sense
  let new := Vector.ofFn (fun i : Fin 6 =>
    if marks.getLsbD i then { old[i] with mismatches := 0, fault := false } else old[i])
  let s1 := s.setHls { s.hls with sense := new }
  if (linesOf marks).any (fun l => l ≠ .alert && (old[l.idx]).fault) then present .fault (faultMask new) s1 else s1

end Sys2Proof.Machine
end

