-- ==== Sys2Proof/Machine/Watch.lean ====
section
/-! DEFINITION. The Watch Table (08_watch_table): comparison, evaluation, firing, chained pairs, the capture record, and the
taking of a written entry. -/

namespace Sys2Proof.Machine

/-! ### Comparison (R160) -/

/-- An entry's condition on a value. A limit pair with A > B wraps for SLEW; WATCH_WRITE lets no other quantity have one. -/
def watchHolds (d : WatchDef) (v : Int) : Bool :=
  match d.mode with
  | .above => d.a ≤ v
  | .below => v ≤ d.a
  | .inside => if d.a ≤ d.b then d.a ≤ v && v ≤ d.b else d.a ≤ v || v ≤ d.b
  | .outside => if d.a ≤ d.b then v < d.a || d.b < v else d.b < v && v < d.a

/-! ### Pairs (R165) -/

/-- The even member of an index's couple. -/
def evenOf (k : Fin 8) : Fin 8 := ⟨k.val / 2 * 2, by omega⟩

/-- The odd member of an index's couple: the acting entry when the couple is a pair. -/
def oddOf (k : Fin 8) : Fin 8 := ⟨k.val / 2 * 2 + 1, by omega⟩

/-- The number of an index's couple. -/
def coupleOf (k : Fin 8) : Fin 4 := ⟨k.val / 2, by omega⟩

/-- The entry is a member of a pair: the even entry of its couple has chain set (R165). -/
def Wt.chained (w : Wt) (k : Fin 8) : Bool := w.entries[evenOf k].d.chain

/-- The pair match state as the two members give it (R165). -/
def Wt.bothMatch (w : Wt) (k : Fin 8) : Bool :=
  let x := w.entries[evenOf k]
  let y := w.entries[oddOf k]
  x.d.enable && x.matching && y.d.enable && y.matching

def Wt.setEntry (w : Wt) (k : Fin 8) (x : WatchEntry) : Wt := { w with entries := w.entries.set k x }

def Wt.setPair (w : Wt) (k : Fin 8) (b : Bool) : Wt := { w with pairs := w.pairs.set (coupleOf k) b }

/-! ### Firing (R163, R169) -/

/-- The capture record filled from a firing of entry k (R168). -/
def Wt.captureOf (w : Wt) (k : Fin 8) (overrun : Bool) : Capture where
  entry := k
  value := (w.entries[k].last).getD 0
  s := w.pose.s
  alpha := w.pose.alpha
  beta := w.pose.beta
  e := w.pose.e
  r := w.pose.r
  h := w.pose.h
  live := w.live
  u := w.u
  lift := w.lift
  tag := w.tag
  overrun := overrun

/-- The CAPTURE_READY body (R169, R222). -/
def captureReadyBody (c : Capture) : List Byte := be1 c.entry.val ++ be1 (bitOf 0 c.overrun)

/-- A CAPTURE firing is offered to the capture record (R169). -/
def offerCapture (k : Fin 8) (s : State) : State :=
  let fill (overrun : Bool) :=
    let c := s.wt.captureOf k overrun
    (s.setWt { s.wt with capture := some c }).queueReport .captureReady (captureReadyBody c)
  match s.wt.capture with
  | none => fill false
  | some c =>
    if k.val < c.entry.val then fill true
    else s.setWt { s.wt with capture := some { c with overrun := true } }

/-- The WATCH body of a firing of entry k (R163, R222). -/
def watchBody (w : Wt) (k : Fin 8) (partner : Option (Fin 8)) (ev : SourceEvent) : List Byte :=
  let x := w.entries[k]
  be1 k.val ++ be1 (match partner with | some p => p.val | none => 0xFF) ++ be1 (quantityNum x.d.quantity) ++ be1 (modeNum x.d.mode) ++
    beBytes 4 (x.last.getD 0) ++ be1 ev.num

/-- The hit flag of an entry is set. -/
def Wt.setHit (w : Wt) (k : Fin 8) : Wt := w.setEntry k { w.entries[k] with hit := true }

/-- The hit flags a firing sets: the acting entry's, and its partner's when it acts for a pair (R163, R165). -/
def Wt.setHits (w : Wt) (k : Fin 8) (partner : Option (Fin 8)) : Wt :=
  match partner with
  | some p => (w.setHit p).setHit k
  | none => w.setHit k

/-- A firing of acting entry k: the hit flags, then the action (R163, R165). -/
def fire (ev : SourceEvent) (k : Fin 8) (partner : Option (Fin 8)) (s : State) : State :=
  let s1 := s.setWt (s.wt.setHits k partner)
  match s.wt.entries[k].d.action with
  | .report => s1.queueReport .watch (watchBody s1.wt k partner ev)
  | .capture => offerCapture k s1
  | .hold => present (.watch k) s.wt.entries[k].d.holdMask s1

/-- The HOLD request of acting entry k is withdrawn (R164, R166). -/
def withdraw (k : Fin 8) (s : State) : State :=
  if s.wt.entries[k].d.action = .hold then present (.watch k) 0#6 s else s

/-- After the judgement of entry k, whose match state was `was`: its own edge, or its pair's (R161, R163 to R166). -/
def judgeEdge (ev : SourceEvent) (k : Fin 8) (was : Bool) (s : State) : State :=
  if s.wt.chained k then
    let old := s.wt.pairs[coupleOf k]
    let new := s.wt.bothMatch k
    let s1 := s.setWt (s.wt.setPair k new)
    if new && !old then fire ev (oddOf k) (some (evenOf k)) s1
    else if old && !new then withdraw (oddOf k) s1
    else s1
  else
    let is := s.wt.entries[k].matching
    if is && !was then fire ev k none s
    else if was && !is then withdraw k s
    else s

/-! ### Evaluation (R161, R162) -/

/-- An entry as a valid value judges it (R161). -/
def WatchEntry.judged (x : WatchEntry) (v : Int) : WatchEntry := { x with matching := watchHolds x.d v, last := some v }

/-- One entry at a source event that carries the values `vals` gives; `none` for a quantity the event does not concern.
An invalid value keeps the match state and the last value (R161). -/
def evalEntry (ev : SourceEvent) (vals : Quantity → Option Marked) (s : State) (k : Fin 8) : State :=
  let x := s.wt.entries[k]
  if x.d.enable then
    match vals x.d.quantity with
    | none => s
    | some m => judgeEdge ev k x.matching (if m.ok then s.setWt (s.wt.setEntry k (x.judged m.val)) else s)
  else s

/-- A source event: every enabled entry whose quantity it concerns, in index order. No entry is judged before the entries
are made (R161, R176). -/
def watchEvaluate (ev : SourceEvent) (vals : Quantity → Option Marked) (s : State) : State :=
  if s.wt.made then (List.finRange 8).foldl (evalEntry ev vals) s else s

/-- The live mass hand-over as WT takes it (R159). -/
def wtLive (m : Marked) (s : State) : State :=
  watchEvaluate .liveMass (fun q => if q = .liveMass then some m else none) (s.setWt { s.wt with live := m })

/-- The quantities of a pose update (R159). -/
def poseVals (p : Pose) : Quantity → Option Marked
  | .reach => some { val := p.r.val, ok := p.valid }
  | .height => some { val := p.h.val, ok := p.valid }
  | .slew => some p.s
  | .downhill => some p.t
  | _ => none

/-- A pose update as WT takes it (R159). -/
def wtPose (p : Pose) (s : State) : State :=
  watchEvaluate .poseUpdate (poseVals p) (s.setWt { s.wt with pose := p })

/-- An evaluation of CPM as WT takes it (R149, R159). -/
def wtUtil (u : Marked) (s : State) : State :=
  watchEvaluate .cpmEvaluation (fun q => if q = .util then some u else none) (s.setWt { s.wt with u := u })

/-- A changed bunk total as WT takes it (R132, R159). -/
def wtBunk (total : Nat) (s : State) : State :=
  watchEvaluate .bunkTotal (fun q => if q = .bunkTotal then some { val := total, ok := true } else none) s

/-- One entry at the reset of the LIFT_MASS match states (R162). -/
def resetLiftMass (s : State) (k : Fin 8) : State :=
  let x := s.wt.entries[k]
  if x.d.quantity = .liftMass then
    judgeEdge .weighed k x.matching (s.setWt (s.wt.setEntry k { x with matching := false }))
  else s

/-- A change of the lift state as WT takes it, with the lift tag and, into WEIGHED, the result M (R64, R159, R162, R168). At the
change OPEN to GRIPPED the entries are reset in index order (DESIGN CHOICE, notes/assumptions/39.md). -/
def wtLift (old new : LiftState) (tag : Option Nat) (mass : Option Nat) (s : State) : State :=
  let s1 := s.setWt { s.wt with lift := new, tag := tag }
  let s2 := if old = .open_ ∧ new = .gripped then (List.finRange 8).foldl resetLiftMass s1 else s1
  match new, mass with
  | .weighed, some m =>
    watchEvaluate .weighed (fun q => if q = .liftMass then some { val := m, ok := true } else none) s2
  | _, _ => s2

/-! ### The entries at a start (R176) -/

/-- The definition an index starts with: the image's LOCKED entry, else the retained OPEN entry, else the default. -/
def startDef (locked : Option WatchDef) (retained : WatchDef) : WatchDef :=
  match locked with
  | some d => d
  | none => if retained.owner = .open_ then retained else defaultWatchDef

/-- An OPEN even entry with chain set loses it when the entry after it is LOCKED (R176). -/
def unchain (es : Vector WatchEntry 8) : Vector WatchEntry 8 :=
  Vector.ofFn (fun i : Fin 8 =>
    let x := es[i]
    if i.val % 2 = 0 ∧ x.d.owner = .open_ ∧ x.d.chain ∧ es[oddOf i].d.owner = .locked then
      { x with d := { x.d with chain := false } }
    else x)

/-- WT makes its entries when the settings are installed; `locked` is what a good image holds at each index (R176).
At a cold start no OPEN entry is retained: the reset has cleared them. -/
def makeEntries (locked : Vector (Option WatchDef) 8) (s : State) : State :=
  let es := unchain (Vector.ofFn (fun i : Fin 8 => WatchEntry.of (startDef locked[i] s.wt.entries[i].d)))
  let s1 := s.setWt { Wt.reset with made := true, entries := es }
  (List.finRange 8).foldl (fun s k => present (.watch k) 0#6 s) s1

/-! ### Writing (R171 to R173) -/

/-- The write of entry k would leave an OPEN even entry with chain set and a LOCKED entry after it (R172, row 5). -/
def Wt.wouldConflict (w : Wt) (k : Fin 8) (d : WatchDef) : Bool :=
  if k.val % 2 = 0 then d.owner == .open_ && d.chain && w.entries[oddOf k].d.owner == .locked
  else d.owner == .locked && w.entries[evenOf k].d.owner == .open_ && w.entries[evenOf k].d.chain

/-- A taken WATCH_WRITE of entry k (R173). A write that withdraws two sources withdraws entry k's first and entry k + 1's after it,
an order that R173 and R178 leave open (DESIGN CHOICE, notes/assumptions/44.md). -/
def takeWatchWrite (k : Fin 8) (d : WatchDef) (s : State) : State :=
  let before := s.wt.entries[k].d.chain
  let s1 := present (.watch k) 0#6 (s.setWt (s.wt.setEntry k (.of d)))
  if k.val % 2 = 0 then
    let s2 := if before || d.chain then present (.watch (oddOf k)) 0#6 (s1.setWt (s1.wt.setPair k false)) else s1
    if before ≠ d.chain then
      s2.setWt (s2.wt.setEntry (oddOf k) { s2.wt.entries[oddOf k] with matching := false })
    else s2
  else if s.wt.entries[evenOf k].d.chain then s1.setWt (s1.wt.setPair k false)
  else s1

end Sys2Proof.Machine
end

