-- ==== Sys2Proof/Machine/Capacity.lean ====
section
/-! DEFINITION. The Capacity Monitor (07_capacity_chart_and_load_moment): chart lookup, derating, utilisation, monitor states,
what an evaluation hands on, and the recovery permit. -/

namespace Sys2Proof.Machine

/-! ### The chart (R137) -/

/-- What a chart lookup gives: page, capacity, the derate mark used, and the override slot that gave the capacity. -/
structure Lookup where
  page   : Nat
  cap    : Nat
  derate : Bool
  ovUsed : Option (Fin 3)
  deriving DecidableEq, Repr

/-- The lowest-numbered enabled override slot that names a page (R137, R138). -/
def overrideFor (ovs : Vector Override 3) (page : Nat) : Option (Fin 3) :=
  (List.finRange 3).find? (fun i => ovs[i].enable && ovs[i].page == page)

/-- The lookup for a reach (R137). -/
def chartLookup (cap : CapParams) (ovs : Vector Override 3) (r : Nat) : Lookup :=
  let p := r / cap.pageSize
  if h : p < 64 then
    let entry := cap.chart[p]
    if entry.valid then
      match overrideFor ovs p with
      | some i => { page := p, cap := ovs[i].value, derate := entry.derate, ovUsed := some i }
      | none => { page := p, cap := entry.cap, derate := entry.derate, ovUsed := none }
    else { page := p, cap := 0, derate := false, ovUsed := none }
  else { page := p, cap := 0, derate := false, ovUsed := none }

/-! ### Derating and utilisation (R144, R145) -/

/-- The derate factor F (R144). -/
def derateFactor (cfg : Settings) (derate : Bool) (t : Marked) : Nat :=
  if !cfg.sw.sectorDerate || !derate then 1024
  else if !t.ok then cfg.cap.fMin
  else if t.val ≤ 0 then 1024
  else max cfg.cap.fMin (1024 - truncDiv (t.val * cfg.cap.k) 10).toNat

/-- The effective capacity (R145). -/
def effectiveCap (cap f : Nat) : Nat := cap * f / 1024

/-- Utilisation from the live mass and the effective capacity (R145). -/
def utilisation (mLive : Int) (cEff : Nat) : Nat :=
  if mLive ≤ 0 then 0
  else if cEff = 0 then 9999
  else min 9999 (ceilDiv (mLive * 1000) cEff).toNat

/-! ### The monitor state (R146) -/

/-- The state after an evaluation with both inputs valid in CARRYING or WEIGHED (R146). -/
def nextMonitor (cap : CapParams) (before : Monitor) (u : Nat) : Monitor :=
  match before with
  | .normal | .blind => if cap.uHold ≤ u then .hold else if cap.uWarn ≤ u then .warn else .normal
  | .warn => if cap.uHold ≤ u then .hold else if u < cap.uWarn - 50 then .normal else .warn
  | .hold => if u < cap.uWarn - 50 then .normal else if u ≤ cap.uRel then .warn else .hold

/-- The chart figures of an evaluation: formed with a valid pose, held and marked invalid without one (R143). -/
def Cpm.formFigures (cfg : Settings) (c : Cpm) : Cpm :=
  if c.poseCopy.valid then
    let l := chartLookup cfg.cap c.overrides c.poseCopy.r.val.toNat
    let f := derateFactor cfg l.derate c.poseCopy.t
    { c with page := l.page, f := f, cEff := effectiveCap l.cap f, figOk := true, ovUsed := l.ovUsed }
  else { c with figOk := false }

/-- U and the monitor state of an evaluation, by the lift state copy (R143, R147). -/
def Cpm.formState (cfg : Settings) (c : Cpm) : Cpm :=
  let seen := c.liveCopy.ok && c.poseCopy.valid
  match c.liftCopy with
  | .open_ => { c with u := 0, uOk := true, monitor := .normal }
  | .gripped =>
    if seen then { c with u := 0, uOk := true, monitor := .normal } else { c with u := 0, uOk := false, monitor := .blind }
  | .carrying | .weighed =>
    if seen then
      let u := utilisation c.liveCopy.val c.cEff
      { c with u := u, uOk := true, monitor := nextMonitor cfg.cap c.monitor u }
    else { c with uOk := false, monitor := .blind }

/-- CPM after an evaluation; a running permit does not outlive HOLD (R143, R153). -/
def Cpm.evaluated (cfg : Settings) (c : Cpm) : Cpm :=
  let c1 := (c.formFigures cfg).formState cfg
  if c1.monitor = .hold then c1 else { c1 with permit := none }

/-! ### What an evaluation hands on (R149 to R151, R153) -/

/-- The lines CPM requests (R150). -/
def capMask (m : Monitor) (permit : Bool) : LineMask :=
  match m, permit with
  | .normal, _ => 0#6
  | .warn, _ => 0b100000#6
  | .hold, false => 0b100111#6
  | .hold, true => 0b100011#6
  | .blind, _ => 0b100111#6

def Cpm.mask (c : Cpm) : LineMask := capMask c.monitor c.permit.isSome

/-- U as an evaluation hands it on. -/
def Cpm.uMarked (c : Cpm) : Marked := { val := c.u, ok := c.uOk }

/-- The CAPACITY body (R151, R222). -/
def capacityBody (before : Monitor) (c : Cpm) : List Byte :=
  be1 c.monitor.num ++ be1 before.num ++ be2 c.u ++ be2 c.cEff ++ be1 c.page ++
    be1 (bitOf 0 c.uOk + bitOf 1 c.figOk + bitOf 2 c.figOk) ++ be1 c.poseCopy.sector.num

/-- The cause a PERMIT_END carries when an evaluation ends the permit (R153). -/
def Cpm.endCause (c : Cpm) : PermitCause := if c.liftCopy = .open_ then .opened else .leftHold

/-- The reports of an evaluation: CAPACITY at a change of state, then PERMIT_END at an end of the permit (R149). -/
def evalReports (old new : Cpm) (s : State) : State :=
  let s1 := if old.monitor ≠ new.monitor then s.queueReport .capacity (capacityBody old.monitor new) else s
  if old.permit.isSome && new.permit.isNone then s1.queueReport .permitEnd (be1 new.endCause.num) else s1

/-- WGE takes a handed U into the peak of a lift in CARRYING or WEIGHED (R85). -/
def wgeUtil (u : Nat) (s : State) : State :=
  match s.wge.lift with
  | some l =>
    if l.stage = .gripped then s else s.setWge { s.wge with lift := some { l with peakU := max l.peakU u } }
  | none => s

/-- The mask of an evaluation, presented when it has changed (R149, R150). -/
def presentCap (old new : Cpm) (s : State) : State :=
  if old.mask ≠ new.mask then present .cap new.mask s else s

/-- What the evaluation that took CPM from `old` to `new` hands on; the receivers need no order (R149). -/
def handOnEvaluation (old new : Cpm) : State → State :=
  runAny [wgeUtil new.u, wtUtil new.uMarked, evalReports old new, presentCap old new]

/-- CPM evaluates, whole, as one event (R142). -/
def cpmEvaluate (s : State) : State :=
  let new := s.cpm.evaluated s.cfg
  handOnEvaluation s.cpm new (s.setCpm new)

/-- CPM evaluates with some of its own state replaced first, its state before the evaluation being the old one (R142). -/
def cpmTake (change : Cpm → Cpm) (s : State) : State := cpmEvaluate (s.setCpm (change s.cpm))

/-- A change of the lift state, a hand-over of the live mass, and a pose update, as CPM takes them (R142). -/
def cpmLift (l : LiftState) (s : State) : State := cpmTake (fun c => { c with liftCopy := l }) s
def cpmLive (m : Marked) (s : State) : State := cpmTake (fun c => { c with liveCopy := m }) s
def cpmPose (p : Pose) (s : State) : State := cpmTake (fun c => { c with poseCopy := p }) s

/-- The clearing of the override slots on leaving SERVICE, and its evaluation (R138). -/
def clearOverrides (s : State) : State := cpmTake (fun c => { c with overrides := Vector.replicate 3 .clear }) s

/-! ### The recovery permit (R152, R153) -/

/-- The permit starts: its timer, and the mask without LOWER (R152). -/
def startPermit (s : State) : State :=
  let new := { s.cpm with permit := some (s.now + s.cfg.cap.permitS * 1000) }
  presentCap s.cpm new (s.setCpm new)

/-- The permit expires in HOLD: LOWER is requested again and PERMIT_END EXPIRED is queued (R153). -/
def expirePermit (s : State) : State :=
  let new := { s.cpm with permit := none }
  runAny [fun s => s.queueReport .permitEnd (be1 PermitCause.expired.num), presentCap s.cpm new] (s.setCpm new)

end Sys2Proof.Machine
end

