-- ==== Sys2Proof/Machine/Pose.lean ====
section
/-! DEFINITION. The Pose Unit (03_crane_pose): the fields of the pose record, rates, recomputation and the pose update. -/

namespace Sys2Proof.Machine

/-! ### What POS reads of the sensor bus controller -/

/-- The entry of a listed role: one whose enable is set (R15). -/
def Sbc.listedEntry (b : Sbc) (r : Role) : Option Entry := b.entries.find? (fun e => e.pd.role == r && e.pd.enable)

/-- A role is listed (R15). -/
def Sbc.listed (b : Sbc) (r : Role) : Bool := (b.listedEntry r).isSome

/-- The held value of a role, if its slot holds one (R29). -/
def Sbc.heldValue (b : Sbc) (r : Role) : Option Int := ((b.listedEntry r).bind (·.slot)).map (·.value)

/-! ### Fields (R44, R46 to R52) -/

/-- A field taken from an input: the held value while the role is fresh, else the previous one marked invalid (R46, R52). A
role with no held value is stale whatever mark was delivered last: it is absent (R15, R42), or its entry is new (R17;
notes/assumptions/31.md). -/
def takeInput (fresh : Bool) (held : Option Int) (old : Marked) : Marked :=
  match fresh, held with
  | true, some v => { val := v, ok := true }
  | _, _ => { old with ok := false }

/-- A formed field: new where its operands are valid, else the previous one marked invalid (R44). -/
def formField (ok : Bool) (new : Int) (old : Marked) : Marked := if ok then { val := new, ok := true } else { old with ok := false }

/-- The extension in use and the tele-clamped flag, by the listing of TELE (R47). -/
def formExtension (listed fresh : Bool) (held : Option Int) (teleMax : Nat) (old : Marked) (oldClamp : Bool) :
    Marked × Bool :=
  if !listed then ({ val := 0, ok := true }, false)
  else
    match fresh, held with
    | true, some v => if v ≤ teleMax then ({ val := v, ok := true }, false) else ({ val := teleMax, ok := true }, true)
    | _, _ => ({ old with ok := false }, oldClamp)

/-- The rounded reach before its clamp (R48). -/
def reachRaw (g : Geometry) (alpha gamma e : Int) : Int :=
  roundDiv (g.l1 * cosT alpha + (g.l2 + e) * cosT gamma) 16384

/-- The tip height (R48). -/
def heightOf (g : Geometry) (alpha gamma e : Int) : Int :=
  g.column + roundDiv (g.l1 * sinT alpha + (g.l2 + e) * sinT gamma) 16384

/-- s lies in the bunk's slew band, which wraps when its low end exceeds its high end (R50). -/
def inSlewBand (z : Zones) (s : Int) : Bool :=
  if z.slewLo ≤ z.slewHi then (z.slewLo : Int) ≤ s && s ≤ z.slewHi else (z.slewLo : Int) ≤ s || s ≤ z.slewHi

/-- r lies in the bunk's reach band (R50). -/
def inReachBand (z : Zones) (r : Int) : Bool := (z.reachLo : Int) ≤ r && r ≤ z.reachHi

/-- The zone of a pose (R50). -/
def zoneOf (z : Zones) (valid : Bool) (s r : Int) : Zone :=
  if !valid then .unknown else if inSlewBand z s && inReachBand z r then .bunk else .field_

/-- The quadrant in which s lies (R51). -/
def sectorOf (s : Int) : Sector :=
  if s < 450 then .front else if s < 1350 then .left else if s < 2250 then .rear else if s < 3150 then .right else .front

/-- The pitch and the roll of a held TILT value (R14, R52). -/
def pitchOf (v : Int) : Int := ((BitVec.ofInt 24 v).extractLsb' 12 12).toInt
def rollOf (v : Int) : Int := ((BitVec.ofInt 24 v).extractLsb' 0 12).toInt

/-- The downhill component by the sector (R52). -/
def downhillOf (sector : Sector) (pitch roll : Int) : Int :=
  match sector with
  | .front => -pitch
  | .rear => pitch
  | .right => roll
  | .left => -roll

/-! ### Recomputation (R44) -/

/-- The pose record formed whole from the inputs, the settings and the record before it (R44, steps 2 to 9). -/
def Pos.formPose (p : Pos) (b : Sbc) (cfg : Settings) : Pose :=
  let old := p.pose
  let g := cfg.geo
  let s := takeInput p.fresh.slew ((b.heldValue .slew).map (fun v => modInt (v + g.slewOff) 3600)) old.s
  let alpha := takeInput p.fresh.main (b.heldValue .main) old.alpha
  let beta := takeInput p.fresh.outer (b.heldValue .outer) old.beta
  let (e, teleClamped) :=
    formExtension (b.listed .tele) p.fresh.tele (b.heldValue .tele) g.teleMax old.e old.teleClamped
  let pitch := takeInput p.fresh.tilt ((b.heldValue .tilt).map pitchOf) old.pitch
  let roll := takeInput p.fresh.tilt ((b.heldValue .tilt).map rollOf) old.roll
  let gamma := formField (alpha.ok && beta.ok) (alpha.val + beta.val - 1800) old.gamma
  let valid := s.ok && alpha.ok && beta.ok && e.ok
  let raw := reachRaw g alpha.val gamma.val e.val
  let r := formField valid (saturate 0 20000 raw) old.r
  let sector := if s.ok then sectorOf s.val else old.sector
  { s := s
    alpha := alpha
    beta := beta
    e := e
    gamma := gamma
    r := r
    h := formField valid (heightOf g alpha.val gamma.val e.val) old.h
    pitch := pitch
    roll := roll
    t := formField (pitch.ok && roll.ok && s.ok) (downhillOf sector pitch.val roll.val) old.t
    slewRate := formField valid ((p.slewMem.map (·.rate)).getD old.slewRate.val) old.slewRate
    mainRate := formField valid ((p.mainMem.map (·.rate)).getD old.mainRate.val) old.mainRate
    zone := zoneOf cfg.zones valid s.val r.val
    sector := sector
    valid := valid
    reachClamped := if valid then decide (raw < 0 ∨ 20000 < raw) else old.reachClamped
    teleClamped := teleClamped }

/-- The pose update as its receivers take it. WGE acts on none: it reads the record at its own events (R43, R65). -/
def poseUpdate (s : State) : State := runAny [cpmPose s.pos.pose, wtPose s.pos.pose] s

/-- One recomputation, which ends in one pose update (R43, R44). -/
def recompute (s : State) : State := poseUpdate (s.setPos { s.pos with pose := s.pos.formPose s.sbc s.cfg })

/-! ### Rates (R53, R54) -/

/-- A rate memory takes a sample. A returning sample, or the first, sets the rate to 0 (R54); a plain one forms it from
the difference that `diff` gives of the kept and the new value (R53). -/
def takeRate (diff : Int → Int → Int) (mem : Option RateMem) (returning : Bool) (v : Int) (time : Nat) : RateMem :=
  match mem, returning with
  | some m, false =>
    let dt := max 1 (time - m.time)
    { value := v, time := time, rate := saturate (-32768) 32767 (truncDiv (diff m.value v * 1000) dt) }
  | _, _ => { value := v, time := time, rate := 0 }

def plainDiff (a b : Int) : Int := b - a

/-! ### Events at POS (R43) -/

/-- The freshness of one input set as a delivered mark gives it; LINK and GRIP are no inputs of POS. -/
def Freshness.set (f : Freshness) (r : Role) (b : Bool) : Freshness :=
  match r with
  | .slew => { f with slew := b }
  | .main => { f with main := b }
  | .outer => { f with outer := b }
  | .tele => { f with tele := b }
  | .tilt => { f with tilt := b }
  | .link | .grip => f

/-- The rate memories at an arrival (R44, step 1). -/
def Pos.takeSample (p : Pos) (r : Role) (returning : Bool) (x : Sample) : Pos :=
  let p1 := { p with fresh := p.fresh.set r true }
  match r with
  | .slew => { p1 with slewMem := some (takeRate shortestDiff p.slewMem returning x.value x.time) }
  | .main => { p1 with mainMem := some (takeRate plainDiff p.mainMem returning x.value x.time) }
  | _ => p1

/-- An arrival of SLEW, MAIN, OUTER, TELE or TILT (R43). -/
def poseArrival (r : Role) (returning : Bool) (x : Sample) (s : State) : State :=
  recompute (s.setPos (s.pos.takeSample r returning x))

/-- The rate memory of a role gone stale is emptied (R54). -/
def Pos.takeStale (p : Pos) (r : Role) : Pos :=
  let p1 := { p with fresh := p.fresh.set r false }
  match r with
  | .slew => { p1 with slewMem := none }
  | .main => { p1 with mainMem := none }
  | _ => p1

/-- A stale event of SLEW, MAIN, OUTER, TELE or TILT (R43). -/
def poseStale (r : Role) (s : State) : State := recompute (s.setPos (s.pos.takeStale r))

end Sys2Proof.Machine
end

