-- ==== Sys2Proof/Machine/Tally.lean ====
section
/-! DEFINITION. The Tally Unit (06_tally_lift_log_and_trips): the assortment table, applying an ADD or a REMOVE, the lift
log, trips and their history, corrections and totals. -/

namespace Sys2Proof.Machine

/-! ### Saturating figures (R110) -/

/-- The saturation limit of a tally mass, 0.1 kg (R2). -/
def massMax : Nat := 2147483647

/-- The saturation limit of a tally count (R2). -/
def countMax : Nat := 999999

def addMass (a b : Nat) : Nat := min massMax (a + b)
def addCount (a b : Nat) : Nat := min countMax (a + b)

/-- An addition saturates when its exact result exceeds the limit. -/
def massOver (a b : Nat) : Bool := massMax < a + b
def countOver (a b : Nat) : Bool := countMax < a + b

/-- An ADD of mass m in its slot (R116). -/
def AsnSlot.add (x : AsnSlot) (m : Nat) : AsnSlot :=
  { x with
    loadedCount := addCount x.loadedCount 1
    bunkCount := addCount x.bunkCount 1
    loadedMass := addMass x.loadedMass m
    bunkMass := addMass x.bunkMass m
    saturated := x.saturated || countOver x.loadedCount 1 || countOver x.bunkCount 1 || massOver x.loadedMass m ||
      massOver x.bunkMass m }

/-- How a REMOVE splits (R117). -/
structure Split where
  taken      : Nat
  excess     : Nat
  countTaken : Bool
  deriving DecidableEq, Repr

def AsnSlot.split (x : AsnSlot) (m : Nat) : Split where
  taken := min m x.bunkMass
  excess := m - min m x.bunkMass
  countTaken := decide (0 < x.bunkCount)

/-- A REMOVE in its slot, split as given (R117). -/
def AsnSlot.remove (x : AsnSlot) (p : Split) : AsnSlot :=
  let y := { x with
    bunkMass := x.bunkMass - p.taken
    removedMass := addMass x.removedMass p.taken
    excessMass := addMass x.excessMass p.excess
    saturated := x.saturated || massOver x.removedMass p.taken || massOver x.excessMass p.excess }
  if p.countTaken then
    { y with
      bunkCount := x.bunkCount - 1
      removedCount := addCount x.removedCount 1
      saturated := y.saturated || countOver x.removedCount 1 }
  else
    { y with excessCount := addCount x.excessCount 1, saturated := y.saturated || countOver x.excessCount 1 }

/-! ### The table (R109) -/

/-- The slot that holds an id, if the id is defined (R109). -/
def Tlu.slotOf (t : Tlu) (id : Nat) : Option (Fin 16) :=
  (List.finRange 16).find? (fun i => match t.table[i] with | some x => x.id == id | none => false)

def Tlu.defined (t : Tlu) (id : Nat) : Bool := (t.slotOf id).isSome

/-- The figures of an id; those of a fresh slot where it is not defined. -/
def Tlu.figures (t : Tlu) (id : Nat) : AsnSlot :=
  match t.slotOf id with
  | some i => (t.table[i]).getD (.fresh id)
  | none => .fresh id

/-- The slot of an id takes new figures. -/
def Tlu.update (t : Tlu) (id : Nat) (x : AsnSlot) : Tlu :=
  match t.slotOf id with
  | some i => { t with table := t.table.set i (some x) }
  | none => t

/-- The slots that hold an id, in slot order. -/
def Tlu.slots (t : Tlu) : List AsnSlot := t.table.toList.filterMap id

/-- The bunk total (R132). -/
def Tlu.bunkTotal (t : Tlu) : Nat := min massMax ((t.slots.map (·.bunkMass)).sum)

/-- Every defined slot has bunk mass 0 and bunk count 0 (R123). -/
def Tlu.bunkEmpty (t : Tlu) : Bool := t.slots.all (fun x => x.bunkMass == 0 && x.bunkCount == 0)

/-! ### The trip (R122 to R125) -/

def Trip.open? (t : Trip) : Bool := t.state ≠ .empty

/-- The number of the open trip, if one is open (R122). -/
def Trip.current (t : Trip) : Option Nat := if t.open? then some t.number else none

/-- The entry of an id is touched: changed where it is listed, else added at the end and changed (R124). -/
def touchEntry (list : List TripEntry) (id : Nat) (change : TripEntry → TripEntry) : List TripEntry :=
  if list.any (fun e => e.id == id) then list.map (fun e => if e.id == id then change e else e)
  else list ++ [change { id := id, loadedCount := 0, loadedMass := 0, removedCount := 0, removedMass := 0 }]

def TripEntry.add (m : Nat) (e : TripEntry) : TripEntry :=
  { e with loadedCount := addCount e.loadedCount 1, loadedMass := addMass e.loadedMass m }

def TripEntry.remove (p : Split) (e : TripEntry) : TripEntry :=
  { e with
    removedMass := addMass e.removedMass p.taken
    removedCount := if p.countTaken then addCount e.removedCount 1 else e.removedCount }

/-- The last lift becomes the lift just applied (R124). -/
def Trip.applied (t : Trip) (lift : Nat) : Trip :=
  { t with lifts := some ((t.lifts.map Prod.fst).getD lift, lift) }

/-- A trip opens with an ADD (R123). -/
def Trip.opened (t : Trip) (lift : Nat) : Trip where
  number := if t.number ≥ 9999 then 1 else t.number + 1
  state := .loading
  list := []
  lifts := some (lift, lift)
  writtenOff := 0
  cause := none

/-- The trip at an applied ADD (R123, R124). -/
def Trip.add (t : Trip) (id m lift : Nat) : Trip :=
  let t1 := if t.open? then t else t.opened lift
  { t1.applied lift with list := touchEntry t1.list id (.add m) }

/-- The trip at an applied REMOVE; with no trip open it is left as it stands (R123, R124). -/
def Trip.remove (t : Trip) (id : Nat) (p : Split) (lift : Nat) : Trip :=
  if t.open? then { t.applied lift with state := .unloading, list := touchEntry t.list id (.remove p) } else t

/-- The last `n` members of a list. -/
def lastN {α : Type} (n : Nat) (l : List α) : List α := l.drop (l.length - n)

/-- The trip closes and its record joins the history as the newest of at most 8 (R125, R127). -/
def Tlu.close (t : Tlu) (cause : CloseCause) : Tlu :=
  let trip := { t.trip with state := .empty, cause := some cause }
  { t with trip := trip, history := lastN 8 (t.history ++ [trip]) }

/-! ### Applying an outcome (R116, R117, R123, R124) -/

/-- What applying an ADD or a REMOVE gives: the table and trip after it, the split of a REMOVE, the record's trip number,
and whether the trip closed. -/
structure Applied where
  tlu    : Tlu
  split  : Split
  trip   : Option Nat
  closed : Bool
  deriving DecidableEq, Repr

def Split.zero : Split where
  taken := 0
  excess := 0
  countTaken := false

/-- An ADD of mass m to assortment `id` by lift `lift` (R116, R123, R124). -/
def Tlu.applyAdd (t : Tlu) (id m lift : Nat) : Applied :=
  let t1 := { t.update id ((t.figures id).add m) with trip := t.trip.add id m lift }
  { tlu := t1, split := .zero, trip := t1.trip.current, closed := false }

/-- A REMOVE of mass m from assortment `id` by lift `lift` (R117, R123, R124); it closes the trip with cause EMPTIED when
it leaves the bunk empty within a trip (R123, R125). -/
def Tlu.applyRemove (t : Tlu) (id m lift : Nat) : Applied :=
  let p := (t.figures id).split m
  let t1 := { t.update id ((t.figures id).remove p) with trip := t.trip.remove id p lift }
  let closes := t.trip.open? && t1.bunkEmpty
  { tlu := if closes then t1.close .emptied else t1, split := p, trip := t.trip.current, closed := closes }

/-- A lift whose outcome changes no figure carries the open trip's number (R118, R123). -/
def Tlu.applyNothing (t : Tlu) : Applied where
  tlu := t
  split := .zero
  trip := t.trip.current
  closed := false

/-- The outcome of a lift applied (R114, steps 3 and 4). -/
def Tlu.apply (t : Tlu) (outcome : LiftOutcome) (id : Nat) (mass : Option Nat) (lift : Nat) : Applied :=
  match outcome, mass with
  | .add, some m => t.applyAdd id m lift
  | .remove, some m => t.applyRemove id m lift
  | _, _ => t.applyNothing

/-! ### Records as bytes (R221) -/

def LiftFlags.bits (f : LiftFlags) : Nat :=
  bitOf 0 f.short + bitOf 1 f.restarted + bitOf 2 f.clipped + bitOf 3 f.zeroSuspect + bitOf 4 f.sensorGap

/-- The 24 bytes of a lift record (R221). -/
def liftRecordBytes (r : LogRecord) : List Byte :=
  be2 r.number ++ be1 r.asn ++ be1 r.origin.num ++ be1 r.dest.num ++ be1 r.outcome.num ++
    be1 (bitOf 0 r.mass.isSome + bitOf 1 r.countTaken + bitOf 2 r.trip.isSome + bitOf 3 r.reach.ok + bitOf 4 r.slew.ok) ++
    be2 (r.mass.getD 0) ++ be2 r.taken ++ be2 r.excess ++ be2 r.n ++
    be1 (r.flags.bits + bitOf 5 r.voided + bitOf 6 r.assigned) ++
    be2 r.peakU ++ beBytes 2 r.reach.val ++ beBytes 2 r.slew.val ++ be2 (r.trip.getD 0)

/-- The 17 bytes of a trip list entry (R221). -/
def tripEntryBytes (e : TripEntry) : List Byte :=
  be1 e.id ++ be4 e.loadedCount ++ be4 e.loadedMass ++ be4 e.removedCount ++ be4 e.removedMass

/-- How many parts a trip record travels in (R211). A record with an empty list counts one part, which R211 does not state
(DESIGN CHOICE, notes/assumptions/43.md). -/
def Trip.parts (t : Trip) : Nat := if t.list.length ≤ 8 then 1 else 2

/-- One part of a trip record, 1 or 2 (R211, R221). -/
def tripRecordBytes (t : Trip) (part : Nat) : List Byte :=
  let entries := (t.list.drop (8 * (part - 1))).take 8
  be2 t.number ++ be1 t.state.num ++ be1 (causeNum t.cause) ++ be1 (bitOf 0 t.lifts.isSome) ++
    be2 ((t.lifts.map Prod.fst).getD 0) ++ be2 ((t.lifts.map Prod.snd).getD 0) ++ be4 t.writtenOff ++
    be1 part ++ be1 t.parts ++ be1 entries.length ++ (entries.map tripEntryBytes).flatten

/-- The TRIP_CLOSED report of a close: one frame, or two for a list of 9 to 16 entries (R125, R211). -/
def reportTripClosed (t : Trip) (s : State) : State :=
  let s1 := s.queueReport .tripClosed (tripRecordBytes t 1)
  if t.parts = 2 then s1.queueReport .tripClosed (tripRecordBytes t 2) else s1

/-! ### Taking a completed lift (R114) -/

/-- The next lift number after n (R115). -/
def liftAfter (n : Nat) : Nat := if n ≥ 65535 then 1 else n + 1

/-- The record of a completed lift (R119). -/
def recordOf (c : CompletedLift) (number asn : Nat) (a : Applied) : LogRecord where
  number := number
  asn := asn
  origin := c.origin
  dest := c.dest
  outcome := c.outcome
  mass := c.mass
  taken := a.split.taken
  excess := a.split.excess
  countTaken := a.split.countTaken
  n := c.n
  flags := c.flags
  voided := false
  assigned := false
  peakU := c.peakU
  reach := c.reach
  slew := c.slew
  trip := a.trip

/-- What a hand-over makes: TLU after it, the new record, and whether the trip closed. -/
structure HandOver where
  tlu    : Tlu
  record : LogRecord
  closed : Bool
  deriving DecidableEq, Repr

/-- Steps 1 to 6 of R114. -/
def Tlu.handOver (t : Tlu) (c : CompletedLift) : HandOver :=
  let asn := if t.defined c.tag then c.tag else 0
  let a := t.apply c.outcome asn c.mass t.nextLift
  let rec_ := recordOf c t.nextLift asn a
  { tlu := { a.tlu with nextLift := liftAfter t.nextLift, log := lastN 64 (t.log ++ [rec_]) }
    record := rec_
    closed := a.closed }

/-- A bunk total that differs from its value before the event is handed to WT (R132). -/
def handBunkTotal (before : Nat) (s : State) : State :=
  if s.tlu.bunkTotal ≠ before then wtBunk s.tlu.bunkTotal s else s

/-- A completed lift is taken, whole (R114). -/
def takeCompletedLift (c : CompletedLift) (s : State) : State :=
  let h := s.tlu.handOver c
  let s1 := (s.setTlu h.tlu).queueReport .liftDone (liftRecordBytes h.record)
  let s2 := if h.closed then reportTripClosed h.tlu.trip s1 else s1
  handBunkTotal s.tlu.bunkTotal s2

/-! ### Assortments (R111 to R113) -/

/-- The lowest-numbered free slot among 1..15 (R112). -/
def Tlu.freeSlot (t : Tlu) : Option (Fin 16) :=
  (List.finRange 16).find? (fun i => i.val ≠ 0 && (t.table[i]).isNone)

/-- DEFINE_ASSORTMENT as TLU judges it (R112). -/
def Tlu.define (t : Tlu) (id : Nat) : Code × Tlu :=
  if id = 0 then (.badField, t)
  else if t.defined id then (.conflict, t)
  else
    match t.freeSlot with
    | none => (.noRoom, t)
    | some i => (.ok, { t with table := t.table.set i (some (.fresh id)) })

/-- DELETE_ASSORTMENT as TLU judges it (R113). -/
def Tlu.delete (t : Tlu) (id : Nat) : Code × Tlu :=
  if id = 0 then (.badField, t)
  else
    match t.slotOf id with
    | none => (.notFound, t)
    | some i =>
      let x := t.figures id
      if x.bunkCount ≠ 0 ∨ x.bunkMass ≠ 0 then (.conflict, t)
      else if t.current = id then (.conflict, t)
      else if t.trip.open? ∧ t.trip.list.any (fun e => e.id == id) then (.conflict, t)
      else (.ok, { t with table := t.table.set i none })

/-! ### Corrections (R128 to R130) -/

/-- The resident record of a lift number. -/
def Tlu.find (t : Tlu) (number : Nat) : Option LogRecord := t.log.find? (fun r => r.number == number)

/-- The record of a lift number is replaced in the log. -/
def Tlu.replace (t : Tlu) (r : LogRecord) : Tlu :=
  { t with log := t.log.map (fun x => if x.number == r.number then r else x) }

/-- The record belongs to a trip that is not the open one (R128, row 4). -/
def Tlu.tripGone (t : Tlu) (r : LogRecord) : Bool :=
  match r.trip with
  | none => false
  | some n => t.trip.current ≠ some n

/-- The slot cannot give back what the record put in (R128, rows 6 and 7). -/
def cannotReverse (x : AsnSlot) (r : LogRecord) : Bool :=
  match r.outcome with
  | .add =>
    let m := r.mass.getD 0
    x.bunkMass < m || x.bunkCount < 1 || x.loadedMass < m || x.loadedCount < 1
  | .remove =>
    x.removedMass < r.taken || x.excessMass < r.excess ||
      (if r.countTaken then x.removedCount < 1 else x.excessCount < 1)
  | _ => false

/-- A refusal of VOID_LIFT, or the record to reverse (R128). -/
def Tlu.voidJudged (t : Tlu) (number : Nat) : Except Code LogRecord :=
  if number = 0 then .error .badField
  else
    match t.find number with
    | none => .error .notFound
    | some r =>
      if r.voided then .error .conflict
      else if t.tripGone r then .error .conflict
      else if (r.outcome = .add ∨ r.outcome = .remove) ∧ !t.defined r.asn then .error .notFound
      else if cannotReverse (t.figures r.asn) r then .error .conflict
      else .ok r

/-- The slot after the reversal of a record (R129). -/
def AsnSlot.reverse (x : AsnSlot) (r : LogRecord) : AsnSlot :=
  match r.outcome with
  | .add =>
    let m := r.mass.getD 0
    { x with
      loadedMass := x.loadedMass - m
      bunkMass := x.bunkMass - m
      loadedCount := x.loadedCount - 1
      bunkCount := x.bunkCount - 1 }
  | .remove =>
    let y := { x with
      bunkMass := addMass x.bunkMass r.taken
      removedMass := x.removedMass - r.taken
      excessMass := x.excessMass - r.excess
      saturated := x.saturated || massOver x.bunkMass r.taken }
    if r.countTaken then
      { y with
        bunkCount := addCount x.bunkCount 1
        removedCount := x.removedCount - 1
        saturated := y.saturated || countOver x.bunkCount 1 }
    else { y with excessCount := x.excessCount - 1 }
  | _ => x

/-- The trip list entry after the reversal of a record (R129). -/
def TripEntry.reverse (r : LogRecord) (e : TripEntry) : TripEntry :=
  match r.outcome with
  | .add => { e with loadedMass := e.loadedMass - r.mass.getD 0, loadedCount := e.loadedCount - 1 }
  | .remove =>
    { e with
      removedMass := e.removedMass - r.taken
      removedCount := if r.countTaken then e.removedCount - 1 else e.removedCount }
  | _ => e

/-- The reversal of a record: its slot, the open trip's entry when the record carries a trip number, and its VOIDED flag
(R129). -/
def Tlu.reverse (t : Tlu) (r : LogRecord) : Tlu :=
  let t1 :=
    if r.outcome = .add ∨ r.outcome = .remove then
      let t0 := t.update r.asn ((t.figures r.asn).reverse r)
      if r.trip.isSome then
        { t0 with trip := { t.trip with
            list := t.trip.list.map (fun e => if e.id == r.asn then e.reverse r else e) } }
      else t0
    else t
  t1.replace { r with voided := true }

/-- A refusal of ASSIGN_LIFT, or the record to apply and its mass (R130). -/
def Tlu.assignJudged (t : Tlu) (number : Nat) (outcome : Option LiftOutcome) :
    Except Code (LogRecord × LiftOutcome × Nat) :=
  match outcome with
  | none => .error .badField
  | some o =>
    if number = 0 then .error .badField
    else
      match t.find number with
      | none => .error .notFound
      | some r =>
        match r.mass with
        | none => .error .conflict
        | some m =>
          if r.voided ∨ r.outcome ≠ .unzoned then .error .conflict
          else if !t.defined r.asn then .error .notFound
          else .ok (r, o, m)

/-- A record applied as an assigned outcome: TLU, the record as it now stands, and whether the trip closed (R130). -/
def Tlu.assign (t : Tlu) (r : LogRecord) (o : LiftOutcome) (m : Nat) : HandOver :=
  let a := t.apply o r.asn (some m) r.number
  let r' := { r with
    outcome := o
    assigned := true
    trip := a.trip
    taken := a.split.taken
    excess := a.split.excess
    countTaken := a.split.countTaken }
  { tlu := a.tlu.replace r', record := r', closed := a.closed }

/-! ### Totals and TRIP_CLOSE (R126, R131) -/

/-- A slot at TOTALS_RESET (R131). -/
def AsnSlot.newPeriod (x : AsnSlot) : AsnSlot where
  id := x.id
  loadedCount := x.bunkCount
  loadedMass := x.bunkMass
  bunkCount := x.bunkCount
  bunkMass := x.bunkMass
  removedCount := 0
  removedMass := 0
  excessCount := 0
  excessMass := 0
  saturated := false

def Tlu.newPeriod (t : Tlu) : Tlu := { t with table := t.table.map (Option.map AsnSlot.newPeriod) }

/-- A slot whose bunk is written off into removed (R126). -/
def AsnSlot.writeOff (x : AsnSlot) : AsnSlot :=
  { x with
    removedMass := addMass x.removedMass x.bunkMass
    removedCount := addCount x.removedCount x.bunkCount
    bunkMass := 0
    bunkCount := 0
    saturated := x.saturated || massOver x.removedMass x.bunkMass || countOver x.removedCount x.bunkCount }

/-- The open trip closed by order, with the bunk written off (R126). -/
def Tlu.closeOrdered (t : Tlu) : Tlu :=
  let moved := (t.slots.map (·.bunkMass)).sum
  let t1 := { t with
    table := t.table.map (Option.map AsnSlot.writeOff)
    trip := { t.trip with writtenOff := addMass t.trip.writtenOff moved } }
  t1.close .ordered

end Sys2Proof.Machine
end

