-- ==== Sys2Proof/Machine/Weighing.lean ====
section
/-! DEFINITION. The Weighing Engine (04_the_lift_cycle_and_weighing, 05_zero_and_span): mass from counts, the lift cycle, the
release, auto-zero, TARE and CAL_SPAN. -/

namespace Sys2Proof.Machine

/-! ### Lift state and live mass (R62, R63) -/

def Stage.state : Stage → LiftState
  | .gripped => .gripped
  | .carrying => .carrying
  | .weighed => .weighed

/-- The lift state: OPEN while no lift is in progress (R63). -/
def Wge.liftState (w : Wge) : LiftState :=
  match w.lift with
  | none => .open_
  | some l => l.stage.state

/-- The lift tag, absent in OPEN (R63). -/
def Wge.tag (w : Wge) : Option Nat := w.lift.map (·.tag)

/-- The live mass with its mark (R62). -/
def Wge.liveMass (w : Wge) : Marked where
  val := w.liveVal
  ok := !w.live.isEmpty

/-- The live window takes a mass and the live mass is formed (R62). -/
def Wge.takeLive (w : Wge) (m : Int) : Wge :=
  let live := lastN 8 (w.live ++ [m])
  { w with live := live, liveVal := meanOf live.sum live.length }

/-! ### Mass from counts (R59) -/

/-- A per-sample mass with its clipped mark. -/
structure Mass where
  m       : Int
  clipped : Bool
  deriving DecidableEq, Repr

/-- The per-sample mass of a count (R59). -/
def massOf (z : Int) (span : Nat) (c : Int) (overMark : Bool) : Mass :=
  let raw := roundDiv ((c - z) * span) 100000
  let m := saturate (-32768) 32767 raw
  { m := m, clipped := raw ≠ m || overMark }

/-- The difference test |m − previous| ≤ D; it fails while no previous mass is held (R60, R70). -/
def diffSteady (prev : Option Int) (m : Int) (d : Nat) : Bool :=
  match prev with
  | some p => (m - p).natAbs ≤ d
  | none => false

/-- The steadiness test of the lift window and of CAL_SPAN (R70, R104). With DYN_REJECT off a returning sample in CARRYING passes it
by R60 and R70, where R78 read alone has it rejected (DEDUCED, notes/assumptions/48.md). -/
def windowSteady (cfg : Settings) (pose : Pose) (prev : Option Int) (x : Mass) : Bool :=
  pose.valid && !x.clipped &&
    (!cfg.sw.dynReject ||
      (diffSteady prev x.m cfg.weigh.d && pose.slewRate.val.natAbs ≤ cfg.weigh.rs && pose.mainRate.val.natAbs ≤ cfg.weigh.rm))

/-- The steadiness test of auto-zero and of TARE (R95, R99). -/
def zeroSteady (cfg : Settings) (prev : Option Int) (x : Mass) : Bool :=
  !x.clipped && diffSteady prev x.m cfg.weigh.d

/-! ### The lift cycle at a LINK arrival (R69 to R76) -/

/-- A lift in GRIPPED (R69). -/
def Lift.confirmSample (l : Lift) (lMin : Nat) (m : Int) : Lift :=
  if (lMin : Int) ≤ m then
    if 5 ≤ l.confirm + 1 then
      { l with confirm := l.confirm + 1, stage := .carrying, sum := 0, n := 0, rejects := 0, drops := 0 }
    else { l with confirm := l.confirm + 1 }
  else { l with confirm := 0 }

/-- A lift cut back by a drop (R76). -/
def Lift.dropped (l : Lift) : Lift :=
  { l with
    stage := .gripped, sum := 0, n := 0, rejects := 0, drops := 0, confirm := 0, mass := none, peakU := 0
    flags := { l.flags with restarted := false, clipped := false, sensorGap := false } }

/-- The drop test: the drop run after a sample (R76). -/
def Lift.dropRun (l : Lift) (lMin : Nat) (m : Int) : Nat := if m < (lMin / 2 : Nat) then l.drops + 1 else 0

/-- The lift result from a window: max(0, round(S / n)) (R73, R79). -/
def resultOf (sum : Int) (n : Nat) : Nat := (meanOf sum n).toNat

/-- An accepted sample; it completes the window when n reaches N (R71, R73). -/
def Lift.accept (l : Lift) (full : Nat) (m : Int) : Lift :=
  let sum := l.sum + m
  let n := l.n + 1
  if full ≤ n then { l with sum := sum, n := n, rejects := 0, stage := .weighed, mass := some (resultOf sum n) }
  else { l with sum := sum, n := n, rejects := 0 }

/-- A rejected sample; the twelfth in a row restarts the window (R72). -/
def Lift.reject (l : Lift) : Lift :=
  if 12 ≤ l.rejects + 1 then { l with sum := 0, n := 0, rejects := 0, flags := { l.flags with restarted := true } }
  else { l with rejects := l.rejects + 1 }

/-- A lift in CARRYING: the CLIPPED flag, the drop test, then the window (R70 to R73, R75, R76). A clipped sample that completes a
drop leaves CLIPPED clear: the drop that discards the window has the last word (DEDUCED, notes/assumptions/38.md). -/
def Lift.carrySample (l : Lift) (cfg : Settings) (steady : Bool) (x : Mass) : Lift :=
  let l1 := if x.clipped then { l with flags := { l.flags with clipped := true } } else l
  let drops := l.dropRun cfg.weigh.lMin x.m
  if 5 ≤ drops then l1.dropped
  else
    let l2 := { l1 with drops := drops }
    if steady then l2.accept cfg.weigh.n x.m else l2.reject

/-- A lift in WEIGHED: the drop run alone (R74, R76). -/
def Lift.weighedSample (l : Lift) (lMin : Nat) (m : Int) : Lift :=
  let drops := l.dropRun lMin m
  if 5 ≤ drops then l.dropped else { l with drops := drops }

/-- The lift in progress at a LINK arrival, by its stage (R61, step 2). -/
def Lift.sample (l : Lift) (cfg : Settings) (steady : Bool) (x : Mass) : Lift :=
  match l.stage with
  | .gripped => l.confirmSample cfg.weigh.lMin x.m
  | .carrying => l.carrySample cfg steady x
  | .weighed => l.weighedSample cfg.weigh.lMin x.m

/-! ### Auto-zero (R95 to R97) -/

/-- Auto-zero runs: switch on, OPEN, no TARE working (R95). -/
def Wge.azRuns (w : Wge) (cfg : Settings) : Bool := cfg.sw.autoZero && w.lift.isNone && w.tare.isNone

/-- A completed auto-zero window judged (R96). -/
def Wge.azComplete (w : Wge) (zb : Nat) (sumC sumM : Int) : Wge :=
  if (meanOf sumM 64).natAbs ≤ zb then
    { w with z := w.z + truncDiv (meanOf sumC 64 - w.z) 4, zeroSuspect := false, az := .empty }
  else { w with zeroSuspect := true, az := .empty }

/-- Auto-zero takes a sample (R95, R96). -/
def Wge.azSample (w : Wge) (cfg : Settings) (steady : Bool) (c : Int) (m : Int) : Wge :=
  if steady then
    if 64 ≤ w.az.count + 1 then w.azComplete cfg.weigh.zb (w.az.sumC + c) (w.az.sumM + m)
    else { w with az := { count := w.az.count + 1, sumC := w.az.sumC + c, sumM := w.az.sumM + m } }
  else { w with az := .empty }

/-! ### Results of zero and span work (R108, R221) -/

/-- The collecting reply's body of a TARE: the code and z (R221). -/
def tareResult (c : WorkCode) (z : Int) : List Byte := be1 c.num ++ beBytes 3 z

/-- The collecting reply's body of a CAL_SPAN: the code, mean_c − z and s (R221). -/
def calResult (c : WorkCode) (diff : Int) (span : Nat) : List Byte := be1 c.num ++ beBytes 4 diff ++ be2 span

/-! ### TARE (R99 to R101) -/

/-- A working TARE takes a sample: WGE after it, and whether it completed OK (R99, R100). -/
def Wge.tareSample (w : Wge) (t : TareWork) (steady : Bool) (c : Int) : Wge × Bool :=
  if steady then
    if 64 ≤ t.count + 1 then
      ({ w with z := meanOf (t.sumC + c) 64, zeroSuspect := false, az := .empty, tare := none }, true)
    else ({ w with tare := some { t with count := t.count + 1, sumC := t.sumC + c } }, false)
  else ({ w with tare := some { t with count := 0, sumC := 0 } }, false)

/-- A working TARE ends without writing z (R101). -/
def endTare (code : WorkCode) (s : State) : State :=
  match s.wge.tare with
  | some _ =>
    (s.setWge { s.wge with tare := none, az := .empty }).finishWork .tare (tareResult code s.wge.z)
  | none => s

/-! ### CAL_SPAN (R104 to R106) -/

/-- The judgement of a complete span collection (R105): the result, mean_c − z, and the span after it. BAD_SPAN carries the
unchanged working span (DEDUCED, notes/assumptions/41.md). -/
def spanJudged (z : Int) (span mref : Nat) (sumC : Int) : WorkCode × Int × Nat :=
  let diff := meanOf sumC 128 - z
  if diff ≤ 0 then (.badSpan, diff, span)
  else
    let new := roundDiv ((mref : Int) * 100000) diff.toNat
    if 1 ≤ new ∧ new ≤ 65535 then (.ok, diff, new.toNat) else (.badSpan, diff, span)

/-- A working CAL_SPAN takes a sample: WGE after it, and its result when it completed (R104, R105). -/
def Wge.calSample (w : Wge) (k : CalWork) (steady : Bool) (c : Int) : Wge × Option (List Byte) :=
  if steady then
    if 128 ≤ k.count + 1 then
      let (code, diff, new) := spanJudged w.z w.span k.mref (k.sumC + c)
      let w1 := { w with cal := none }
      (if code = .ok then { w1 with span := new, az := .empty } else w1, some (calResult code diff new))
    else ({ w with cal := some { k with count := k.count + 1, sumC := k.sumC + c } }, none)
  else (w, none)

/-- A working CAL_SPAN ends without writing s (R106). -/
def endCal (code : WorkCode) (s : State) : State :=
  match s.wge.cal with
  | some _ => (s.setWge { s.wge with cal := none }).finishWork .calSpan (calResult code 0 s.wge.span)
  | none => s

/-! ### Handing on (R61, R62, R64) -/

/-- The hand-overs of a change of the lift state, to CPM and to WT (R64). -/
def liftHandOvers (old new : LiftState) (tag : Option Nat) (mass : Option Nat) : List (State → State) :=
  if old = new then [] else [cpmLift new, wtLift old new tag mass]

/-- The hand-overs of the live mass, to CPM and to WT (R61, R62). -/
def liveHandOvers (m : Marked) : List (State → State) := [cpmLive m, wtLive m]

/-! ### A LINK arrival (R61) -/

/-- Steps 1 to 3 of R61: the live window, the lift cycle, and auto-zero when the lift state is OPEN after it. -/
def Wge.steps123 (w : Wge) (cfg : Settings) (pose : Pose) (c : Int) (x : Mass) : Wge :=
  let w1 := w.takeLive x.m
  let w2 := { w1 with lift := w.lift.map (fun (l : Lift) => l.sample cfg (windowSteady cfg pose w.prev x) x) }
  if w2.azRuns cfg then w2.azSample cfg (zeroSteady cfg w.prev x) c x.m else w2

/-- A working TARE takes the sample (R61, step 4). -/
def tareStep (cfg : Settings) (prev : Option Int) (c : Int) (x : Mass) (s : State) : State :=
  match s.wge.tare with
  | some t =>
    match s.wge.tareSample t (zeroSteady cfg prev x) c with
    | (w, true) => (s.setWge w).finishWork .tare (tareResult .ok w.z)
    | (w, false) => s.setWge w
  | none => s

/-- A working CAL_SPAN takes the sample (R61, step 4). -/
def calStep (cfg : Settings) (pose : Pose) (prev : Option Int) (c : Int) (x : Mass) (s : State) : State :=
  match s.wge.cal with
  | some k =>
    match s.wge.calSample k (windowSteady cfg pose prev x) c with
    | (w, some result) => (s.setWge w).finishWork .calSpan result
    | (w, none) => s.setWge w
  | none => s

/-- Step 4 of R61: a working TARE or CAL_SPAN takes the sample. -/
def workSample (cfg : Settings) (pose : Pose) (prev : Option Int) (c : Int) (x : Mass) (s : State) : State :=
  calStep cfg pose prev c x (tareStep cfg prev c x s)

/-- A drop that takes the lift to GRIPPED ends a working CAL_SPAN (R106). -/
def dropEndsCal (before : LiftState) (s : State) : State :=
  if s.wge.liftState = .gripped ∧ before ≠ .gripped then endCal .aborted s else s

/-- WGE's own work for one LINK arrival, steps 1 to 5 of R61. -/
def linkWork (c : Int) (overMark : Bool) (s : State) : State :=
  let w := s.wge
  let x := massOf w.z w.span c overMark
  let s1 := s.setWge (w.steps123 s.cfg s.pos.pose c x)
  let s2 := dropEndsCal w.liftState s1
  let s3 := workSample s.cfg s.pos.pose w.prev c x s2
  s3.setWge { s3.wge with prev := some x.m }

/-- A LINK arrival, plain or returning: the work, then the hand-overs (R59, R61, R64). -/
def linkArrival (c : Int) (overMark : Bool) (s : State) : State :=
  let s1 := linkWork c overMark s
  runAny
    (liftHandOvers s.wge.liftState s1.wge.liftState s1.wge.tag (s1.wge.lift.bind (·.mass)) ++ liveHandOvers s1.wge.liveMass)
    s1

/-- A lift in progress when LINK goes stale, by its stage (R77). -/
def Lift.linkLost (l : Lift) : Lift :=
  match l.stage with
  | .gripped => { l with confirm := 0, flags := { l.flags with sensorGap := true } }
  | .carrying =>
    { l with sum := 0, n := 0, confirm := 0, rejects := 0, drops := 0, flags := { l.flags with sensorGap := true } }
  | .weighed => { l with drops := 0 }

/-- WGE when LINK goes stale, a working TARE or CAL_SPAN aside (R60, R62, R77, R97). The previous mass is emptied here, at a reset,
and at the first LINK arrival after a standby (startAfresh; notes/assumptions/35.md). -/
def Wge.linkLost (w : Wge) : Wge := { w with lift := w.lift.map Lift.linkLost, live := [], prev := none, az := .empty }

/-- A LINK stale event (R60, R62, R77, R97, R101, R106). -/
def linkStale (s : State) : State :=
  let s1 := endCal .sensorLost (endTare .sensorLost (s.setWge s.wge.linkLost))
  runAny (liveHandOvers s1.wge.liveMass) s1

/-! ### Grip events (R65 to R67, R79 to R83) -/

/-- The lift made afresh at a closing (R65). -/
def Lift.begin (origin : Zone) (tag : Nat) (zeroSuspect : Bool) : Lift where
  stage := .gripped
  origin := origin
  tag := tag
  confirm := 0
  sum := 0
  n := 0
  rejects := 0
  drops := 0
  mass := none
  flags := { short := false, restarted := false, clipped := false, zeroSuspect := zeroSuspect, sensorGap := false }
  peakU := 0

/-- The outcome of a released lift, the first row that applies (R81). -/
def outcomeOf (op : OpState) (mass : Option Nat) (origin dest : Zone) : LiftOutcome :=
  if op = .service then .test
  else if mass.isNone then .unweighed
  else
    match origin, dest with
    | .unknown, _ => .unzoned
    | _, .unknown => .unzoned
    | .field_, .bunk => .add
    | .bunk, .field_ => .remove
    | .field_, .field_ => .return_
    | .bunk, .bunk => .move

/-- The mass of a released lift, and whether SHORT is set (R79, R80). -/
def Lift.releaseMass (l : Lift) (nMin : Nat) : Option Nat × Bool :=
  match l.stage with
  | .carrying => if nMin ≤ l.n then (some (resultOf l.sum l.n), true) else (none, false)
  | _ => (l.mass, false)

/-- The completed lift of a release (R79 to R82). -/
def completedOf (l : Lift) (nMin : Nat) (op : OpState) (pose : Pose) : CompletedLift :=
  let (mass, short) := l.releaseMass nMin
  { tag := l.tag
    origin := l.origin
    dest := pose.zone
    outcome := outcomeOf op mass l.origin pose.zone
    mass := mass
    n := l.n
    flags := { l.flags with short := short }
    peakU := l.peakU
    reach := pose.r
    slew := pose.s }

/-- A GRIP arrival of value 1 in OPEN starts a lift (R65, R97, R101). -/
def closeGrapple (s : State) : State :=
  let l := Lift.begin s.pos.pose.zone s.tlu.current s.wge.zeroSuspect
  let s1 := endTare .aborted (s.setWge { s.wge with lift := some l, az := .empty })
  runAny (liftHandOvers .open_ .gripped (some l.tag) none) s1

/-- A GRIP arrival of value 0 in GRIPPED discards the lift (R67). -/
def openUnlifted (s : State) : State :=
  runAny (liftHandOvers .gripped .open_ none none) (s.setWge { s.wge with lift := none })

/-- A GRIP arrival of value 0 in CARRYING or WEIGHED releases the load: the completed lift goes to TLU before CPM and WT
take the change to OPEN (R79 to R83, R106). -/
def release (l : Lift) (s : State) : State :=
  let c := completedOf l s.cfg.weigh.nMin s.stc.op s.pos.pose
  let s1 := endCal .aborted (s.setWge { s.wge with lift := none })
  runAny (liftHandOvers l.stage.state .open_ none none) (takeCompletedLift c s1)

/-- A GRIP arrival, plain or returning, acts by its value (R65 to R67, R79, R80). -/
def gripArrival (closed : Bool) (s : State) : State :=
  match s.wge.lift, closed with
  | none, true => closeGrapple s
  | none, false => s
  | some _, true => s
  | some l, false => if l.stage = .gripped then openUnlifted s else release l s

/-! ### Writes and work begun (R93, R98, R103) -/

/-- A taken write of z, and of s (R93, R97). -/
def writeZ (z : Int) (s : State) : State := s.setWge { s.wge with z := z, az := .empty }
def writeSpan (span : Nat) (s : State) : State := s.setWge { s.wge with span := span, az := .empty }

/-- How long a TARE is given, in ms (R98). -/
def tareMs : Nat := 10000

/-- A TARE accepted from a port (R98). -/
def startTare (p : Port) (s : State) : State :=
  s.setWge { s.wge with
    az := .empty, tare := some { port := p, count := 0, sumC := 0, deadline := s.now + tareMs } }

/-- A CAL_SPAN accepted with a reference mass (R103). -/
def startCal (mref : Nat) (s : State) : State := s.setWge { s.wge with cal := some { mref := mref, count := 0, sumC := 0 } }

end Sys2Proof.Machine
end

