-- ==== Sys2Proof/Machine/SensorBus.lean ====
section
/-! DEFINITION. The Sensor Bus Controller (02_the_sensor_bus): the judgement of a poll, entries and their states, delivery,
rounds, recovery, the passthrough, and the replacement of the poll list. -/

namespace Sys2Proof.Machine

/-! ### Roles (R14) -/

/-- The stale limit of a role, in ms (R9, R14). -/
def staleLimit : Role → Nat
  | .link => 40
  | .slew => 100
  | .main => 100
  | .outer => 100
  | .tele => 100
  | .tilt => 500
  | .grip => 100

/-- The maximum period of a role, in rounds (R14). -/
def maxPeriod : Role → Nat
  | .link => 2
  | .slew => 10
  | .main => 10
  | .outer => 10
  | .tele => 10
  | .tilt => 10
  | .grip => 10

/-- A value lies between two limits. -/
def within (lo hi v : Int) : Bool := lo ≤ v && v ≤ hi

/-- A record's value lies in its role's range (R14). -/
def inRange (r : Role) (v : Int) : Bool :=
  match r with
  | .link => within (-8388608) 8388607 v
  | .slew => within 0 3599 v
  | .main => within (-300) 850 v
  | .outer => within 150 1750 v
  | .tele => within 0 4000 v
  | .tilt => within (-450) 450 (pitchOf v) && within (-450) 450 (rollOf v)
  | .grip => within 0 1 v

/-! ### The record and its judgement (R21 to R24) -/

/-- The signed value of a record (R21, R221). -/
def recordValue (x : SensorRecord) : Int := beInt [x.value2, x.value1, x.value0]

/-- READY, OVER and WAKE of a record (R24, R221). -/
def recordReady (x : SensorRecord) : Bool := x.status.getLsbD 0
def recordOver (x : SensorRecord) : Bool := x.status.getLsbD 1
def recordWake (x : SensorRecord) : Bool := x.status.getLsbD 2

/-- The sum of the four bytes before the check byte. -/
def recordSum (x : SensorRecord) : Nat := x.status.toNat + x.value2.toNat + x.value1.toNat + x.value0.toNat

/-- The check byte is 255 minus that sum mod 256 (R21). -/
def recordCheckGood (x : SensorRecord) : Bool := x.check.toNat == 255 - recordSum x % 256

/-- The record was read and passes rows 1 to 5 of R23. -/
def recordRead (expectWaking stretched : Bool) (obs : PollObs) : Option PollOutcome :=
  if obs.lowAtStart || obs.lowAtStop then some .stuck
  else if !obs.acked then some (if expectWaking then .waking else .nakAddr)
  else if stretched then some .stretchTimeout
  else if !recordCheckGood obs.record then some .badCheck
  else none

/-- The outcome of a poll transaction, the first row of R23 that applies. -/
def judgePoll (expectWaking stretched : Bool) (r : Role) (obs : PollObs) : PollOutcome :=
  match recordRead expectWaking stretched obs with
  | some o => o
  | none => if !recordReady obs.record then .notReady else if !inRange r (recordValue obs.record) then .badValue else .ok

/-- The record counts an unexpected restart of its sensor (R24). -/
def countsRestart (expectWaking stretched : Bool) (obs : PollObs) : Bool :=
  (recordRead expectWaking stretched obs).isNone && recordWake obs.record && !expectWaking

/-! ### Entries (R15, R26, R40) -/

/-- The sensor state by the failure count (R26). -/
def Entry.state (e : Entry) : SensorState :=
  if e.failures = 0 then .online else if e.failures < 3 then .failing else .missing

/-- An entry new in the poll list, or made at a start (R17, R40). -/
def Entry.fresh (d : PollDef) : Entry where
  pd := d
  failures := 3
  expectWaking := true
  last := .none_
  slot := none
  stale := true
  firstDue := false
  restarts := 0

/-- The entry of a role. -/
def Sbc.entryOf (b : Sbc) (r : Role) : Option Entry := b.entries.find? (fun e => e.pd.role == r)

/-- The entry of a role is changed. -/
def Sbc.mapRole (b : Sbc) (r : Role) (f : Entry → Entry) : Sbc :=
  { b with entries := b.entries.map (fun e => if e.pd.role = r then f e else e) }

/-- Every entry's expect-waking is set (R25). -/
def Sbc.allExpectWaking (b : Sbc) : Sbc := { b with entries := b.entries.map (fun e => { e with expectWaking := true }) }

/-- The failure count after an outcome (R26). -/
def failuresAfter (o : PollOutcome) (n : Nat) : Nat :=
  match o with
  | .ok => 0
  | .waking | .none_ => n
  | .stuck | .nakAddr | .stretchTimeout | .badCheck | .notReady | .badValue => min 3 (n + 1)

/-- An entry after its poll transaction ended (R24 to R27). The sample is kept only while the entry is enabled
(DEDUCED, notes/assumptions/16.md). -/
def Entry.polled (e : Entry) (stretched : Bool) (obs : PollObs) (now : Nat) : Entry :=
  let o := judgePoll e.expectWaking stretched e.pd.role obs
  let e1 := { e with
    expectWaking := false
    last := o
    failures := failuresAfter o e.failures
    restarts := if countsRestart e.expectWaking stretched obs then min 255 (e.restarts + 1) else e.restarts }
  if o = .ok ∧ e.pd.enable then
    { e1 with
      slot := some { value := recordValue obs.record, mark := recordOver obs.record, time := now }
      stale := false, firstDue := false }
  else e1

/-- Between an entry before its poll and after it a returning sample arrived: the entry was stale (R27). -/
def Entry.returned (e e' : Entry) : Bool := e.stale && !e'.stale

/-- The sample that arrived between the two starts its consumers afresh: it is a returning one, or the first since the bus left
STOPPED, however short the standby was and though it is then delivered as plain (R27, R54, R58, R60, R95; DEDUCED,
notes/assumptions/35.md). -/
def Entry.startsAfresh (e e' : Entry) : Bool := e.returned e' || (e.firstDue && !e'.firstDue)

/-- The SENSOR_STATE body of an entry (R30, R222). -/
def sensorStateBody (e : Entry) (notPolled : Bool) : List Byte :=
  be1 (roleNum e.pd.role) ++ be1 e.pd.addr ++ be1 e.state.num ++
    be1 (bitOf 0 e.stale + bitOf 1 e.slot.isSome + bitOf 2 notPolled) ++ be1 e.last.num ++ be1 e.restarts

/-- A SENSOR_STATE report of an entry as it stands. -/
def reportEntry (e : Entry) (s : State) : State := s.queueReport .sensorState (sensorStateBody e (!e.pd.enable))

/-! ### Delivery (R27, R28) -/

/-- What the consumers of a role keep of its samples before is emptied: LINK's previous mass (R60), the rate memory of SLEW or
MAIN (R54). -/
def startAfresh (r : Role) (s : State) : State :=
  match r with
  | .link => s.setWge { s.wge with prev := none }
  | .slew => s.setPos { s.pos with slewMem := none }
  | .main => s.setPos { s.pos with mainMem := none }
  | .outer | .tele | .tilt | .grip => s

/-- A sample is delivered to the consumers of its role (R27). -/
def deliverSample (r : Role) (returning : Bool) (x : Sample) : State → State :=
  match r with
  | .link => linkArrival x.value x.mark
  | .grip => gripArrival (x.value == 1)
  | .slew => poseArrival .slew returning x
  | .main => poseArrival .main returning x
  | .outer => poseArrival .outer returning x
  | .tele => poseArrival .tele returning x
  | .tilt => poseArrival .tilt returning x

/-- A stale event is delivered to the consumers of its role; WGE does nothing at one of GRIP (R28, R68). -/
def deliverStale (r : Role) : State → State :=
  match r with
  | .link => linkStale
  | .grip => id
  | .slew => poseStale .slew
  | .main => poseStale .main
  | .outer => poseStale .outer
  | .tele => poseStale .tele
  | .tilt => poseStale .tilt

/-- The outcome of a poll transaction is applied to the entry that was polled: its working state, its SENSOR_STATE
report, its delivery, plain or returning (R26, R27, R30). A sample that starts its consumers afresh finds them so. -/
def applyPoll (e : Entry) (stretched : Bool) (obs : PollObs) (s : State) : State :=
  let e' := e.polled stretched obs s.now
  let s1 := s.setSbc (s.sbc.mapRole e.pd.role (fun _ => e'))
  let returning := e.returned e'
  let s2 := if ((e.state = .missing) ≠ (e'.state = .missing)) ∨ returning then reportEntry e' s1 else s1
  match e'.last, e.pd.enable, e'.slot with
  | .ok, true, some x =>
    deliverSample e.pd.role returning x (if e.startsAfresh e' then startAfresh e.pd.role s2 else s2)
  | _, _, _ => s2

/-! ### Bus states (R31 to R35) -/

/-- How long a bus-free pulse and the wait after it last, and how far apart recovery attempts are, in ms (R31, R33). -/
def pulseMs : Nat := 1
def waitMs : Nat := 20
def attemptMs : Nat := 1000

/-- How long a round lasts, in ms (R19). -/
def roundMs : Nat := 10

/-- The bus-free line goes low for a pulse, the round's unpolled entries being skipped (R31). -/
def Sbc.startPulse (b : Sbc) (now : Nat) : Sbc :=
  { b with busFreeLow := true, phase := .pulse (now + pulseMs), due := [], roundActive := false }

/-- RECOVERING, with its pulse (R31). -/
def Sbc.enterRecovering (b : Sbc) (now : Nat) : Sbc :=
  { b.startPulse now with bus := .recovering, restartPending := false }

/-- RUNNING again from RECOVERING or DOWN; the next round starts at the next round timer expiry (R31, R33). -/
def Sbc.backToRunning (b : Sbc) : Sbc := { b with bus := .running, phase := .idle, attemptTimer := none }

/-- The bus-free line is released at a pulse's end and the wait begins (R31, R33). -/
def Sbc.endPulse (b : Sbc) (now : Nat) : Sbc :=
  { b.allExpectWaking with busFreeLow := false, phase := .wait (now + waitMs) }

/-- A STUCK outcome at `now` is the third of three within 1,000 ms (R32). -/
def Sbc.thirdStuck (b : Sbc) (now : Nat) : Bool :=
  match b.stuckTimes with
  | [t, _] => now - t ≤ 1000
  | _ => false

/-- The kept times after a STUCK outcome that is no third one (R32). -/
def Sbc.keepStuck (b : Sbc) (now : Nat) : Sbc := { b with stuckTimes := lastN 2 (b.stuckTimes ++ [now]) }

/-- The entry as DOWN makes it (R32). -/
def Entry.down (e : Entry) : Entry := { e with failures := 3 }

/-- Every entry becomes MISSING, with the reports of those that were not (R32), in list order (DESIGN CHOICE,
notes/assumptions/37.md). -/
def allMissing (s : State) : State :=
  let lost := (s.sbc.entries.filter (fun e => e.state ≠ .missing)).map Entry.down
  lost.foldl (fun s e => reportEntry e s) (s.setSbc { s.sbc with entries := s.sbc.entries.map Entry.down })

/-- The collecting reply's body of a passthrough: the code, the read count and the bytes read (R221). A result other than
OK carries a read count of 0 (DEDUCED, notes/assumptions/21.md). -/
def passResult (c : WorkCode) (bytes : List Byte) : List Byte := be1 c.num ++ be1 bytes.length ++ bytes

/-- The passthrough is waiting, not issued. -/
def Sbc.passWaiting (b : Sbc) : Bool :=
  b.pass.isSome && (match b.txn with | some t => t.kind ≠ .pass | none => true)

/-- A waiting passthrough ends with a result and without a transaction (R33, R38). -/
def endWaitingPass (c : WorkCode) (s : State) : State :=
  if s.sbc.passWaiting then (s.setSbc { s.sbc with pass := none }).finishWork .sensorPass (passResult c []) else s

/-- The bus enters DOWN (R32, R33). -/
def enterDown (s : State) : State :=
  let s1 := s.setSbc { s.sbc with
    bus := .down, stuckTimes := [], due := [], roundActive := false, phase := .idle, busFreeLow := false
    attemptTimer := some (s.now + attemptMs), restartPending := false }
  endWaitingPass .stuck (allMissing s1)

/-- A STUCK outcome in RUNNING, or the low data line at the end of a recovery wait (R31, R32). -/
def busStuck (s : State) : State :=
  if s.sbc.thirdStuck s.now then enterDown s else s.setSbc ((s.sbc.keepStuck s.now).enterRecovering s.now)

/-! ### Rounds (R19, R20) -/

/-- The roles due in a round, in list order (R19). -/
def Sbc.dueRoles (b : Sbc) (n : Nat) : List Role :=
  (b.entries.filter (fun e => e.pd.enable && n % e.pd.period == 0)).map (·.pd.role)

/-- The bus address of a role's entry. -/
def Sbc.addrOf (b : Sbc) (r : Role) : Nat := ((b.entryOf r).map (·.pd.addr)).getD 0

/-- With no transaction on the bus, a running round polls its next due entry, or ends and issues a waiting passthrough
(R19, R37). -/
def Sbc.advance (b : Sbc) : Sbc :=
  if b.bus = .running ∧ b.roundActive ∧ b.txn.isNone then
    match b.due with
    | r :: rest =>
      { b with due := rest, txn := some { kind := .poll r (b.addrOf r), stretched := false, discarded := false } }
    | [] =>
      { b with
        roundActive := false
        txn := if b.pass.isSome then some { kind := .pass, stretched := false, discarded := false } else none }
  else b

/-- A round begins with the due entries of a round number (R19). -/
def Sbc.beginRound (b : Sbc) (n : Nat) : Sbc := { b with roundNo := n, due := b.dueRoles n, roundActive := true }.advance

/-- The transaction in progress is the poll of a round. -/
def Sbc.polling (b : Sbc) : Bool :=
  match b.txn with
  | some t => (match t.kind with | .poll _ _ => true | .attempt _ _ | .pass => false)
  | none => false

/-- The round timer expires (R19, R20). -/
def Sbc.roundExpiry (b : Sbc) (deadline : Nat) : Sbc :=
  let n := (b.roundNo + 1) % 10
  let b1 := { b with roundTimer := some (deadline + roundMs), roundNo := n }
  if b.bus = .running ∧ !b.restartPending then
    { b1 with overrun := b.overrun || (b.roundActive && (b.polling || !b.due.isEmpty)) }.beginRound n
  else b1

/-! ### STOPPED (R35) -/

/-- Every entry's next good sample is its first since the bus left STOPPED (R54, R58, R60). -/
def Sbc.allFirstDue (b : Sbc) : Sbc := { b with entries := b.entries.map (fun e => { e with firstDue := true }) }

/-- The bus leaves STOPPED with no transaction on it. -/
def Sbc.run (b : Sbc) (now : Nat) : Sbc :=
  { b.allExpectWaking.allFirstDue with
    busFreeLow := false, bus := .running, roundTimer := some (now + roundMs), startPending := false }.beginRound 0

/-- The operating state has become RUN or SERVICE. While a transaction still completes from before the stop, the bus
leaves STOPPED at its end (DESIGN CHOICE, notes/assumptions/12.md). -/
def busStart (s : State) : State :=
  if s.sbc.bus = .stopped then
    s.setSbc (if s.sbc.stopping then { s.sbc with startPending := true } else s.sbc.run s.now)
  else s

/-- The end of a stop: the line low, the kept times emptied. -/
def Sbc.finishStop (b : Sbc) (now : Nat) : Sbc :=
  let b1 := { b with busFreeLow := true, stuckTimes := [], stopping := false }
  if b.startPending then b1.run now else b1

/-- The operating state has become START or STANDBY: the round, a recovery and an attempt are abandoned and the timers
halted; a transaction in progress completes first (R35). -/
def Sbc.stop (b : Sbc) (now : Nat) : Sbc :=
  let b1 := { b with
    bus := .stopped, roundTimer := none, roundActive := false, due := [], phase := .idle, attemptTimer := none
    stopping := true, startPending := false, restartPending := false }
  if b.txn.isSome then b1 else b1.finishStop now

def busStop (s : State) : State := s.setSbc (s.sbc.stop s.now)

/-! ### Completion of a transaction -/

/-- What follows on the bus when a transaction of a round, or a passthrough, has completed and its outcome has been
applied (R20, R31, R32, R34, R35). -/
def afterTransaction (stuck : Bool) (s : State) : State :=
  if s.sbc.stopping then
    let s1 := if stuck ∧ s.sbc.thirdStuck s.now then allMissing s else s
    s1.setSbc (s1.sbc.finishStop s1.now)
  else if stuck ∧ s.sbc.bus = .running then busStuck s
  else if s.sbc.restartPending then s.setSbc (s.sbc.enterRecovering s.now)
  else s.setSbc s.sbc.advance

/-- A recovery attempt's poll has completed (R33). -/
def afterAttempt (ok : Bool) (s : State) : State :=
  if s.sbc.stopping then s.setSbc (s.sbc.finishStop s.now)
  else if ok ∧ s.sbc.bus = .down then s.setSbc { s.sbc.backToRunning with stuckTimes := [] }
  else s

/-- The bus has no transaction on it. -/
def Sbc.clearTxn (b : Sbc) : Sbc := { b with txn := none }

/-- The entry a transaction polls, unless its outcome is to be discarded (R17). -/
def Sbc.polledEntry (b : Sbc) (t : Txn) (r : Role) : Option Entry := if t.discarded then none else b.entryOf r

/-- A poll transaction, of a round or of an attempt, completes (R23, R25). WAKING is followed at once by the retry on
the same entry. A discarded outcome still shows the data line (DEDUCED, notes/assumptions/14.md). -/
def pollDone (t : Txn) (r : Role) (obs : PollObs) (after : Bool → PollOutcome → State → State) (s : State) : State :=
  match s.sbc.polledEntry t r with
  | some e =>
    let o := judgePoll e.expectWaking t.stretched r obs
    if o = .waking then
      applyPoll e t.stretched obs (s.setSbc { s.sbc with txn := some { t with stretched := false } })
    else after true o (applyPoll e t.stretched obs (s.setSbc s.sbc.clearTxn))
  | none => after false (judgePoll false t.stretched r obs) (s.setSbc s.sbc.clearTxn)

/-- POLL_TRANSACTION_DONE. -/
def pollTransactionDone (obs : PollObs) (s : State) : State :=
  match s.sbc.txn with
  | some t =>
    match t.kind with
    | .poll r _ => pollDone t r obs (fun _ o => afterTransaction (o = .stuck)) s
    | .attempt r _ => pollDone t r obs (fun applied o => afterAttempt (applied && o = .ok)) s
    | .pass => s
  | none => s

/-- The outcome of a passthrough, the first that applies (R37). -/
def passOutcome (p : Passthrough) (stretched : Bool) (obs : PassObs) : WorkCode :=
  if obs.stuck then .stuck
  else if !obs.addrAcked then .nakAddr
  else if !p.writes.isEmpty && !obs.dataAcked then .nakData
  else if stretched then .stretchTimeout
  else .ok

/-- PASSTHROUGH_DONE (R37). -/
def passthroughDone (obs : PassObs) (s : State) : State :=
  match s.sbc.txn, s.sbc.pass with
  | some t, some p =>
    if t.kind = .pass then
      let c := passOutcome p t.stretched obs
      let bytes := if c = .ok then obs.bytes.toList.take p.count else []
      let s1 := (s.setSbc { s.sbc with txn := none, pass := none }).finishWork .sensorPass (passResult c bytes)
      afterTransaction (c = .stuck) s1
    else s
  | _, _ => s

/-- STRETCH_TIMEOUT: a stretch of the transaction in progress has lasted beyond 2 ms (R22). -/
def stretchTimeout (s : State) : State :=
  match s.sbc.txn with
  | some t => s.setSbc { s.sbc with txn := some { t with stretched := true } }
  | none => s

/-! ### Timers of the bus -/

/-- ROUND_TIMER_EXPIRY, when the round timer is due. -/
def roundTimerExpiry (s : State) : State :=
  match s.sbc.roundTimer with
  | some d => if d ≤ s.now then s.setSbc (s.sbc.roundExpiry d) else s
  | none => s

/-- The held value of an entry has become stale and no stale event has been taken for it (R28). -/
def Entry.staleDue (e : Entry) (now : Nat) : Bool :=
  match e.slot with
  | some x => !e.stale && decide (x.time + staleLimit e.pd.role < now)
  | none => false

/-- SENSOR_STALE, when the role's value has become stale (R28, R30). -/
def sensorStale (r : Role) (s : State) : State :=
  match s.sbc.listedEntry r with
  | some e =>
    if e.staleDue s.now then
      let s1 := s.setSbc (s.sbc.mapRole r (fun e => { e with stale := true }))
      deliverStale r (reportEntry { e with stale := true } s1)
    else s
  | none => s

/-- BUS_FREE_PULSE_END, when the pulse's 1 ms is over (R31, R33). -/
def busFreePulseEnd (s : State) : State :=
  match s.sbc.phase with
  | .pulse u => if u ≤ s.now then s.setSbc (s.sbc.endPulse s.now) else s
  | .idle | .wait _ => s

/-- RECOVERY_WAIT_END, when the wait of RECOVERING is over, with the data line as sampled (R31, R32). -/
def recoveryWaitEnd (dataHigh : Bool) (s : State) : State :=
  match s.sbc.phase with
  | .wait u =>
    if u ≤ s.now ∧ s.sbc.bus = .recovering then
      if dataHigh then s.setSbc s.sbc.backToRunning else busStuck s
    else s
  | .idle | .pulse _ => s

/-- An attempt is in progress (R33, R34). -/
def Sbc.attempting (b : Sbc) : Bool := b.phase ≠ .idle || b.txn.isSome

/-- A recovery attempt begins: the timer restarts, and the pulse (R33). -/
def Sbc.beginAttempt (b : Sbc) (now : Nat) : Sbc := { b.startPulse now with attemptTimer := some (now + attemptMs) }

/-- RECOVERY_ATTEMPT, when the attempt timer is due. An expiry that finds an attempt still in progress only restarts the
timer (DEDUCED, notes/assumptions/25.md). -/
def recoveryAttempt (s : State) : State :=
  match s.sbc.attemptTimer with
  | some d =>
    if d ≤ s.now ∧ s.sbc.bus = .down then
      if s.sbc.attempting then s.setSbc { s.sbc with attemptTimer := some (s.now + attemptMs) }
      else s.setSbc (s.sbc.beginAttempt s.now)
    else s
  | none => s

/-- ATTEMPT_WAIT_END, when the wait of an attempt is over, with the data line as sampled (R33). -/
def attemptWaitEnd (dataHigh : Bool) (s : State) : State :=
  match s.sbc.phase with
  | .wait u =>
    if u ≤ s.now ∧ s.sbc.bus = .down then
      let b := { s.sbc with phase := .idle }
      if dataHigh then
        match b.entries.find? (fun e => e.pd.enable) with
        | some e =>
          s.setSbc { b with txn := some { kind := .attempt e.pd.role e.pd.addr, stretched := false, discarded := false } }
        | none => s.setSbc { b.backToRunning with stuckTimes := [] }
      else s.setSbc b
    else s
  | .idle | .pulse _ => s

/-! ### The replacement of the poll list (R17, R56) -/

/-- The same entry: role and address both equal. -/
def sameEntry (d d' : PollDef) : Bool := d.role == d'.role && d.addr == d'.addr

/-- An entry of the new list, which keeps the working state of the same entry of the old one. A disabled one holds no
value. -/
def carryEntry (old : List Entry) (d : PollDef) : Entry :=
  match old.find? (fun e => sameEntry e.pd d) with
  | some e => if d.enable then { e with pd := d } else { e with pd := d, slot := none, stale := true }
  | none => .fresh d

/-- A held value that is fresh. -/
def Entry.fresh? (e : Entry) : Bool := e.slot.isSome && !e.stale

/-- What the replacement of the list does about one entry of the old list that was listed (R17). -/
def replaceEvent (new : List Entry) (e : Entry) (s : State) : State :=
  match new.find? (fun e' => e'.pd.role == e.pd.role) with
  | none =>
    let s1 := s.queueReport .sensorState (sensorStateBody { e with slot := none, stale := true } true)
    if e.fresh? then deliverStale e.pd.role s1 else s1
  | some e' =>
    if !e'.pd.enable then
      let e'' := if sameEntry e.pd e'.pd then e' else { e with slot := none, stale := true }
      let s1 := s.queueReport .sensorState (sensorStateBody e'' true)
      if e.fresh? then deliverStale e.pd.role s1 else s1
    else if sameEntry e.pd e'.pd then s
    else if e.fresh? then deliverStale e.pd.role (reportEntry e' s)
    else s

/-- The transaction in progress after the replacement: discarded when its entry did not survive (R17). -/
def Txn.survive (t : Txn) (new : List Entry) : Txn :=
  let kept (r : Role) (a : Nat) := new.any (fun e => e.pd.role == r && e.pd.addr == a)
  match t.kind with
  | .poll r a => { t with discarded := t.discarded || !kept r a }
  | .attempt r a => { t with discarded := t.discarded || !kept r a }
  | .pass => t

/-- A taken POLL_WRITE: the entries, the round's unpolled entries, the events of the roles lost, then the recomputation
(R17, R56). The events of several roles need no order. A round that is still waiting behind an older transaction counts as the
current one, whose unpolled entries are dropped (DESIGN CHOICE, notes/assumptions/34.md). -/
def takePollWrite (list : List PollDef) (s : State) : State :=
  let old := s.sbc.entries
  let new := list.map (carryEntry old)
  let s1 := s.setSbc { s.sbc with entries := new, due := [], txn := s.sbc.txn.map (fun t => t.survive new) }
  recompute (runAny ((old.filter (·.pd.enable)).map (replaceEvent new)) s1)

end Sys2Proof.Machine
end

