-- ==== Sys2Proof/Machine/Settings.lean ====
section
/-! DEFINITION. The State Controller (10_operating_states_and_stored_settings): operating states, the start, the settings
image and its parameters, COMMIT, and the resets. -/

namespace Sys2Proof.Machine

/-! ### Changes of the operating state (R192, R179, R35) -/

/-- The mask of the STATE source in an operating state (R179). -/
def stateMask : OpState → LineMask
  | .start => motionLines
  | .standby => motionLines
  | .run => 0#6
  | .service => 0#6

/-- The bus runs in an operating state (R35). -/
def busRuns : OpState → Bool
  | .start => false
  | .standby => false
  | .run => true
  | .service => true

/-- The STATE_CHANGE body (R192, R222). -/
def stateChangeBody (new old : OpState) (bad : Bool) : List Byte := be1 new.num ++ be1 old.num ++ be1 (bitOf 0 bad)

/-- What the blocks do at a change of the operating state: the report, the STATE mask when it changes (R179), the bus
(R35), and at the leaving of SERVICE the overrides (R138), a working CAL_SPAN (R106) and a passthrough not yet issued
(R38). The blocks need no order. WGE takes no event here (R89): what a standby empties of it shows at its first LINK arrival
(DEDUCED, notes/assumptions/35.md). Nor does POS (R58): a pose still valid at the wake from a short standby stays so, although R200
has it UNKNOWN until SLEW, MAIN and OUTER have returned (DEDUCED, notes/assumptions/46.md). -/
def stateHandOvers (old new : OpState) (bad : Bool) : List (State → State) :=
  [fun s => s.queueReport .stateChange (stateChangeBody new old bad)] ++
    (if stateMask old = stateMask new then [] else [present .state (stateMask new)]) ++
    (if busRuns old = busRuns new then [] else if busRuns new then [busStart] else [busStop]) ++
    (if old = .service then [clearOverrides, endCal .aborted, endWaitingPass .aborted] else [])

/-- The operating state changes and is handed to the blocks (R192). -/
def changeState (new : OpState) (s : State) : State :=
  runAny (stateHandOvers s.stc.op new s.stc.settingsBad) (s.setStc { s.stc with op := new })

/-! ### The parameters (R201, R202) -/

/-- The parameters of R201. -/
inductive Param where
  | l1 | l2 | teleMax | column | slewOff
  | z | span | lMin | d | rs | rm | n | nMin | zb
  | slewLo | slewHi | reachLo | reachHi
  | pageSize | k | fMin | uWarn | uHold | uRel | permitS
  deriving DecidableEq, Repr

/-- The id of a parameter (R201). -/
def Param.code : Param → Nat
  | .l1 => 0x01
  | .l2 => 0x02
  | .teleMax => 0x03
  | .column => 0x04
  | .slewOff => 0x05
  | .z => 0x10
  | .span => 0x11
  | .lMin => 0x12
  | .d => 0x13
  | .rs => 0x14
  | .rm => 0x15
  | .n => 0x16
  | .nMin => 0x17
  | .zb => 0x18
  | .slewLo => 0x20
  | .slewHi => 0x21
  | .reachLo => 0x22
  | .reachHi => 0x23
  | .pageSize => 0x30
  | .k => 0x31
  | .fMin => 0x32
  | .uWarn => 0x33
  | .uHold => 0x34
  | .uRel => 0x35
  | .permitS => 0x36

def Param.all : List Param :=
  [.l1, .l2, .teleMax, .column, .slewOff, .z, .span, .lMin, .d, .rs, .rm, .n, .nMin, .zb, .slewLo, .slewHi, .reachLo,
   .reachHi, .pageSize, .k, .fMin, .uWarn, .uHold, .uRel, .permitS]

/-- The parameter an id names, if any (R201). -/
def Param.ofCode (c : Nat) : Option Param := Param.all.find? (fun p => p.code == c)

/-- The range of a parameter; that of N_min, U_warn and U_rel ends at a working value (R201, R202). The page size is
limited to its three values before any range. -/
def Param.range (c : Settings) : Param → Int × Int
  | .l1 => (1000, 8000)
  | .l2 => (1000, 8000)
  | .teleMax => (0, 4000)
  | .column => (0, 4000)
  | .slewOff => (0, 3599)
  | .z => (-8388608, 8388607)
  | .span => (1, 65535)
  | .lMin => (50, 2000)
  | .d => (10, 1000)
  | .rs => (10, 1800)
  | .rm => (10, 900)
  | .n => (16, 256)
  | .nMin => (8, c.weigh.n)
  | .zb => (0, 500)
  | .slewLo => (0, 3599)
  | .slewHi => (0, 3599)
  | .reachLo => (0, 20000)
  | .reachHi => (0, 20000)
  | .pageSize => (125, 500)
  | .k => (0, 100)
  | .fMin => (256, 1024)
  | .uWarn => (500, min 1500 (c.cap.uHold : Int))
  | .uHold => (600, 1500)
  | .uRel => (500, (c.cap.uHold : Int) - 10)
  | .permitS => (5, 60)

/-- The working value of a parameter (R202). -/
def Param.read (s : State) : Param → Int
  | .l1 => s.cfg.geo.l1
  | .l2 => s.cfg.geo.l2
  | .teleMax => s.cfg.geo.teleMax
  | .column => s.cfg.geo.column
  | .slewOff => s.cfg.geo.slewOff
  | .z => s.wge.z
  | .span => s.wge.span
  | .lMin => s.cfg.weigh.lMin
  | .d => s.cfg.weigh.d
  | .rs => s.cfg.weigh.rs
  | .rm => s.cfg.weigh.rm
  | .n => s.cfg.weigh.n
  | .nMin => s.cfg.weigh.nMin
  | .zb => s.cfg.weigh.zb
  | .slewLo => s.cfg.zones.slewLo
  | .slewHi => s.cfg.zones.slewHi
  | .reachLo => s.cfg.zones.reachLo
  | .reachHi => s.cfg.zones.reachHi
  | .pageSize => s.cfg.cap.pageSize
  | .k => s.cfg.cap.k
  | .fMin => s.cfg.cap.fMin
  | .uWarn => s.cfg.cap.uWarn
  | .uHold => s.cfg.cap.uHold
  | .uRel => s.cfg.cap.uRel
  | .permitS => s.cfg.cap.permitS

/-- The working settings with one parameter replaced; z and s are no part of them (R92). -/
def Param.store (v : Nat) (c : Settings) : Param → Settings
  | .l1 => { c with geo := { c.geo with l1 := v } }
  | .l2 => { c with geo := { c.geo with l2 := v } }
  | .teleMax => { c with geo := { c.geo with teleMax := v } }
  | .column => { c with geo := { c.geo with column := v } }
  | .slewOff => { c with geo := { c.geo with slewOff := v } }
  | .z => c
  | .span => c
  | .lMin => { c with weigh := { c.weigh with lMin := v } }
  | .d => { c with weigh := { c.weigh with d := v } }
  | .rs => { c with weigh := { c.weigh with rs := v } }
  | .rm => { c with weigh := { c.weigh with rm := v } }
  | .n => { c with weigh := { c.weigh with n := v } }
  | .nMin => { c with weigh := { c.weigh with nMin := v } }
  | .zb => { c with weigh := { c.weigh with zb := v } }
  | .slewLo => { c with zones := { c.zones with slewLo := v } }
  | .slewHi => { c with zones := { c.zones with slewHi := v } }
  | .reachLo => { c with zones := { c.zones with reachLo := v } }
  | .reachHi => { c with zones := { c.zones with reachHi := v } }
  | .pageSize => { c with cap := { c.cap with pageSize := v } }
  | .k => { c with cap := { c.cap with k := v } }
  | .fMin => { c with cap := { c.cap with fMin := v } }
  | .uWarn => { c with cap := { c.cap with uWarn := v } }
  | .uHold => { c with cap := { c.cap with uHold := v } }
  | .uRel => { c with cap := { c.cap with uRel := v } }
  | .permitS => { c with cap := { c.cap with permitS := v } }

/-- The companions that a write of a value moves, with the values they move to (R202). -/
def Param.companions (c : Settings) (v : Int) : Param → List (Param × Int)
  | .uHold =>
    (if v < c.cap.uWarn then [(Param.uWarn, v)] else []) ++ (if v - 10 < c.cap.uRel then [(Param.uRel, v - 10)] else [])
  | .n => if v < c.weigh.nMin then [(Param.nMin, v)] else []
  | _ => []

/-- What the block of a parameter does at a taken write (R55, R86, R93, R141, R148). -/
def Param.act (v : Int) : Param → State → State
  | .l1 => recompute
  | .l2 => recompute
  | .teleMax => recompute
  | .column => recompute
  | .slewOff => recompute
  | .slewLo => recompute
  | .slewHi => recompute
  | .reachLo => recompute
  | .reachHi => recompute
  | .z => writeZ v
  | .span => writeSpan v.toNat
  | .pageSize => cpmEvaluate
  | .k => cpmEvaluate
  | .fMin => cpmEvaluate
  | .uWarn => cpmEvaluate
  | .uHold => cpmEvaluate
  | .uRel => cpmEvaluate
  | .lMin => id
  | .d => id
  | .rs => id
  | .rm => id
  | .n => id
  | .nMin => id
  | .zb => id
  | .permitS => id

/-- The value a write takes: the value sent, clamped to the nearer end of the range (R202). -/
def Param.taken (c : Settings) (v : Int) (p : Param) : Int := saturate (p.range c).1 (p.range c).2 v

/-- A taken write: the value and every companion stored, then the block's own act, once (R202). -/
def takeParam (p : Param) (v : Int) (s : State) : State :=
  let moved := p.companions s.cfg v
  let c := moved.foldl (fun c m => m.1.store m.2.toNat c) (p.store v.toNat s.cfg)
  p.act v (s.setCfg c)

/-! ### The settings image and COMMIT (R193, R203) -/

/-- What a COMMIT collects from the blocks (R201, R203). -/
def State.collect (s : State) : ImageContents where
  settings := s.cfg
  z := s.wge.z
  span := s.wge.span
  pollList := s.sbc.entries.map (·.pd)
  locked := s.wt.entries.map (fun x => if x.d.owner = .locked then some x.d else none)

/-- A COMMIT works. -/
def State.committing (s : State) : Bool := s.stc.commit.isSome

/-- A COMMIT is accepted: the collection is made and the stored image marked invalid (R203). -/
def startCommit (s : State) : State :=
  s.setStc { s.stc with commit := some s.collect, image := { s.stc.image with invalid := true } }

/-- COMMIT_DONE: the work of a COMMIT ends (R203). -/
def commitEnd (ok : Bool) (s : State) : State :=
  match s.stc.commit with
  | some c =>
    if ok then
      (s.setStc { s.stc with
        commit := none, settingsBad := false
        image := { contents := c, check := Config.settingsCheck c, invalid := false } }).finishWork
        .commit (be1 WorkCode.ok.num)
    else (s.setStc { s.stc with commit := none }).finishWork .commit (be1 WorkCode.writeFail.num)
  | none => s

/-- The finding of a preload on the image: good when it was read whole, is not marked invalid, and its check matches its
contents (R193). -/
def StoredImage.good (i : StoredImage) (readFailed : Bool) : Bool :=
  !readFailed && !i.invalid && i.check == Config.settingsCheck i.contents

/-! ### The end of START (R194) -/

/-- The contents installed when the image is bad (R194, R92). -/
def defaultContents : ImageContents where
  settings := defaultSettings
  z := defaultZ
  span := defaultSpan
  pollList := []
  locked := Vector.replicate 8 none

/-- SBC takes the poll list (R40, R194). -/
def installPollList (l : List PollDef) (s : State) : State := s.setSbc { s.sbc with entries := l.map Entry.fresh }

/-- POS takes the geometry and the zones and recomputes once (R55, R194). -/
def installPose (g : Geometry) (z : Zones) (s : State) : State := recompute (s.setCfg { s.cfg with geo := g, zones := z })

/-- WGE takes the weighing parameters and, unless it keeps the retained ones, zero and span (R92, R194). -/
def installWeigh (keep : Bool) (c : ImageContents) (s : State) : State :=
  let s1 := s.setCfg { s.cfg with weigh := c.settings.weigh }
  if keep then s1 else s1.setWge { s1.wge with z := c.z, span := c.span }

/-- CPM takes its settings and evaluates once (R142, R194). -/
def installCapacity (c : CapParams) (s : State) : State := cpmEvaluate (s.setCfg { s.cfg with cap := c })

/-- The installation of contents in the blocks, in any order (R194). -/
def install (good : Bool) (c : ImageContents) (s : State) : State :=
  runAny
    [installPollList c.pollList, installPose c.settings.geo c.settings.zones, installWeigh (good && s.stc.startWarm) c,
     installCapacity c.settings.cap, makeEntries c.locked]
    (s.setCfg { s.cfg with sw := c.settings.sw })

/-- PRELOAD_DONE: the settings are installed, with the zero and the span of a cold start the last cold values in place, so that the
marker is intact from here on (R195; notes/assumptions/36.md); then the state changes (R193, R194). A read failure leaves no mark
on the stored image: a later start that reads it whole finds it good by R193, although R194 has every start until a COMMIT take the
defaults (DEDUCED, notes/assumptions/45.md). -/
def preloadDone (readFailed : Bool) (s : State) : State :=
  if s.stc.preloading then
    let good := s.stc.image.good readFailed
    let contents := if good then s.stc.image.contents else defaultContents
    let s1 := install good contents s
    changeState (if good then .run else .service)
      (s1.setStc { s1.stc with preloading := false, settingsBad := !good, imageBad := !good, marker := true })
  else s

/-! ### Resets (R193, R195, R204, R220) -/

/-- The retained watch entries: the OPEN definitions, with the working fields as a reset leaves them (R171, R176). -/
def retainedEntries (es : Vector WatchEntry 8) : Vector WatchEntry 8 :=
  es.map (fun x => .of (if x.d.owner = .open_ then x.d else defaultWatchDef))

/-- The part right after a reset: retained memory as it stood for a warm one, at its cold values for a cold one; the
stored image and the model's own fields kept; everything else as State.reset has it (R40, R58, R91, R92, R135, R157,
R176, R190, R195, R205, R220). -/
def afterReset (warm : Bool) (s : State) : State :=
  { State.reset with
    tlu := if warm then s.tlu else .reset
    wge := if warm then { Wge.reset with z := s.wge.z, span := s.wge.span } else .reset
    wt := if warm then { Wt.reset with entries := retainedEntries s.wt.entries } else .reset
    stc := { Stc.reset with image := s.stc.image, startWarm := warm, marker := warm }
    sched := s.sched
    pending := s.pending }

/-- POWER_ON: cold or warm by the retained-valid marker (R195). -/
def powerOn (s : State) : State := afterReset s.stc.marker s

/-- SUPPLY_LOSS: working state is lost, the image and the retained memory stay; the marker stays only while the backup
supply has held (R195). -/
def supplyLoss (backupInterrupted : Bool) (s : State) : State :=
  let s1 := afterReset true s
  (s1.setPowered false).setStc { s1.stc with marker := s.stc.marker && !backupInterrupted }

/-- RESTART_RESET, when the reset of a RESTART is due: a warm start (R204). -/
def restartReset (s : State) : State := if s.stc.restart = .due then afterReset true s else s

end Sys2Proof.Machine
end

