-- ==== Sys2Proof/Machine/Operands.lean ====
section
/-! DEFINITION. The bodies of requests as the part reads them (R222): the lengths a kind allows, and the fields of each
body. Bits of a marks byte that no rule names are ignored (R221). -/

namespace Sys2Proof.Machine

/-! ### Lengths (R207 row 6, R222) -/

/-- A CHART_WRITE body's length matches its count (R222). -/
def chartWriteFits (body : List Byte) : Bool :=
  5 ≤ body.length && body.length ≤ 194 && body.length == 2 + 3 * natAt body 1 1

/-- The body length is one that the kind allows (R222). -/
def bodyFits (r : Req) (body : List Byte) : Bool :=
  match r with
  | .status | .pose | .sensors | .pollRead | .busRestart | .tripClose | .totalsReset | .tare | .permit | .captureRead
  | .linesRead | .enterService | .leaveService | .standby | .commit | .restart => body.length == 0
  | .pollWrite => body.length % 4 == 0 && body.length ≤ 48
  | .sensorPass => 2 ≤ body.length && body.length ≤ 10
  | .setAssortment | .defineAssortment | .deleteAssortment | .tallyRead | .hitClear | .holdManual | .lineFaultClear
  | .paramRead | .features => body.length == 1
  | .logRead | .assignLift | .tripRead => body.length == 3
  | .voidLift | .calSpan | .chartRead | .reportEnable => body.length == 2
  | .chartWrite => chartWriteFits body
  | .overrideSet | .paramWrite => body.length == 5
  | .watchRead => body.length ≤ 1
  | .watchWrite => body.length == 16

/-! ### POLL_WRITE (R16) -/

/-- A bus address a poll list entry or a passthrough may name (R15, R36). -/
def addrAllowed (a : Nat) : Bool := 0x08 ≤ a && a ≤ 0x77

/-- A period a poll list entry may have (R15). -/
def periodAllowed (p : Nat) : Bool := p == 1 || p == 2 || p == 5 || p == 10

/-- One entry of a POLL_WRITE body, if each field is in its set (R16). -/
def pollDefOf (r a p e : Byte) : Option PollDef :=
  match roleOf r.toNat with
  | some role =>
    if addrAllowed a.toNat && periodAllowed p.toNat then
      some { role := role, addr := a.toNat, period := p.toNat, enable := e.getLsbD 0 }
    else none
  | none => none

/-- The entries of a POLL_WRITE body; `none` is the first row of R16's table. -/
def pollDefsOf : List Byte → Option (List PollDef)
  | [] => some []
  | r :: a :: p :: e :: rest =>
    match pollDefOf r a p e, pollDefsOf rest with
    | some d, some ds => some (d :: ds)
    | _, _ => none
  | [_] | [_, _] | [_, _, _] => none

/-- Two entries with the same role, or with the same address (R16). -/
def pollClash : List PollDef → Bool
  | [] => false
  | d :: ds => ds.any (fun d' => d.role == d'.role || d.addr == d'.addr) || pollClash ds

/-- An entry's period is above its role's maximum (R16). -/
def periodTooLong (d : PollDef) : Bool := maxPeriod d.role < d.period

/-- An entry with its period limited to its role's maximum (R16). -/
def clampPeriod (d : PollDef) : PollDef := { d with period := min d.period (maxPeriod d.role) }

/-! ### SENSOR_PASS (R36) -/

/-- The passthrough of a SENSOR_PASS body, if its address and its read count are allowed (R36). -/
def passOf (body : List Byte) : Option Passthrough :=
  if addrAllowed (natAt body 0 1) && natAt body 1 1 ≤ 8 then
    some { addr := natAt body 0 1, count := natAt body 1 1, writes := body.drop 2 }
  else none

/-! ### Lines (R181, R188, R222) -/

/-- A byte of line marks, if it marks no line unknown to the part. -/
def linesAt (body : List Byte) (i : Nat) : Option LineMask :=
  if natAt body i 1 < 64 then some (BitVec.ofNat 6 (natAt body i 1)) else none

/-! ### WATCH_WRITE (R172) -/

/-- An index 0..7. -/
def indexAt (body : List Byte) (i : Nat) : Option (Fin 8) :=
  if h : natAt body i 1 < 8 then some ⟨natAt body i 1, h⟩ else none

/-- The index and the definition a WATCH_WRITE body carries, if each is a member of its set (R172, row 1). A chain set in a
write to an odd entry is ignored. -/
def watchDefOf (body : List Byte) : Option (Fin 8 × WatchDef) := do
  let k ← indexAt body 0
  let q ← quantityOf (natAt body 2 1)
  let m ← modeOf (natAt body 3 1)
  let act ← actionOf (natAt body 12 1)
  let mask ← linesAt body 13
  let own ← ownerOf (natAt body 15 1)
  pure (k,
    { enable := (byteAt body 1).getLsbD 0
      quantity := q
      mode := m
      a := intAt body 4 4
      b := intAt body 8 4
      action := act
      holdMask := mask
      chain := k.val % 2 == 0 && (byteAt body 14).getLsbD 0
      owner := own })

/-- Row 2 of R172. -/
def limitsCrossed (d : WatchDef) : Bool := (d.mode == .inside || d.mode == .outside) && d.b < d.a && d.quantity != .slew

/-! ### The chart (R138 to R140) -/

/-- A run of chart pages that lies within the chart: first page 0..63, count 1..64 (R139, R140). -/
def runAllowed (first count : Nat) : Bool := first ≤ 63 && 1 ≤ count && count ≤ 64 && first + count ≤ 64

/-- The chart entry a CHART_WRITE body carries for the i-th page of its run (R222). -/
def chartEntryAt (body : List Byte) (i : Nat) : ChartEntry :=
  { cap := natAt body (2 + 3 * i) 2
    valid := (byteAt body (4 + 3 * i)).getLsbD 0
    derate := (byteAt body (4 + 3 * i)).getLsbD 1 }

/-- The chart with the run of a CHART_WRITE body replaced (R139). -/
def chartWritten (body : List Byte) (chart : Vector ChartEntry 64) : Vector ChartEntry 64 :=
  let first := natAt body 0 1
  let count := natAt body 1 1
  Vector.ofFn (fun p : Fin 64 =>
    if first ≤ p.val ∧ p.val < first + count then chartEntryAt body (p.val - first) else chart[p])

/-- The slot and the fields an OVERRIDE_SET body carries, if slot and page are in their ranges (R138). -/
def overrideOf (body : List Byte) : Option (Fin 3 × Override) :=
  if h : natAt body 0 1 < 3 then
    if natAt body 1 1 ≤ 63 then
      some (⟨natAt body 0 1, h⟩,
        { page := natAt body 1 1, value := natAt body 2 2, enable := (byteAt body 4).getLsbD 0 })
    else none
  else none

/-! ### The tally -/

/-- The outcome an ASSIGN_LIFT may carry (R130). -/
def assignOutcomeOf : Nat → Option LiftOutcome
  | 0 => some .add
  | 1 => some .remove
  | _ => none

end Sys2Proof.Machine
end

