-- ==== Sys2Proof/Machine/Flags.lean ====
section
/-! DEFINITION. The marks and flags bytes of replies and of STATUS, bit by bit (R221, R222). -/

namespace Sys2Proof.Machine

/-- Bits 0, 1, 2, … of a number, from a list of conditions, lowest bit first. -/
def packFrom : Nat → List Bool → Nat
  | _, [] => 0
  | k, b :: bs => bitOf k b + packFrom (k + 1) bs

def packBits (bs : List Bool) : Nat := packFrom 0 bs

/-- STATUS, offset 1. -/
def statusFlags (s : State) : Nat :=
  packBits
    [s.stc.settingsBad, s.committing, s.stc.startWarm, s.stc.imageBad, s.cfg.sw.dynReject, s.cfg.sw.autoZero,
     s.cfg.sw.sectorDerate]

/-- STATUS, offset 8. -/
def weighFlags (s : State) : Nat :=
  packBits
    [s.wge.lift.isSome, (s.wge.lift.bind (·.mass)).isSome, s.wge.liveMass.ok, s.wge.zeroSuspect, s.wge.azRuns s.cfg]

/-- STATUS, offset 45. -/
def capFlags (c : Cpm) : Nat := packBits [c.uOk, c.figOk, c.figOk, c.figOk, c.ovUsed.isSome, c.permit.isSome]

/-- STATUS, offsets 50 and 51. -/
def hitFlags (w : Wt) : Nat := packBits (w.entries.toList.map (·.hit))
def matchFlags (w : Wt) : Nat := packBits (w.entries.toList.map (·.matching))

/-- STATUS, offset 52. -/
def captureFlags (w : Wt) : Nat :=
  packBits [w.capture.isSome, (match w.capture with | some c => c.overrun | none => false)]

/-- STATUS, offset 54: the lines WT presents across all its sources (R175). -/
def watchLines (m : HoldMasks) : LineMask := m.watch.toList.foldl (· ||| ·) 0#6

/-- The validity marks of a POSE reply (R222). -/
def poseMarks (p : Pose) : Nat :=
  packBits
    [p.s.ok, p.alpha.ok, p.beta.ok, p.e.ok, p.gamma.ok, p.r.ok, p.h.ok, p.pitch.ok, p.roll.ok, p.t.ok, p.slewRate.ok,
     p.mainRate.ok]

/-- The flags of a POSE reply (R222). -/
def poseFlags (p : Pose) (b : Sbc) : Nat :=
  packBits [p.valid, p.reachClamped, p.teleClamped, b.listed .tele, b.listed .tilt]

/-- The marks of an entry in a SENSORS reply (R222). -/
def sensorMarks (e : Entry) : Nat :=
  packBits
    [e.pd.enable, e.expectWaking, e.slot.isSome, (match e.slot with | some x => x.mark | none => false), e.stale]

/-- The marks of a slot in a TALLY_READ reply (R222). -/
def slotMarks (o : Option AsnSlot) : Nat :=
  packBits [o.isNone, (match o with | some x => x.saturated | none => false)]

/-- The marks of a page in a CHART_READ reply (R222). -/
def pageMarks (e : ChartEntry) (overridden : Bool) : Nat := packBits [e.valid, e.derate, overridden]

/-- The marks of an entry in a WATCH_READ reply (R222). -/
def watchMarks (w : Wt) (k : Fin 8) : Nat :=
  packBits
    [w.entries[k].hit, w.entries[k].matching, w.entries[k].last.isSome,
     k.val % 2 == 0 && w.entries[k].d.chain && w.pairs[coupleOf k]]

/-- The validity and the marks of a CAPTURE_READ reply (R222). -/
def captureValidity (c : Capture) : Nat := packBits [c.s.ok, c.alpha.ok, c.beta.ok, c.e.ok, c.r.ok, c.h.ok]
def captureMarks (c : Capture) : Nat := packBits [c.live.ok, c.u.ok, c.tag.isSome, c.overrun]

/-- The switches byte of FEATURES (R222). -/
def switchBits (w : Switches) : Nat := packBits [w.dynReject, w.autoZero, w.sectorDerate]

end Sys2Proof.Machine
end

