-- ==== Sys2Proof/Machine/Layouts.lean ====
section
/-! DEFINITION. The bodies of the replies (R221, R222), field by field at the offsets the layouts give. -/

namespace Sys2Proof.Machine

/-- A signed quantity in two bytes. -/
def s2 (v : Int) : List Byte := beBytes 2 v

/-! ### STATUS (R219) -/

/-- Offsets 0 and 1 (R205). -/
def statePart (s : State) : List Byte := be1 s.stc.op.num ++ be1 (statusFlags s)

/-- Offsets 2 to 5 (R39): bus state, overrun flag, MISSING and stale listed entries. -/
def sensorSummary (b : Sbc) : List Byte :=
  let listed := b.entries.filter (·.pd.enable)
  be1 b.bus.num ++ be1 (bitOf 0 b.overrun) ++ be1 (listed.filter (fun e => e.state = .missing)).length ++
    be1 (listed.filter (·.stale)).length

/-- The zero and span work as STATUS shows it: its number, its count, the milliseconds left (R108). -/
def workPart (w : Wge) (now : Nat) : List Byte :=
  match w.tare, w.cal with
  | some t, _ => be1 1 ++ be1 t.count ++ be2 (t.deadline - now)
  | none, some k => be1 2 ++ be1 k.count ++ be2 0
  | none, none => be1 0 ++ be1 0 ++ be2 0

/-- Offsets 6 to 26 (R90, R108). -/
def weighPart (s : State) : List Byte :=
  let w := s.wge
  be1 w.liftState.num ++ be1 (w.tag.getD 0) ++ be1 (weighFlags s) ++ be2 ((w.lift.map (·.n)).getD 0) ++
    be1 ((w.lift.map (·.confirm)).getD 0) ++ be2 ((w.lift.bind (·.mass)).getD 0) ++ s2 w.liveMass.val ++
    be1 ((w.lift.map (·.flags.bits)).getD 0) ++ beBytes 3 w.z ++ be2 w.span ++ be1 w.az.count ++ workPart w s.now

/-- Offsets 27 to 36 (R133). -/
def tallyPart (t : Tlu) : List Byte :=
  be1 t.current ++ be1 t.trip.state.num ++ be2 t.trip.number ++ be4 t.bunkTotal ++ be2 t.nextLift

/-- Offsets 37 to 49 (R156). -/
def capPart (c : Cpm) (now : Nat) : List Byte :=
  be1 c.monitor.num ++ be2 c.u ++ be1 c.page ++ be2 c.f ++ be2 c.cEff ++ be1 (capFlags c) ++
    be1 ((c.ovUsed.map (·.val)).getD 0) ++ be1 (c.overrides.toList.filter (·.enable)).length ++
    be2 ((c.permit.map (fun d => d - now)).getD 0)

/-- Offsets 50 to 54 (R175). -/
def watchPart (w : Wt) (m : HoldMasks) : List Byte :=
  be1 (hitFlags w) ++ be1 (matchFlags w) ++ be1 (captureFlags w) ++ be1 ((w.capture.map (·.entry.val)).getD 0) ++
    be1 (watchLines m).toNat

/-- Offsets 55 to 57 (R189). -/
def holdPart (h : Hls) : List Byte := be1 h.masks.levels.toNat ++ be1 h.faultFlags.toNat ++ be1 h.masks.manual.toNat

/-- Offsets 58 to 62, for the port that asked (R219). -/
def portPart (m : Mpt) (p : Port) : List Byte :=
  be2 (m.port p).enable.toNat ++ be1 (m.port p).queue.length ++ be1 (bitOf 0 (m.port p).gap) ++ be1 m.slotsInUse

/-- The 63 bytes of STATUS (R219, R221). -/
def statusBody (s : State) (p : Port) : List Byte :=
  statePart s ++ sensorSummary s.sbc ++ weighPart s ++ tallyPart s.tlu ++ capPart s.cpm s.now ++
    watchPart s.wt s.hls.masks ++ holdPart s.hls ++ portPart s.mpt p

/-! ### POSE and the sensors (R57, R39, R18) -/

def poseBody (p : Pose) (b : Sbc) : List Byte :=
  s2 p.s.val ++ s2 p.alpha.val ++ s2 p.beta.val ++ s2 p.e.val ++ s2 p.gamma.val ++ s2 p.r.val ++ s2 p.h.val ++
    s2 p.pitch.val ++ s2 p.roll.val ++ s2 p.t.val ++ s2 p.slewRate.val ++ s2 p.mainRate.val ++ be2 (poseMarks p) ++
    be1 p.zone.num ++ be1 p.sector.num ++ be1 (poseFlags p b)

/-- The age of a held value, saturated at 65,535 ms (R9). -/
def ageOf (x : Sample) (now : Nat) : Nat := min 65535 (now - x.time)

/-- One entry of a SENSORS reply. -/
def sensorBytes (e : Entry) (now : Nat) : List Byte :=
  be1 (roleNum e.pd.role) ++ be1 e.pd.addr ++ be1 e.pd.period ++ be1 (sensorMarks e) ++ be1 e.state.num ++
    be1 e.failures ++ be1 e.last.num ++ beBytes 3 ((e.slot.map (·.value)).getD 0) ++
    be2 ((e.slot.map (fun x => ageOf x now)).getD 0) ++ be1 e.restarts

def sensorsBody (b : Sbc) (now : Nat) : List Byte :=
  be1 b.bus.num ++ be1 b.entries.length ++ (b.entries.map (fun e => sensorBytes e now)).flatten

/-- One entry of the poll list as POLL_WRITE carries it. -/
def pollBytes (d : PollDef) : List Byte := be1 (roleNum d.role) ++ be1 d.addr ++ be1 d.period ++ be1 (bitOf 0 d.enable)

def pollBody (b : Sbc) : List Byte := be1 b.entries.length ++ (b.entries.map (fun e => pollBytes e.pd)).flatten

/-! ### The tally (R133, R211) -/

/-- One slot of a TALLY_READ reply; absent fields carry 0 (R221). -/
def slotBytes (o : Option AsnSlot) : List Byte :=
  let x := o.getD (.fresh 0)
  be1 (slotMarks o) ++ be1 x.id ++ be4 x.loadedCount ++ be4 x.loadedMass ++ be4 x.bunkCount ++ be4 x.bunkMass ++
    be4 x.removedCount ++ be4 x.removedMass ++ be4 x.excessCount ++ be4 x.excessMass

/-- A TALLY_READ reply, part 1 to 4: slots 4 (part − 1) to 4 part − 1 (R211). -/
def tallyBody (t : Tlu) (part : Nat) : List Byte :=
  be1 t.current ++ be4 t.bunkTotal ++ be1 t.trip.state.num ++ be2 t.trip.number ++ be2 t.nextLift ++ be1 part ++
    (((t.table.toList.drop (4 * (part - 1))).take 4).map slotBytes).flatten

/-- A LOG_READ reply (R121). -/
def logBody (rs : List LogRecord) : List Byte := be1 rs.length ++ (rs.map liftRecordBytes).flatten

/-! ### The chart (R140) -/

/-- One page of a CHART_READ reply. -/
def pageBytes (c : CapParams) (ovs : Vector Override 3) (p : Fin 64) : List Byte :=
  let o := overrideFor ovs p.val
  be2 c.chart[p].cap ++ be1 (pageMarks c.chart[p] o.isSome) ++
    (match o with | some i => be2 ovs[i].value ++ be1 i.val | none => [])

def chartBody (c : CapParams) (ovs : Vector Override 3) (first count : Nat) : List Byte :=
  be2 c.pageSize ++ be1 first ++ be1 count ++
    (((List.finRange 64).filter (fun p => first ≤ p.val && p.val < first + count)).map (pageBytes c ovs)).flatten

/-! ### The watch table (R175, R170) -/

/-- The 15 bytes of a definition, in the order of WATCH_WRITE (R222). -/
def watchDefBytes (d : WatchDef) : List Byte :=
  be1 (bitOf 0 d.enable) ++ be1 (quantityNum d.quantity) ++ be1 (modeNum d.mode) ++ beBytes 4 d.a ++ beBytes 4 d.b ++
    be1 (actionNum d.action) ++ be1 d.holdMask.toNat ++ be1 (bitOf 0 d.chain) ++ be1 (ownerNum d.owner)

/-- One entry of a WATCH_READ reply. -/
def watchEntryBytes (w : Wt) (k : Fin 8) : List Byte :=
  be1 k.val ++ watchDefBytes w.entries[k].d ++ be1 (watchMarks w k) ++ beBytes 4 ((w.entries[k].last).getD 0)

def watchReply (w : Wt) (ks : List (Fin 8)) : List Byte := be1 ks.length ++ (ks.map (watchEntryBytes w)).flatten

/-- The CAPTURE_READ reply (R168, R222). -/
def captureBody (c : Capture) : List Byte :=
  be1 c.entry.val ++ beBytes 4 c.value ++ s2 c.s.val ++ s2 c.alpha.val ++ s2 c.beta.val ++ s2 c.e.val ++ s2 c.r.val ++
    s2 c.h.val ++ be1 (captureValidity c) ++ s2 c.live.val ++ s2 c.u.val ++ be1 (captureMarks c) ++ be1 c.lift.num ++
    be1 (c.tag.getD 0)

/-! ### The hold lines (R189) -/

/-- One line of a LINES_READ reply. -/
def lineBytes (h : Hls) (l : Line) : List Byte :=
  be1 (levelNum (some (h.masks.level l))) ++ be1 (levelNum (h.sense[l.idx]).observed) ++ be2 (h.masks.sourceBits l) ++
    be1 (sourceNum (h.masks.cause l)) ++ be1 (h.sense[l.idx]).mismatches ++ be1 (bitOf 0 (h.sense[l.idx]).fault)

def linesBody (h : Hls) : List Byte := (Line.all.map (lineBytes h)).flatten ++ be1 h.masks.manual.toNat

/-- The HOLD_MANUAL reply (R181). -/
def manualBody (h : Hls) : List Byte := be1 h.masks.manual.toNat ++ be1 h.masks.levels.toNat

/-- The LINE_FAULT_CLEAR reply (R188). -/
def faultsBody (h : Hls) : List Byte :=
  be1 h.faultFlags.toNat ++ (Line.all.map (fun l => be1 (h.sense[l.idx]).mismatches)).flatten

/-! ### The parameters (R202) -/

/-- One parameter's id and value. -/
def paramBytes (p : Param) (v : Int) : List Byte := be1 p.code ++ beBytes 4 v

/-- The PARAM_WRITE reply: the value taken and the companions moved (R202, R222). -/
def paramBody (p : Param) (v : Int) (moved : List (Param × Int)) : List Byte :=
  paramBytes p v ++ be1 moved.length ++ (moved.map (fun m => paramBytes m.1 m.2)).flatten

end Sys2Proof.Machine
end

