-- ==== Sys2Proof/Machine/Admission.lean ====
section
/-! DEFINITION. The admission of a request (R207, R212, R197) and the comparison of a delayed one with the slots (R213 to
R215). -/

namespace Sys2Proof.Machine

/-! ### The admission table (R212) -/

/-- The operating states in which the cab port admits a request (R212). -/
def cabStates : Req → List OpState
  | .status | .pose | .sensors | .tallyRead | .logRead | .tripRead | .chartRead | .watchRead | .linesRead
  | .reportEnable => [.run, .service]
  | .pollRead | .setAssortment | .defineAssortment | .deleteAssortment | .voidLift | .assignLift | .tripClose
  | .totalsReset | .tare | .permit | .watchWrite | .hitClear | .captureRead | .holdManual | .paramRead | .standby => [.run]
  | .pollWrite | .sensorPass | .busRestart | .calSpan | .chartWrite | .overrideSet | .lineFaultClear | .paramWrite
  | .features | .enterService | .leaveService | .commit | .restart => []

/-- The operating states in which the service port admits a request (R212). -/
def serviceStates : Req → List OpState
  | .status | .pose | .sensors | .pollRead | .busRestart | .tallyRead | .logRead | .tripRead | .chartRead | .watchRead
  | .captureRead | .linesRead | .lineFaultClear | .paramRead | .enterService | .leaveService | .restart
  | .reportEnable => [.run, .service]
  | .pollWrite | .sensorPass | .defineAssortment | .deleteAssortment | .tare | .calSpan | .chartWrite | .overrideSet
  | .watchWrite | .hitClear | .paramWrite | .features | .commit => [.service]
  | .setAssortment | .voidLift | .assignLift | .tripClose | .totalsReset | .permit | .holdManual | .standby => []

/-- A port admits a request in an operating state (R212). -/
def admits (p : Port) (op : OpState) (r : Req) : Bool :=
  match p with
  | .cab => (cabStates r).contains op
  | .service => (serviceStates r).contains op

/-- Row 4 of R207: the cab lockout of SERVICE (R197). The ten kinds left to the cab port are those R212 admits there. -/
def lockedOut (p : Port) (op : OpState) (r : Req) : Bool := p == .cab && op == .service && !admits p op r

/-- Rows 4 to 6 of R207: the refusal of a known kind before any owner sees it. -/
def refusal (p : Port) (op : OpState) (r : Req) (body : List Byte) : Option Code :=
  if lockedOut p op r then some .locked
  else if !admits p op r then some .wrongState
  else if !bodyFits r body then some .badField
  else none

/-! ### Two refusals whose order is open -/

/-- A refusal where two conditions may hold at once and the manual does not order them: a pick decides
(notes/assumptions/7.md). -/
def eitherRefusal (a b : Option Code) (s : State) : Option Code × State :=
  match a, b with
  | some x, some y => let (i, s') := s.pick 2; (some (if i = 0 then x else y), s')
  | some x, none => (some x, s)
  | none, b => (b, s)

/-! ### Delayed requests (R213, R214) -/

/-- A slot holds the request: same port, kind and body (R214). -/
def DelayedSlot.matchesRequest (d : DelayedSlot) (p : Port) (k : DelayedKind) (body : List Byte) : Bool :=
  d.port == p && d.kind == k && d.body == body

/-- A slot is WORKING. -/
def DelayedSlot.isWorking (d : DelayedSlot) : Bool :=
  match d.state with
  | .working => true
  | .done _ _ => false

/-- The slot that holds a request, if one does (R213: at most one). -/
def Mpt.matching (m : Mpt) (p : Port) (k : DelayedKind) (body : List Byte) : Option (Fin 4 × DelayedSlot) :=
  (List.finRange 4).findSome? (fun i =>
    match m.slots[i] with
    | some d => if d.matchesRequest p k body then some (i, d) else none
    | none => none)

/-- A slot holds the same port and kind with a different body, WORKING (R214, row 3). -/
def Mpt.conflicting (m : Mpt) (p : Port) (k : DelayedKind) (body : List Byte) : Bool :=
  m.slots.toList.any (fun o =>
    match o with
    | some d => d.port == p && d.kind == k && d.body != body && d.isWorking
    | none => false)

/-- A slot is freed. -/
def State.freeDelayed (s : State) (i : Fin 4) : State := s.setMpt { s.mpt with slots := s.mpt.slots.set i none }

/-- A delayed request past rows 1 to 6: a repeat is answered from its slot; a new one is judged by its owner, which
accepts it with the start of its work (R213, R214). `judge` answers the owner's refusal, if any, told whether a slot is
free. Another body while a slot of the port and kind is WORKING is BUSY before the owner sees it, also where the owner would
answer BAD_FIELD first (R214 over R103 and R36; DEDUCED, notes/assumptions/47.md). -/
def serveDelayed (p : Port) (k : DelayedKind) (body : List Byte)
    (judge : Bool → State → Option Code × State) (start : State → State) (s : State) : Answer × State :=
  match s.mpt.matching p k body with
  | some (i, d) =>
    match d.state with
    | .working => (.refuse .pending, s)
    | .done result _ => (.ok result, s.freeDelayed i)
  | none =>
    if s.mpt.conflicting p k body then (.refuse .busy, s)
    else
      match judge s.mpt.freeSlot.isSome s with
      | (some c, s') => (.refuse c, s')
      | (none, s') => (.refuse .pending, start (s'.takeSlot p k body))

end Sys2Proof.Machine
end

