-- ==== Sys2Proof/Machine/Requests.lean ====
section
/-! DEFINITION. What the owner of each request does with it once it is admitted (R207 row 8), one operation per request:
the answer and the part after it. -/

namespace Sys2Proof.Machine

/-! ### MPT (R218, R219) -/

/-- STATUS: the 63 bytes, then the round-overrun flag is cleared (R39, R219). -/
def serveStatus (p : Port) (_body : List Byte) (s : State) : Answer × State :=
  (.ok (statusBody s p), s.setSbc { s.sbc with overrun := false })

/-- REPORT_ENABLE (R218). -/
def serveReportEnable (p : Port) (body : List Byte) (s : State) : Answer × State :=
  let m := natAt body 0 2
  if m < 0x400 then
    (.ok (be2 m), s.setPort p { s.port p with enable := BitVec.ofNat 16 m })
  else (.refuse .badField, s)

/-! ### The sensor bus and the pose -/

/-- POSE (R57). -/
def servePose (_p : Port) (_body : List Byte) (s : State) : Answer × State := (.ok (poseBody s.pos.pose s.sbc), s)

/-- SENSORS (R39). -/
def serveSensors (_p : Port) (_body : List Byte) (s : State) : Answer × State := (.ok (sensorsBody s.sbc s.now), s)

/-- POLL_READ (R18). -/
def servePollRead (_p : Port) (_body : List Byte) (s : State) : Answer × State := (.ok (pollBody s.sbc), s)

/-- The refusal of a carried list: BAD_FIELD before CONFLICT (R16). -/
def pollRefusal (list : Option (List PollDef)) : Option Code :=
  match list with
  | none => some .badField
  | some l => if pollClash l then some .conflict else none

/-- POLL_WRITE (R16, R17, R203). -/
def servePollWrite (_p : Port) (body : List Byte) (s : State) : Answer × State :=
  let list := pollDefsOf body
  match eitherRefusal (if s.committing then some .busy else none) (pollRefusal list) s with
  | (some c, s') => (.refuse c, s')
  | (none, s') =>
    let l := list.getD []
    let taken := l.map clampPeriod
    let s1 := takePollWrite taken s'
    ({ code := if l.any periodTooLong then .clamped else .ok
       body := be1 taken.length ++ (taken.map pollBytes).flatten }, s1)

/-- SENSOR_PASS as SBC judges it: the fields, the passthrough slot, a free delayed slot (R36, R213). -/
def passJudged (p : Option Passthrough) (free : Bool) (s : State) : Option Code × State :=
  eitherRefusal (if p.isNone then some .badField else none) (if s.sbc.pass.isSome || !free then some .busy else none) s

/-- A passthrough is accepted: it waits, or in DOWN is completed at once with STUCK (R33, R36, R38). -/
def startPass (p : Passthrough) (s : State) : State :=
  let s1 := s.setSbc { s.sbc with pass := some p }
  if s1.sbc.bus = .down then endWaitingPass .stuck s1 else s1

/-- SENSOR_PASS (R36). -/
def serveSensorPass (p : Port) (body : List Byte) (s : State) : Answer × State :=
  serveDelayed p .sensorPass body (passJudged (passOf body))
    (match passOf body with | some x => startPass x | none => id) s

/-- BUS_RESTART (R34). In RUNNING it is OK, also while an earlier one waits for the transaction in progress: one recovery serves both
(DEDUCED, notes/assumptions/18.md). -/
def serveBusRestart (_p : Port) (_body : List Byte) (s : State) : Answer × State :=
  match s.sbc.bus with
  | .running =>
    if s.sbc.txn.isSome then
      (.ok [], s.setSbc { s.sbc with restartPending := true, due := [], roundActive := false })
    else (.ok [], s.setSbc (s.sbc.enterRecovering s.now))
  | .down => if s.sbc.attempting then (.refuse .busy, s) else (.ok [], s.setSbc (s.sbc.beginAttempt s.now))
  | .recovering => (.refuse .busy, s)
  | .stopped => (.refuse .busy, s)

/-! ### The tally -/

/-- SET_ASSORTMENT (R111). -/
def serveSetAssortment (_p : Port) (body : List Byte) (s : State) : Answer × State :=
  let id := natAt body 0 1
  if s.tlu.defined id then (.ok [], s.setTlu { s.tlu with current := id }) else (.refuse .notFound, s)

/-- DEFINE_ASSORTMENT (R112). -/
def serveDefineAssortment (_p : Port) (body : List Byte) (s : State) : Answer × State :=
  match s.tlu.define (natAt body 0 1) with
  | (c, t) => (.refuse c, s.setTlu t)

/-- DELETE_ASSORTMENT (R113). -/
def serveDeleteAssortment (_p : Port) (body : List Byte) (s : State) : Answer × State :=
  match s.tlu.delete (natAt body 0 1) with
  | (c, t) => (.refuse c, s.setTlu t)

/-- TALLY_READ (R133, R211). -/
def serveTallyRead (_p : Port) (body : List Byte) (s : State) : Answer × State :=
  let part := natAt body 0 1
  if 1 ≤ part ∧ part ≤ 4 then (.ok (tallyBody s.tlu part), s) else (.refuse .badField, s)

/-- LOG_READ (R121). -/
def serveLogRead (_p : Port) (body : List Byte) (s : State) : Answer × State :=
  let n := natAt body 1 2
  match natAt body 0 1 with
  | 0 =>
    if n = 0 then (.refuse .badField, s)
    else
      match s.tlu.find n with
      | some r => (.ok (logBody [r]), s)
      | none => (.refuse .notFound, s)
  | 1 => if 1 ≤ n ∧ n ≤ 8 then (.ok (logBody (s.tlu.log.reverse.take n)), s) else (.refuse .badField, s)
  | _ => (.refuse .badField, s)

/-- VOID_LIFT (R128, R129). -/
def serveVoidLift (_p : Port) (body : List Byte) (s : State) : Answer × State :=
  match s.tlu.voidJudged (natAt body 0 2) with
  | .error c => (.refuse c, s)
  | .ok r =>
    (.ok (liftRecordBytes { r with voided := true }), handBunkTotal s.tlu.bunkTotal (s.setTlu (s.tlu.reverse r)))

/-- ASSIGN_LIFT (R130). A close's TRIP_CLOSED report is queued before the changed bunk total is handed on, an order that R130 leaves
open (DESIGN CHOICE, notes/assumptions/42.md). -/
def serveAssignLift (_p : Port) (body : List Byte) (s : State) : Answer × State :=
  match s.tlu.assignJudged (natAt body 0 2) (assignOutcomeOf (natAt body 2 1)) with
  | .error c => (.refuse c, s)
  | .ok (r, o, m) =>
    let h := s.tlu.assign r o m
    let s1 := s.setTlu h.tlu
    let s2 := if h.closed then reportTripClosed h.tlu.trip s1 else s1
    (.ok (liftRecordBytes h.record), handBunkTotal s.tlu.bunkTotal s2)

/-- The trip a TRIP_READ body selects (R127, R222): `.error` with its refusal. A part outside 1..2 is refused before an
entry is looked for (DEDUCED, notes/assumptions/26.md). -/
def tripSelected (t : Tlu) (body : List Byte) : Except Code Trip :=
  let part := natAt body 2 1
  let k := natAt body 1 1
  if part < 1 ∨ 2 < part then .error .badField
  else
    match natAt body 0 1 with
    | 0 => .ok t.trip
    | 1 =>
      if k < 1 ∨ 8 < k then .error .badField
      else
        match t.history.reverse[k - 1]? with
        | some x => .ok x
        | none => .error .notFound
    | _ => .error .badField

/-- TRIP_READ (R127, R211). -/
def serveTripRead (_p : Port) (body : List Byte) (s : State) : Answer × State :=
  match tripSelected s.tlu body with
  | .ok t => (.ok (tripRecordBytes t (natAt body 2 1)), s)
  | .error c => (.refuse c, s)

/-- TRIP_CLOSE (R126). The TRIP_CLOSED report is queued before the changed bunk total is handed on, an order that R126 leaves open
(DESIGN CHOICE, notes/assumptions/42.md). -/
def serveTripClose (_p : Port) (_body : List Byte) (s : State) : Answer × State :=
  if s.tlu.trip.open? then
    let t := s.tlu.closeOrdered
    (.ok (be4 t.trip.writtenOff), handBunkTotal s.tlu.bunkTotal (reportTripClosed t.trip (s.setTlu t)))
  else (.refuse .wrongState, s)

/-- TOTALS_RESET (R131). -/
def serveTotalsReset (_p : Port) (_body : List Byte) (s : State) : Answer × State := (.ok [], s.setTlu s.tlu.newPeriod)

/-! ### Zero and span -/

/-- LINK is stale: absent, or its held value stale (R15, R28). -/
def State.linkIsStale (s : State) : Bool :=
  match s.sbc.listedEntry .link with
  | some e => e.stale
  | none => true

/-- TARE as WGE judges it (R98). -/
def tareJudged (free : Bool) (s : State) : Option Code × State :=
  (if s.wge.tare.isSome then some .busy
   else if s.wge.lift.isSome then some .wrongState
   else if !free then some .busy
   else none, s)

/-- A TARE accepted; one that finds LINK stale ends at once (R98). -/
def acceptTare (p : Port) (s : State) : State :=
  if s.linkIsStale then endTare .sensorLost (startTare p s) else startTare p s

/-- TARE (R98). -/
def serveTare (p : Port) (body : List Byte) (s : State) : Answer × State :=
  serveDelayed p .tare body tareJudged (acceptTare p) s

/-- CAL_SPAN as WGE judges it (R103). -/
def calJudged (mref : Nat) (free : Bool) (s : State) : Option Code × State :=
  (if mref < 500 ∨ 30000 < mref then some .badField
   else if s.wge.cal.isSome then some .busy
   else if s.wge.liftState = .open_ ∨ s.wge.liftState = .gripped then some .wrongState
   else if !free then some .busy
   else none, s)

/-- A CAL_SPAN accepted; one that finds LINK stale ends at once (R103). -/
def acceptCal (mref : Nat) (s : State) : State :=
  if s.linkIsStale then endCal .sensorLost (startCal mref s) else startCal mref s

/-- CAL_SPAN (R103). -/
def serveCalSpan (p : Port) (body : List Byte) (s : State) : Answer × State :=
  serveDelayed p .calSpan body (calJudged (natAt body 0 2)) (acceptCal (natAt body 0 2)) s

/-! ### The capacity monitor -/

/-- CHART_READ (R140). -/
def serveChartRead (_p : Port) (body : List Byte) (s : State) : Answer × State :=
  let first := natAt body 0 1
  let count := natAt body 1 1
  if runAllowed first count then (.ok (chartBody s.cfg.cap s.cpm.overrides first count), s) else (.refuse .badField, s)

/-- CHART_WRITE (R139, R203). -/
def serveChartWrite (_p : Port) (body : List Byte) (s : State) : Answer × State :=
  match eitherRefusal (if s.committing then some .busy else none)
      (if runAllowed (natAt body 0 1) (natAt body 1 1) then none else some .badField) s with
  | (some c, s') => (.refuse c, s')
  | (none, s') =>
    (.ok [], cpmEvaluate (s'.setCfg { s'.cfg with cap := { s'.cfg.cap with chart := chartWritten body s'.cfg.cap.chart } }))

/-- OVERRIDE_SET (R138). -/
def serveOverrideSet (_p : Port) (body : List Byte) (s : State) : Answer × State :=
  match overrideOf body with
  | some (i, o) => (.ok [], cpmTake (fun c => { c with overrides := c.overrides.set i o }) s)
  | none => (.refuse .badField, s)

/-- PERMIT (R152). -/
def servePermit (_p : Port) (_body : List Byte) (s : State) : Answer × State :=
  if s.cpm.permit.isSome then (.refuse .busy, s)
  else if s.cpm.monitor ≠ .hold then (.refuse .wrongState, s)
  else if 1200 ≤ s.cpm.u then (.refuse .wrongState, s)
  else (.ok (be1 s.cfg.cap.permitS), startPermit s)

/-! ### The watch table -/

/-- WATCH_READ (R175). -/
def serveWatchRead (_p : Port) (body : List Byte) (s : State) : Answer × State :=
  match body with
  | [] => (.ok (watchReply s.wt (List.finRange 8)), s)
  | _ =>
    match indexAt body 0 with
    | some k => (.ok (watchReply s.wt [k]), s)
    | none => (.refuse .badField, s)

/-- WATCH_WRITE as WT judges it, rows 3 to 6 of R172: a refusal, or the definition taken and the code. -/
def watchJudged (p : Port) (k : Fin 8) (d : WatchDef) (s : State) : Except Code (WatchDef × Code) :=
  let locks := s.wt.entries[k].d.owner = .locked ∨ d.owner = .locked
  match p with
  | .cab =>
    if locks then .error .locked
    else if k.val % 2 = 0 ∧ d.chain ∧ s.wt.entries[oddOf k].d.owner = .locked then
      .ok ({ d with chain := false }, .clamped)
    else .ok (d, .ok)
  | .service =>
    if locks ∧ s.committing then .error .busy
    else if s.wt.wouldConflict k d then .error .conflict
    else .ok (d, .ok)

/-- WATCH_WRITE (R172, R173). -/
def serveWatchWrite (p : Port) (body : List Byte) (s : State) : Answer × State :=
  match watchDefOf body with
  | none => (.refuse .badField, s)
  | some (k, d) =>
    if limitsCrossed d then (.refuse .badField, s)
    else
      match watchJudged p k d s with
      | .error c => (.refuse c, s)
      | .ok (d', c) =>
        let s1 := takeWatchWrite k d' s
        ({ code := c, body := watchReply s1.wt [k] }, s1)

/-- The hit flags cleared by a HIT_CLEAR: every marked one from the service port, those of OPEN entries from the cab port
(R174). -/
def hitsCleared (p : Port) (marks : Byte) (w : Wt) : Wt :=
  { w with entries := Vector.ofFn (fun k : Fin 8 =>
      let x := w.entries[k]
      if marks.getLsbD k.val ∧ (p = .service ∨ x.d.owner = .open_) then { x with hit := false } else x) }

/-- HIT_CLEAR (R174). -/
def serveHitClear (p : Port) (body : List Byte) (s : State) : Answer × State :=
  let w := hitsCleared p (byteAt body 0) s.wt
  (.ok (be1 (hitFlags w)), s.setWt w)

/-- CAPTURE_READ (R170). -/
def serveCaptureRead (_p : Port) (_body : List Byte) (s : State) : Answer × State :=
  match s.wt.capture with
  | some c => (.ok (captureBody c), s.setWt { s.wt with capture := none })
  | none => (.refuse .notFound, s)

/-! ### The hold lines -/

/-- HOLD_MANUAL (R181). -/
def serveHoldManual (_p : Port) (body : List Byte) (s : State) : Answer × State :=
  match linesAt body 0 with
  | some m => let s1 := present .manual m s; (.ok (manualBody s1.hls), s1)
  | none => (.refuse .badField, s)

/-- LINES_READ (R189). -/
def serveLinesRead (_p : Port) (_body : List Byte) (s : State) : Answer × State := (.ok (linesBody s.hls), s)

/-- LINE_FAULT_CLEAR (R188). -/
def serveLineFaultClear (_p : Port) (body : List Byte) (s : State) : Answer × State :=
  match linesAt body 0 with
  | some m => let s1 := clearFaults m s; (.ok (faultsBody s1.hls), s1)
  | none => (.refuse .badField, s)

/-! ### The state controller -/

/-- PARAM_READ (R202). -/
def serveParamRead (_p : Port) (body : List Byte) (s : State) : Answer × State :=
  match Param.ofCode (natAt body 0 1) with
  | some q => (.ok (paramBytes q (q.read s)), s)
  | none => (.refuse .badField, s)

/-- Row 2 of R202. -/
def badPageSize (q : Param) (v : Int) : Bool := q == .pageSize && v != 125 && v != 250 && v != 500

/-- PARAM_WRITE (R202). -/
def serveParamWrite (_p : Port) (body : List Byte) (s : State) : Answer × State :=
  match Param.ofCode (natAt body 0 1) with
  | none => (.refuse .badField, s)
  | some q =>
    let v := intAt body 1 4
    if badPageSize q v then (.refuse .badField, s)
    else if s.committing then (.refuse .busy, s)
    else
      let taken := q.taken s.cfg v
      let moved := q.companions s.cfg taken
      ({ code := if taken ≠ v ∨ !moved.isEmpty then .clamped else .ok, body := paramBody q taken moved },
       takeParam q taken s)

/-- The switches a FEATURES body carries (R222). -/
def switchesOf (body : List Byte) : Switches :=
  let b := byteAt body 0
  { dynReject := b.getLsbD 0, autoZero := b.getLsbD 1, sectorDerate := b.getLsbD 2 }

/-- The switches are written; a change of AUTO_ZERO empties the auto-zero window, and CPM evaluates (R97, R107, R141). -/
def takeSwitches (w : Switches) (s : State) : State :=
  let s1 := s.setCfg { s.cfg with sw := w }
  cpmEvaluate (if w.autoZero = s.cfg.sw.autoZero then s1 else s1.setWge { s1.wge with az := .empty })

/-- FEATURES (R202). -/
def serveFeatures (_p : Port) (body : List Byte) (s : State) : Answer × State :=
  if s.committing then (.refuse .busy, s)
  else (.ok (be1 (switchBits (switchesOf body))), takeSwitches (switchesOf body) s)

/-- ENTER_SERVICE (R196). -/
def serveEnterService (_p : Port) (_body : List Byte) (s : State) : Answer × State :=
  if s.stc.op ≠ .run then (.refuse .wrongState, s)
  else if s.wge.lift.isSome then (.refuse .busy, s)
  else (.ok [], changeState .service s)

/-- LEAVE_SERVICE (R198). -/
def serveLeaveService (_p : Port) (_body : List Byte) (s : State) : Answer × State :=
  if s.stc.op ≠ .service then (.refuse .wrongState, s)
  else if s.committing then (.refuse .busy, s)
  else (.ok [], changeState .run s)

/-- STANDBY (R199). -/
def serveStandby (_p : Port) (_body : List Byte) (s : State) : Answer × State :=
  if s.wge.lift.isSome ∨ s.cpm.permit.isSome then (.refuse .busy, s) else (.ok [], changeState .standby s)

/-- COMMIT as STC judges it (R203). -/
def commitJudged (free : Bool) (s : State) : Option Code × State :=
  (if s.committing || !free then some .busy else none, s)

/-- COMMIT (R203). -/
def serveCommit (p : Port) (body : List Byte) (s : State) : Answer × State :=
  serveDelayed p .commit body commitJudged startCommit s

/-- RESTART: answered OK, the reset following the reply (R204). A reset already due stays due. -/
def serveRestart (_p : Port) (_body : List Byte) (s : State) : Answer × State :=
  if s.committing then (.refuse .busy, s)
  else (.ok [], s.setStc { s.stc with restart := if s.stc.restart = .due then .due else .replying })

/-! ### All of them -/

/-- The owner's part of every request. -/
def serve (r : Req) : Port → List Byte → State → Answer × State :=
  match r with
  | .status => serveStatus
  | .pose => servePose
  | .sensors => serveSensors
  | .pollRead => servePollRead
  | .pollWrite => servePollWrite
  | .sensorPass => serveSensorPass
  | .busRestart => serveBusRestart
  | .setAssortment => serveSetAssortment
  | .defineAssortment => serveDefineAssortment
  | .deleteAssortment => serveDeleteAssortment
  | .tallyRead => serveTallyRead
  | .logRead => serveLogRead
  | .voidLift => serveVoidLift
  | .assignLift => serveAssignLift
  | .tripRead => serveTripRead
  | .tripClose => serveTripClose
  | .totalsReset => serveTotalsReset
  | .tare => serveTare
  | .calSpan => serveCalSpan
  | .chartRead => serveChartRead
  | .chartWrite => serveChartWrite
  | .overrideSet => serveOverrideSet
  | .permit => servePermit
  | .watchRead => serveWatchRead
  | .watchWrite => serveWatchWrite
  | .hitClear => serveHitClear
  | .captureRead => serveCaptureRead
  | .holdManual => serveHoldManual
  | .linesRead => serveLinesRead
  | .lineFaultClear => serveLineFaultClear
  | .paramRead => serveParamRead
  | .paramWrite => serveParamWrite
  | .features => serveFeatures
  | .enterService => serveEnterService
  | .leaveService => serveLeaveService
  | .standby => serveStandby
  | .commit => serveCommit
  | .restart => serveRestart
  | .reportEnable => serveReportEnable

end Sys2Proof.Machine
end

