-- ==== Sys2Proof/Machine/Ports.lean ====
section
/-! DEFINITION. The Message Ports (11_the_message_ports): the judgement of a frame, the held frame, the receiver, the
transmitter's completion, a port break and the slots' discard. -/

namespace Sys2Proof.Machine

/-! ### The judgement of a frame (R207) -/

/-- A STANDBY frame is not acted on and the part wakes (R200). -/
def wake (s : State) : State := changeState .run s

/-- A frame of a known kind, judged by rows 1, 2 and 4 to 8 of R207; `owner` is rows 7 and 8. -/
def judgeKnown (r : Req) (owner : Port → List Byte → State → Answer × State) (p : Port) (body : List Byte) (s : State) :
    Answer × State :=
  match s.stc.op with
  | .start => (.refuse .startBusy, s)
  | .standby => (.refuse .waking, wake s)
  | .run | .service =>
    match refusal p s.stc.op r body with
    | some c => (.refuse c, s)
    | none => owner p body s

/-- A frame of an unknown kind (R207, rows 1 to 3). -/
def judgeUnknown (s : State) : Answer × State :=
  match s.stc.op with
  | .start => (.refuse .startBusy, s)
  | .standby => (.refuse .waking, wake s)
  | .run | .service => (.refuse .unknownKind, s)

/-- A frame of any kind (R207). -/
def judgeFrame (p : Port) (kind : Byte) (body : List Byte) (s : State) : Answer × State :=
  match Req.ofCode kind with
  | some r => judgeKnown r (serve r) p body s
  | none => judgeUnknown s

/-! ### Reception of a whole frame (R208) -/

/-- The reply of a judged frame is formed in the same event and waits on its port (R207, R208). -/
def handle (p : Port) (kind : Byte) (judge : State → Answer × State) (s : State) : State :=
  match judge s with
  | (a, s') => s'.setPort p ((s'.port p).putReply kind a)

/-- A frame received whole on a port: no byte is taken while a break lasts (R216); a frame that finds another held is
discarded; one that finds the reply path busy is held; otherwise it is judged and handled at once (R208). -/
def takeFrame (p : Port) (kind : Byte) (body : List Byte) (judge : State → Answer × State) (s : State) : State :=
  let q := s.port p
  if q.breakOn then s
  else
    let s1 := s.setPort p { q with rx := .hunt }
    if q.held.isSome then s1
    else if q.replyBusy then s1.setPort p { q with rx := .hunt, held := some (kind, body) }
    else handle p kind judge s1

/-- A request frame: its kind's code, judged for its owner. -/
def takeRequest (r : Req) (owner : Port → List Byte → State → Answer × State) (p : Port) (body : List Byte) (s : State) :
    State :=
  takeFrame p r.code body (judgeKnown r owner p body) s

/-- A frame of any kind. -/
def takeAny (p : Port) (kind : Byte) (body : List Byte) (s : State) : State := takeFrame p kind body (judgeFrame p kind body) s

/-- HELD_FRAME_HANDLED, when the reply before a held frame has been sent in full (R208). A reset that is due comes first
(R204). -/
def heldFrame (p : Port) (s : State) : State :=
  let q := s.port p
  match q.held with
  | some (kind, body) =>
    if q.replyBusy ∨ s.stc.restart = .due then s
    else handle p kind (judgeFrame p kind body) (s.setPort p { q with held := none })
  | none => s

/-! ### The receiver (R206) -/

/-- The longest gap between two bytes of a frame, in ms (R206). -/
def gapMs : Nat := 20

/-- A partial frame's gap has been exceeded (R206). -/
def PortState.gapOver (q : PortState) (now : Nat) : Bool := q.rx ≠ .hunt && decide (q.lastByte + gapMs < now)

/-- What the receiver does with a byte: its next state, and the LEN and the bytes of a completed frame (R206). -/
def Rx.take (x : Rx) (b : Byte) : Rx × Option (Nat × List Byte) :=
  match x with
  | .hunt => (if b = 0xA5#8 then .length else .hunt, none)
  | .length => (if 1 ≤ b.toNat ∧ b.toNat ≤ 250 then .content b.toNat [] else .hunt, none)
  | .content len got =>
    if got.length + 1 < len + 2 then (.content len (got ++ [b]), none) else (.hunt, some (len, got ++ [b]))

/-- BYTE_ARRIVAL (R206). The byte that ends a gap is examined in HUNT; the byte that completes a frame has its CHECK
tested, and a frame that passes is received whole. -/
def byteIn (p : Port) (b : Byte) (s : State) : State :=
  let q := s.port p
  if q.breakOn then s
  else
    let rx := if q.gapOver s.now then .hunt else q.rx
    match rx.take b with
    | (rx', none) => s.setPort p { q with rx := rx', lastByte := s.now }
    | (_, some (len, got)) =>
      let s1 := s.setPort p { q with rx := .hunt, lastByte := s.now }
      if checkPasses len got then takeAny p (byteAt got 0) ((got.take len).drop 1) s1 else s1

/-- The receiver returns to HUNT, and a partial frame is discarded (R206). -/
def hunt (p : Port) (s : State) : State := s.setPort p { s.port p with rx := .hunt }

/-- FRAME_GAP_TIMEOUT, when the gap has been exceeded (R206). -/
def gapTimeout (p : Port) (s : State) : State := if (s.port p).gapOver s.now then hunt p s else s

/-- FRAME_BAD_CHECK, STOP_BIT_LOW: what was collected is discarded without a trace (R206). -/
def discardPartial (p : Port) (s : State) : State := hunt p s

/-! ### The transmitter (R209, R204) -/

/-- A frame is the OK reply of a RESTART (R204). -/
def OutFrame.isRestartOk (f : OutFrame) : Bool := f.kind == replyKind Req.restart.code && f.status == Code.ok.byte

/-- The reset of a RESTART becomes due once its reply has gone, or has been discarded unsent (R204). -/
def restartDue (p : Port) (f : Option OutFrame) (s : State) : State :=
  match f with
  | some f =>
    if p = .service ∧ s.stc.restart = .replying ∧ f.isRestartOk then s.setStc { s.stc with restart := .due } else s
  | none => s

/-- FRAME_SENT, when a frame is being sent: its last byte has gone (R209). -/
def frameSent (p : Port) (s : State) : State :=
  restartDue p (s.port p).tx (s.setPort p { s.port p with tx := none })

/-! ### The port break (R216) -/

/-- A port as a break leaves it: the frame being sent and the enable mask stay. -/
def PortState.broken (q : PortState) : PortState :=
  { q with rx := .hunt, held := none, reply := none, queue := [], gap := false, breakOn := true }

/-- The slots of a port are freed (R216). -/
def Mpt.freePort (m : Mpt) (p : Port) : Mpt :=
  { m with slots := m.slots.map (fun o => if (o.map (·.port)) = some p then none else o) }

/-- A passthrough not yet issued is dropped (R38). -/
def dropPass (s : State) : State := if s.sbc.passWaiting then s.setSbc { s.sbc with pass := none } else s

/-- PORT_BREAK: one event, at the moment a break has lasted 10 ms (R216). -/
def portBreak (p : Port) (s : State) : State :=
  let q := s.port p
  if q.breakOn then s
  else
    let s1 := s.setMpt ((s.mpt.setPort p q.broken).freePort p)
    let s2 := if p = .service then dropPass s1 else s1
    restartDue p q.reply s2

/-- LINE_RETURNS_TO_IDLE: the break is over and the receiver is in HUNT (R216). -/
def lineIdle (p : Port) (s : State) : State :=
  if (s.port p).breakOn then s.setPort p { s.port p with breakOn := false, rx := .hunt } else s

/-! ### The slots' discard (R215) -/

/-- The slot's discard timer is due. -/
def DelayedSlot.discardDue (d : DelayedSlot) (now : Nat) : Bool :=
  match d.state with
  | .working => false
  | .done _ u => u ≤ now

/-- DISCARD_EXPIRY, when the slot's discard timer is due (R215). -/
def discardExpiry (i : Fin 4) (s : State) : State :=
  match s.mpt.slots[i] with
  | some d => if d.discardDue s.now then s.freeDelayed i else s
  | none => s

/-! ### Timers of the other blocks -/

/-- TARE_TIMEOUT, when the tare timer is due (R101). -/
def tareTimeout (s : State) : State :=
  match s.wge.tare with
  | some t => if t.deadline ≤ s.now then endTare .notSteady s else s
  | none => s

/-- PERMIT_EXPIRY, when the permit timer is due (R153). -/
def permitExpiry (s : State) : State :=
  match s.cpm.permit with
  | some d => if d ≤ s.now then expirePermit s else s
  | none => s

/-- SENSE_EXPIRY, when the sense timer is due, with the six levels read back (R185). -/
def senseExpiry (levels : LineMask) (s : State) : State :=
  if s.hls.senseTimer ≤ s.now then
    sense levels (s.setHls { s.hls with senseTimer := s.hls.senseTimer + 10 })
  else s

end Sys2Proof.Machine
end

