-- ==== Sys2Proof/Machine/Timebase.lean ====
section
/-! DEFINITION. The time base (R8) when no command waits: it advances by 1 ms, unless an expiry has come that has not been
taken (DESIGN CHOICE, notes/assumptions/2.md). -/

namespace Sys2Proof.Machine

/-- An instant that has come. -/
def reached (now : Nat) (t : Option Nat) : Bool :=
  match t with
  | some u => u ≤ now
  | none => false

/-- When the bus's pulse or wait ends. -/
def BusPhase.deadline : BusPhase → Option Nat
  | .idle => none
  | .pulse u => some u
  | .wait u => some u

/-- A timer of the sensor bus has expired, or a held value has become stale, and the event has not been taken. -/
def Sbc.timeDue (b : Sbc) (now : Nat) : Bool :=
  reached now b.roundTimer || reached now b.phase.deadline || reached now b.attemptTimer ||
    b.entries.any (fun e => e.pd.enable && e.staleDue now)

/-- A timer of a port has expired, or a held frame's turn has come, and the event has not been taken. -/
def PortState.timeDue (q : PortState) (now : Nat) : Bool := q.gapOver now || q.heldDue

/-- Some expiry has come that has not been taken. -/
def State.timeDue (s : State) : Bool :=
  s.sbc.timeDue s.now || reached s.now (s.wge.tare.map (·.deadline)) || reached s.now s.cpm.permit ||
    decide (s.hls.senseTimer ≤ s.now) || s.mpt.cab.timeDue s.now || s.mpt.service.timeDue s.now ||
    s.mpt.slots.toList.any (fun o => match o with | some d => d.discardDue s.now | none => false) ||
    s.stc.restart == .due

/-- One millisecond passes, where it may. -/
def tick (s : State) : State := if s.powered && !s.timeDue then s.setNow (s.now + 1) else s

end Sys2Proof.Machine
end

