-- ==== Sys2Proof/Machine/Events.lean ====
section
/-! DEFINITION. The meanings of the commands that are events: one definition each. Every command completes; while the
supply is away only POWER_ON and SUPPLY_LOSS do anything (R195). -/

namespace Sys2Proof.Machine

/-- A command taken: its effect while the part is powered, and then the idle transmitters begin what waits (R209). -/
def completes (f : State → State) (s : State) : Host.Outcome State Fault Refusal :=
  .next (if s.powered then (f s).pump else s)

/-- POWER_ON, in any state (R195). -/
def execPowerOn (s : State) : Host.Outcome State Fault Refusal :=
  .next (powerOn s)

/-- PRELOAD_DONE (R194). -/
def execPreloadDone (readFailed : Bool) (s : State) : Host.Outcome State Fault Refusal :=
  completes (preloadDone readFailed) s

/-- ROUND_TIMER_EXPIRY (R19, R20). -/
def execRoundTimerExpiry (s : State) : Host.Outcome State Fault Refusal :=
  completes roundTimerExpiry s

/-- POLL_TRANSACTION_DONE (R23). -/
def execPollTransactionDone (obs : PollObs) (s : State) : Host.Outcome State Fault Refusal :=
  completes (pollTransactionDone obs) s

/-- STRETCH_TIMEOUT (R22). -/
def execStretchTimeout (s : State) : Host.Outcome State Fault Refusal :=
  completes stretchTimeout s

/-- SENSOR_STALE (R28). -/
def execSensorStale (role : Role) (s : State) : Host.Outcome State Fault Refusal :=
  completes (sensorStale role) s

/-- BUS_FREE_PULSE_END (R31, R33). -/
def execBusFreePulseEnd (s : State) : Host.Outcome State Fault Refusal :=
  completes busFreePulseEnd s

/-- RECOVERY_WAIT_END (R31). -/
def execRecoveryWaitEnd (dataHigh : Bool) (s : State) : Host.Outcome State Fault Refusal :=
  completes (recoveryWaitEnd dataHigh) s

/-- RECOVERY_ATTEMPT (R33). -/
def execRecoveryAttempt (s : State) : Host.Outcome State Fault Refusal :=
  completes recoveryAttempt s

/-- ATTEMPT_WAIT_END (R33). -/
def execAttemptWaitEnd (dataHigh : Bool) (s : State) : Host.Outcome State Fault Refusal :=
  completes (attemptWaitEnd dataHigh) s

/-- PASSTHROUGH_DONE (R37). -/
def execPassthroughDone (obs : PassObs) (s : State) : Host.Outcome State Fault Refusal :=
  completes (passthroughDone obs) s

/-- TARE_TIMEOUT (R101). -/
def execTareTimeout (s : State) : Host.Outcome State Fault Refusal :=
  completes tareTimeout s

/-- PERMIT_EXPIRY (R153). -/
def execPermitExpiry (s : State) : Host.Outcome State Fault Refusal :=
  completes permitExpiry s

/-- SENSE_EXPIRY (R185, R186). -/
def execSenseExpiry (levels : LineMask) (s : State) : Host.Outcome State Fault Refusal :=
  completes (senseExpiry levels) s

/-- DISCARD_EXPIRY (R215). -/
def execDiscardExpiry (slot : Fin 4) (s : State) : Host.Outcome State Fault Refusal :=
  completes (discardExpiry slot) s

/-- FRAME_GAP_TIMEOUT (R206). -/
def execFrameGapTimeout (port : Port) (s : State) : Host.Outcome State Fault Refusal :=
  completes (gapTimeout port) s

/-- FRAME_BAD_CHECK (R206). -/
def execFrameBadCheck (port : Port) (s : State) : Host.Outcome State Fault Refusal :=
  completes (discardPartial port) s

/-- UNKNOWN_KIND: a frame received whole, of the kind and body given (R207, R208). -/
def execUnknownKind (port : Port) (kind : Byte) (body : List Byte) (s : State) : Host.Outcome State Fault Refusal :=
  completes (takeAny port kind body) s

/-- FRAME_HELD: a frame received whole, of the kind and body given (R208). -/
def execFrameHeld (port : Port) (kind : Byte) (body : List Byte) (s : State) : Host.Outcome State Fault Refusal :=
  completes (takeAny port kind body) s

/-- HELD_FRAME_HANDLED (R208). -/
def execHeldFrameHandled (port : Port) (s : State) : Host.Outcome State Fault Refusal :=
  completes (heldFrame port) s

/-- FRAME_SENT (R209). -/
def execFrameSent (port : Port) (s : State) : Host.Outcome State Fault Refusal :=
  completes (frameSent port) s

/-- PORT_BREAK (R216). -/
def execPortBreak (port : Port) (s : State) : Host.Outcome State Fault Refusal :=
  completes (portBreak port) s

/-- STANDBY_WAKE: a frame received whole, of the kind and body given (R200, R208). -/
def execStandbyWake (port : Port) (kind : Byte) (body : List Byte) (s : State) : Host.Outcome State Fault Refusal :=
  completes (takeAny port kind body) s

/-- COMMIT_DONE (R203). -/
def execCommitDone (ok : Bool) (s : State) : Host.Outcome State Fault Refusal :=
  completes (commitEnd ok) s

/-- RESTART_RESET (R204). -/
def execRestartReset (s : State) : Host.Outcome State Fault Refusal :=
  completes restartReset s

/-- BYTE_ARRIVAL (R206). -/
def execByteArrival (port : Port) (byte : Byte) (s : State) : Host.Outcome State Fault Refusal :=
  completes (byteIn port byte) s

/-- STOP_BIT_LOW (R206). -/
def execStopBitLow (port : Port) (s : State) : Host.Outcome State Fault Refusal :=
  completes (discardPartial port) s

/-- LINE_RETURNS_TO_IDLE (R216). -/
def execLineReturnsToIdle (port : Port) (s : State) : Host.Outcome State Fault Refusal :=
  completes (lineIdle port) s

/-- SUPPLY_LOSS, in any state (R195). -/
def execSupplyLoss (backupInterrupted : Bool) (s : State) : Host.Outcome State Fault Refusal :=
  .next (supplyLoss backupInterrupted s)

end Sys2Proof.Machine
end

