-- ==== Sys2Proof/Machine/Commands.lean ====
section
/-! DEFINITION. The meanings of the commands that are requests: each is a frame of its kind received whole on a port, with
its body (R207, R208). -/

namespace Sys2Proof.Machine

/-- STATUS (R219). -/
def execStatus (port : Port) (body : List Byte) (s : State) : Host.Outcome State Fault Refusal :=
  completes (takeRequest .status serveStatus port body) s

/-- POSE (R57). -/
def execPose (port : Port) (body : List Byte) (s : State) : Host.Outcome State Fault Refusal :=
  completes (takeRequest .pose servePose port body) s

/-- SENSORS (R39). -/
def execSensors (port : Port) (body : List Byte) (s : State) : Host.Outcome State Fault Refusal :=
  completes (takeRequest .sensors serveSensors port body) s

/-- POLL_READ (R18). -/
def execPollRead (port : Port) (body : List Byte) (s : State) : Host.Outcome State Fault Refusal :=
  completes (takeRequest .pollRead servePollRead port body) s

/-- POLL_WRITE (R16, R17). -/
def execPollWrite (port : Port) (body : List Byte) (s : State) : Host.Outcome State Fault Refusal :=
  completes (takeRequest .pollWrite servePollWrite port body) s

/-- SENSOR_PASS (R36). -/
def execSensorPass (port : Port) (body : List Byte) (s : State) : Host.Outcome State Fault Refusal :=
  completes (takeRequest .sensorPass serveSensorPass port body) s

/-- BUS_RESTART (R34). -/
def execBusRestart (port : Port) (body : List Byte) (s : State) : Host.Outcome State Fault Refusal :=
  completes (takeRequest .busRestart serveBusRestart port body) s

/-- SET_ASSORTMENT (R111). -/
def execSetAssortment (port : Port) (body : List Byte) (s : State) : Host.Outcome State Fault Refusal :=
  completes (takeRequest .setAssortment serveSetAssortment port body) s

/-- DEFINE_ASSORTMENT (R112). -/
def execDefineAssortment (port : Port) (body : List Byte) (s : State) : Host.Outcome State Fault Refusal :=
  completes (takeRequest .defineAssortment serveDefineAssortment port body) s

/-- DELETE_ASSORTMENT (R113). -/
def execDeleteAssortment (port : Port) (body : List Byte) (s : State) : Host.Outcome State Fault Refusal :=
  completes (takeRequest .deleteAssortment serveDeleteAssortment port body) s

/-- TALLY_READ (R133). -/
def execTallyRead (port : Port) (body : List Byte) (s : State) : Host.Outcome State Fault Refusal :=
  completes (takeRequest .tallyRead serveTallyRead port body) s

/-- LOG_READ (R121). -/
def execLogRead (port : Port) (body : List Byte) (s : State) : Host.Outcome State Fault Refusal :=
  completes (takeRequest .logRead serveLogRead port body) s

/-- VOID_LIFT (R128, R129). -/
def execVoidLift (port : Port) (body : List Byte) (s : State) : Host.Outcome State Fault Refusal :=
  completes (takeRequest .voidLift serveVoidLift port body) s

/-- ASSIGN_LIFT (R130). -/
def execAssignLift (port : Port) (body : List Byte) (s : State) : Host.Outcome State Fault Refusal :=
  completes (takeRequest .assignLift serveAssignLift port body) s

/-- TRIP_READ (R127). -/
def execTripRead (port : Port) (body : List Byte) (s : State) : Host.Outcome State Fault Refusal :=
  completes (takeRequest .tripRead serveTripRead port body) s

/-- TRIP_CLOSE (R126). -/
def execTripClose (port : Port) (body : List Byte) (s : State) : Host.Outcome State Fault Refusal :=
  completes (takeRequest .tripClose serveTripClose port body) s

/-- TOTALS_RESET (R131). -/
def execTotalsReset (port : Port) (body : List Byte) (s : State) : Host.Outcome State Fault Refusal :=
  completes (takeRequest .totalsReset serveTotalsReset port body) s

/-- TARE (R98). -/
def execTare (port : Port) (body : List Byte) (s : State) : Host.Outcome State Fault Refusal :=
  completes (takeRequest .tare serveTare port body) s

/-- CAL_SPAN (R103). -/
def execCalSpan (port : Port) (body : List Byte) (s : State) : Host.Outcome State Fault Refusal :=
  completes (takeRequest .calSpan serveCalSpan port body) s

/-- CHART_READ (R140). -/
def execChartRead (port : Port) (body : List Byte) (s : State) : Host.Outcome State Fault Refusal :=
  completes (takeRequest .chartRead serveChartRead port body) s

/-- CHART_WRITE (R139). -/
def execChartWrite (port : Port) (body : List Byte) (s : State) : Host.Outcome State Fault Refusal :=
  completes (takeRequest .chartWrite serveChartWrite port body) s

/-- OVERRIDE_SET (R138). -/
def execOverrideSet (port : Port) (body : List Byte) (s : State) : Host.Outcome State Fault Refusal :=
  completes (takeRequest .overrideSet serveOverrideSet port body) s

/-- PERMIT (R152). -/
def execPermit (port : Port) (body : List Byte) (s : State) : Host.Outcome State Fault Refusal :=
  completes (takeRequest .permit servePermit port body) s

/-- WATCH_READ (R175). -/
def execWatchRead (port : Port) (body : List Byte) (s : State) : Host.Outcome State Fault Refusal :=
  completes (takeRequest .watchRead serveWatchRead port body) s

/-- WATCH_WRITE (R172, R173). -/
def execWatchWrite (port : Port) (body : List Byte) (s : State) : Host.Outcome State Fault Refusal :=
  completes (takeRequest .watchWrite serveWatchWrite port body) s

/-- HIT_CLEAR (R174). -/
def execHitClear (port : Port) (body : List Byte) (s : State) : Host.Outcome State Fault Refusal :=
  completes (takeRequest .hitClear serveHitClear port body) s

/-- CAPTURE_READ (R170). -/
def execCaptureRead (port : Port) (body : List Byte) (s : State) : Host.Outcome State Fault Refusal :=
  completes (takeRequest .captureRead serveCaptureRead port body) s

/-- HOLD_MANUAL (R181). -/
def execHoldManual (port : Port) (body : List Byte) (s : State) : Host.Outcome State Fault Refusal :=
  completes (takeRequest .holdManual serveHoldManual port body) s

/-- LINES_READ (R189). -/
def execLinesRead (port : Port) (body : List Byte) (s : State) : Host.Outcome State Fault Refusal :=
  completes (takeRequest .linesRead serveLinesRead port body) s

/-- LINE_FAULT_CLEAR (R188). -/
def execLineFaultClear (port : Port) (body : List Byte) (s : State) : Host.Outcome State Fault Refusal :=
  completes (takeRequest .lineFaultClear serveLineFaultClear port body) s

/-- PARAM_READ (R202). -/
def execParamRead (port : Port) (body : List Byte) (s : State) : Host.Outcome State Fault Refusal :=
  completes (takeRequest .paramRead serveParamRead port body) s

/-- PARAM_WRITE (R202). -/
def execParamWrite (port : Port) (body : List Byte) (s : State) : Host.Outcome State Fault Refusal :=
  completes (takeRequest .paramWrite serveParamWrite port body) s

/-- FEATURES (R107). -/
def execFeatures (port : Port) (body : List Byte) (s : State) : Host.Outcome State Fault Refusal :=
  completes (takeRequest .features serveFeatures port body) s

/-- ENTER_SERVICE (R196). -/
def execEnterService (port : Port) (body : List Byte) (s : State) : Host.Outcome State Fault Refusal :=
  completes (takeRequest .enterService serveEnterService port body) s

/-- LEAVE_SERVICE (R198). -/
def execLeaveService (port : Port) (body : List Byte) (s : State) : Host.Outcome State Fault Refusal :=
  completes (takeRequest .leaveService serveLeaveService port body) s

/-- STANDBY (R199). -/
def execStandby (port : Port) (body : List Byte) (s : State) : Host.Outcome State Fault Refusal :=
  completes (takeRequest .standby serveStandby port body) s

/-- COMMIT (R203). -/
def execCommit (port : Port) (body : List Byte) (s : State) : Host.Outcome State Fault Refusal :=
  completes (takeRequest .commit serveCommit port body) s

/-- RESTART (R204). -/
def execRestart (port : Port) (body : List Byte) (s : State) : Host.Outcome State Fault Refusal :=
  completes (takeRequest .restart serveRestart port body) s

/-- REPORT_ENABLE (R218). -/
def execReportEnable (port : Port) (body : List Byte) (s : State) : Host.Outcome State Fault Refusal :=
  completes (takeRequest .reportEnable serveReportEnable port body) s

end Sys2Proof.Machine
end

