-- ==== Sys2Proof/Machine/Dispatch.lean ====
section
/-! DEFINITION. The arm of every command: one direct call of its meaning. -/

namespace Sys2Proof.Machine

open Sys2Proof

def exec (i : Instr) (s : State) : Host.Outcome State Fault Refusal :=
  match i with
  | .powerOn => Sys2Proof.Machine.execPowerOn s
  | .preloadDone readFailed => Sys2Proof.Machine.execPreloadDone readFailed s
  | .roundTimerExpiry => Sys2Proof.Machine.execRoundTimerExpiry s
  | .pollTransactionDone obs => Sys2Proof.Machine.execPollTransactionDone obs s
  | .stretchTimeout => Sys2Proof.Machine.execStretchTimeout s
  | .sensorStale role => Sys2Proof.Machine.execSensorStale role s
  | .busFreePulseEnd => Sys2Proof.Machine.execBusFreePulseEnd s
  | .recoveryWaitEnd dataHigh => Sys2Proof.Machine.execRecoveryWaitEnd dataHigh s
  | .recoveryAttempt => Sys2Proof.Machine.execRecoveryAttempt s
  | .attemptWaitEnd dataHigh => Sys2Proof.Machine.execAttemptWaitEnd dataHigh s
  | .passthroughDone obs => Sys2Proof.Machine.execPassthroughDone obs s
  | .tareTimeout => Sys2Proof.Machine.execTareTimeout s
  | .permitExpiry => Sys2Proof.Machine.execPermitExpiry s
  | .senseExpiry levels => Sys2Proof.Machine.execSenseExpiry levels s
  | .discardExpiry slot => Sys2Proof.Machine.execDiscardExpiry slot s
  | .frameGapTimeout port => Sys2Proof.Machine.execFrameGapTimeout port s
  | .frameBadCheck port => Sys2Proof.Machine.execFrameBadCheck port s
  | .unknownKind port kind body => Sys2Proof.Machine.execUnknownKind port kind body s
  | .frameHeld port kind body => Sys2Proof.Machine.execFrameHeld port kind body s
  | .heldFrameHandled port => Sys2Proof.Machine.execHeldFrameHandled port s
  | .frameSent port => Sys2Proof.Machine.execFrameSent port s
  | .portBreak port => Sys2Proof.Machine.execPortBreak port s
  | .standbyWake port kind body => Sys2Proof.Machine.execStandbyWake port kind body s
  | .status port body => Sys2Proof.Machine.execStatus port body s
  | .pose port body => Sys2Proof.Machine.execPose port body s
  | .sensors port body => Sys2Proof.Machine.execSensors port body s
  | .pollRead port body => Sys2Proof.Machine.execPollRead port body s
  | .pollWrite port body => Sys2Proof.Machine.execPollWrite port body s
  | .sensorPass port body => Sys2Proof.Machine.execSensorPass port body s
  | .busRestart port body => Sys2Proof.Machine.execBusRestart port body s
  | .setAssortment port body => Sys2Proof.Machine.execSetAssortment port body s
  | .defineAssortment port body => Sys2Proof.Machine.execDefineAssortment port body s
  | .deleteAssortment port body => Sys2Proof.Machine.execDeleteAssortment port body s
  | .tallyRead port body => Sys2Proof.Machine.execTallyRead port body s
  | .logRead port body => Sys2Proof.Machine.execLogRead port body s
  | .voidLift port body => Sys2Proof.Machine.execVoidLift port body s
  | .assignLift port body => Sys2Proof.Machine.execAssignLift port body s
  | .tripRead port body => Sys2Proof.Machine.execTripRead port body s
  | .tripClose port body => Sys2Proof.Machine.execTripClose port body s
  | .totalsReset port body => Sys2Proof.Machine.execTotalsReset port body s
  | .tare port body => Sys2Proof.Machine.execTare port body s
  | .calSpan port body => Sys2Proof.Machine.execCalSpan port body s
  | .chartRead port body => Sys2Proof.Machine.execChartRead port body s
  | .chartWrite port body => Sys2Proof.Machine.execChartWrite port body s
  | .overrideSet port body => Sys2Proof.Machine.execOverrideSet port body s
  | .permit port body => Sys2Proof.Machine.execPermit port body s
  | .watchRead port body => Sys2Proof.Machine.execWatchRead port body s
  | .watchWrite port body => Sys2Proof.Machine.execWatchWrite port body s
  | .hitClear port body => Sys2Proof.Machine.execHitClear port body s
  | .captureRead port body => Sys2Proof.Machine.execCaptureRead port body s
  | .holdManual port body => Sys2Proof.Machine.execHoldManual port body s
  | .linesRead port body => Sys2Proof.Machine.execLinesRead port body s
  | .lineFaultClear port body => Sys2Proof.Machine.execLineFaultClear port body s
  | .paramRead port body => Sys2Proof.Machine.execParamRead port body s
  | .paramWrite port body => Sys2Proof.Machine.execParamWrite port body s
  | .features port body => Sys2Proof.Machine.execFeatures port body s
  | .enterService port body => Sys2Proof.Machine.execEnterService port body s
  | .leaveService port body => Sys2Proof.Machine.execLeaveService port body s
  | .standby port body => Sys2Proof.Machine.execStandby port body s
  | .commit port body => Sys2Proof.Machine.execCommit port body s
  | .commitDone ok => Sys2Proof.Machine.execCommitDone ok s
  | .restart port body => Sys2Proof.Machine.execRestart port body s
  | .restartReset => Sys2Proof.Machine.execRestartReset s
  | .reportEnable port body => Sys2Proof.Machine.execReportEnable port body s
  | .byteArrival port byte => Sys2Proof.Machine.execByteArrival port byte s
  | .stopBitLow port => Sys2Proof.Machine.execStopBitLow port s
  | .lineReturnsToIdle port => Sys2Proof.Machine.execLineReturnsToIdle port s
  | .supplyLoss backupInterrupted => Sys2Proof.Machine.execSupplyLoss backupInterrupted s

end Sys2Proof.Machine
end

