-- ==== Sys2Proof/Safety.lean ====
section
/-! DEFINITION. The terms claims are stated in: a port that is free to judge a frame, an admitted request, the part after a
reply, and the laws a state keeps. The part has no stop, so a safe run is one whose every state keeps the laws. -/

namespace Sys2Proof.Machine

/-! ### Requests as commands -/

/-- The command of a request. -/
def Req.frame : Req → Port → List Byte → Instr
  | .status => .status
  | .pose => .pose
  | .sensors => .sensors
  | .pollRead => .pollRead
  | .pollWrite => .pollWrite
  | .sensorPass => .sensorPass
  | .busRestart => .busRestart
  | .setAssortment => .setAssortment
  | .defineAssortment => .defineAssortment
  | .deleteAssortment => .deleteAssortment
  | .tallyRead => .tallyRead
  | .logRead => .logRead
  | .voidLift => .voidLift
  | .assignLift => .assignLift
  | .tripRead => .tripRead
  | .tripClose => .tripClose
  | .totalsReset => .totalsReset
  | .tare => .tare
  | .calSpan => .calSpan
  | .chartRead => .chartRead
  | .chartWrite => .chartWrite
  | .overrideSet => .overrideSet
  | .permit => .permit
  | .watchRead => .watchRead
  | .watchWrite => .watchWrite
  | .hitClear => .hitClear
  | .captureRead => .captureRead
  | .holdManual => .holdManual
  | .linesRead => .linesRead
  | .lineFaultClear => .lineFaultClear
  | .paramRead => .paramRead
  | .paramWrite => .paramWrite
  | .features => .features
  | .enterService => .enterService
  | .leaveService => .leaveService
  | .standby => .standby
  | .commit => .commit
  | .restart => .restart
  | .reportEnable => .reportEnable

/-! ### A port ready, a request admitted, a reply formed -/

/-- The port judges a frame at once: powered, no break, no held frame, no reply waiting or being sent (R208, R216). -/
def Ready (p : Port) (s : State) : Prop :=
  s.powered = true ∧ (s.port p).breakOn = false ∧ (s.port p).held = none ∧ (s.port p).replyBusy = false

/-- A request reaches rows 7 and 8 of R207: the port is ready, the state is RUN or SERVICE, the kind is admitted, the body's
length is allowed. -/
def Admitted (p : Port) (r : Req) (body : List Byte) (s : State) : Prop :=
  Ready p s ∧ (s.stc.op = .run ∨ s.stc.op = .service) ∧ admits p s.stc.op r = true ∧ bodyFits r body = true

/-- The state with the receiver of the port back in HUNT, a frame having been received whole. -/
def State.heard (s : State) (p : Port) : State := s.setPort p { s.port p with rx := .hunt }

/-- The state after a frame has been answered and its effect `s` has come about: the reply waits on the port, and each idle
transmitter begins what it has to send (R207, R209). -/
def State.answered (s : State) (p : Port) (kind : Byte) (code : Code) (body : List Byte) : State :=
  (s.setPort p { s.port p with
    reply := some { kind := replyKind kind, status := code.byte, body := body } }).pump

/-! ### The laws of the tally (R110, R111, R119, R127) -/

/-- Every figure of a slot is within its limit (R110). -/
def AsnSlot.inLimits (x : AsnSlot) : Prop :=
  x.loadedMass ≤ massMax ∧ x.bunkMass ≤ massMax ∧ x.removedMass ≤ massMax ∧ x.excessMass ≤ massMax ∧
    x.loadedCount ≤ countMax ∧ x.bunkCount ≤ countMax ∧ x.removedCount ≤ countMax ∧ x.excessCount ≤ countMax

/-- The balance of a slot whose SATURATED flag is clear (R110). -/
def AsnSlot.balanced (x : AsnSlot) : Prop :=
  x.saturated = false → x.loadedMass = x.bunkMass + x.removedMass ∧ x.loadedCount = x.bunkCount + x.removedCount

/-- The two laws of R110. -/
def Tlu.lawful (t : Tlu) : Prop := ∀ x ∈ t.slots, x.inLimits ∧ x.balanced

/-- Slot 0 holds UNSORTED, the current assortment is defined, and log, history and counters are within their limits
(R109, R111, R115, R119, R122, R127). -/
def Tlu.wellKept (t : Tlu) : Prop :=
  (t.table[0].map (·.id)) = some 0 ∧ t.defined t.current = true ∧ t.log.length ≤ 64 ∧ t.history.length ≤ 8 ∧
    1 ≤ t.nextLift ∧ t.nextLift ≤ 65535 ∧ t.trip.number ≤ 9999

/-! ### An ADD or a REMOVE applied (R116, R117, R123, R124) -/

/-- `list'` is `list` with the entry of an id touched: changed where the id is listed, else added at the end with its figures
at 0 and then changed (R124). -/
def Touched (id : Nat) (change : TripEntry → TripEntry) (list list' : List TripEntry) : Prop :=
  ((∃ e ∈ list, e.id = id) → list' = list.map (fun e => if e.id = id then change e else e)) ∧
  ((∀ e ∈ list, e.id ≠ id) →
    list' = list ++ [change { id := id, loadedCount := 0, loadedMass := 0, removedCount := 0, removedMass := 0 }])

/-- `u` holds the table, the trip and the history of `t` after an ADD of mass `m` to assortment `id` by lift `lift`
(R116, R123, R124). -/
def Tlu.Added (t u : Tlu) (id m lift : Nat) : Prop :=
  let entry (e : TripEntry) : TripEntry :=
    { e with loadedCount := min countMax (e.loadedCount + 1), loadedMass := min massMax (e.loadedMass + m) }
  (∀ (i : Fin 16) (x : AsnSlot), t.slotOf id = some i → t.table[i] = some x →
    u.table = t.table.set i (some { x with
      loadedCount := min countMax (x.loadedCount + 1)
      bunkCount := min countMax (x.bunkCount + 1)
      loadedMass := min massMax (x.loadedMass + m)
      bunkMass := min massMax (x.bunkMass + m)
      saturated := x.saturated || decide (countMax < x.loadedCount + 1 ∨ countMax < x.bunkCount + 1 ∨
        massMax < x.loadedMass + m ∨ massMax < x.bunkMass + m) })) ∧
  (t.trip.state = .empty →
    u.trip.number = (if 9999 ≤ t.trip.number then 1 else t.trip.number + 1) ∧ u.trip.state = .loading ∧
      u.trip.lifts = some (lift, lift) ∧ u.trip.writtenOff = 0 ∧ u.trip.cause = none ∧ Touched id entry [] u.trip.list) ∧
  (t.trip.state ≠ .empty →
    u.trip = { t.trip with lifts := u.trip.lifts, list := u.trip.list } ∧ Touched id entry t.trip.list u.trip.list ∧
      ∀ first last, t.trip.lifts = some (first, last) → u.trip.lifts = some (first, lift)) ∧
  u.history = t.history ∧ u.current = t.current

/-- `u` holds the table, the trip and the history of `t` after a REMOVE of mass `m` from slot `i`, which held `x`, by lift
`lift`; a trip that the REMOVE leaves with an empty bunk is closed, EMPTIED, and joins the history (R117, R123 to R125). -/
def Tlu.Removed (t u : Tlu) (i : Fin 16) (x : AsnSlot) (m lift : Nat) : Prop :=
  let taken := min m x.bunkMass
  let entry (e : TripEntry) : TripEntry :=
    { e with
      removedMass := min massMax (e.removedMass + taken)
      removedCount := if 0 < x.bunkCount then min countMax (e.removedCount + 1) else e.removedCount }
  let emptied := ∀ y ∈ u.slots, y.bunkMass = 0 ∧ y.bunkCount = 0
  u.table = t.table.set i (some { x with
    bunkMass := x.bunkMass - taken
    removedMass := min massMax (x.removedMass + taken)
    excessMass := min massMax (x.excessMass + (m - taken))
    bunkCount := x.bunkCount - 1
    removedCount := if 0 < x.bunkCount then min countMax (x.removedCount + 1) else x.removedCount
    excessCount := if 0 < x.bunkCount then x.excessCount else min countMax (x.excessCount + 1)
    saturated := x.saturated || decide (massMax < x.removedMass + taken ∨ massMax < x.excessMass + (m - taken) ∨
      countMax < (if 0 < x.bunkCount then x.removedCount else x.excessCount) + 1) }) ∧
  (t.trip.state = .empty → u.trip = t.trip ∧ u.history = t.history) ∧
  (t.trip.state ≠ .empty →
    u.trip.number = t.trip.number ∧ u.trip.writtenOff = t.trip.writtenOff ∧
      Touched x.id entry t.trip.list u.trip.list ∧
      (∀ first last, t.trip.lifts = some (first, last) → u.trip.lifts = some (first, lift)) ∧
      (¬emptied → u.trip.state = .unloading ∧ u.trip.cause = t.trip.cause ∧ u.history = t.history) ∧
      (emptied → u.trip.state = .empty ∧ u.trip.cause = some .emptied ∧
        u.history = (t.history ++ [u.trip]).drop (t.history.length + 1 - 8))) ∧
  u.current = t.current

/-! ### An entry polled (R24 to R27) -/

/-- `e'` is `e` after a poll that ended with an outcome other than WAKING, on the record `x`, at `now` (R24 to R27). -/
def Entry.Polled (e e' : Entry) (o : PollOutcome) (x : SensorRecord) (now : Nat) : Prop :=
  e'.pd = e.pd ∧ e'.expectWaking = false ∧ e'.last = o ∧
    e'.failures = (if o = .ok then 0 else min 3 (e.failures + 1)) ∧
    e'.restarts = (if e.expectWaking = false ∧ x.status.getLsbD 2 = true ∧ (o = .ok ∨ o = .notReady ∨ o = .badValue) then
      min 255 (e.restarts + 1) else e.restarts) ∧
    (o = .ok → e.pd.enable = true →
      e'.slot = some { value := recordValue x, mark := x.status.getLsbD 1, time := now } ∧ e'.stale = false ∧
        e'.firstDue = false) ∧
    (o ≠ .ok → e'.slot = e.slot ∧ e'.stale = e.stale ∧ e'.firstDue = e.firstDue)

/-! ### Reports queued (R217) -/

/-- Of the report kinds listed, exactly the reports of `items` whose kinds a port enables have joined that port's queue between `s`
and `t`, in their order, unless the port lost one and the queue is full; nothing has left the queue (R217). -/
def Queued (kinds : List Report) (items : List (Report × List Byte)) (s t : State) : Prop :=
  ∀ p : Port, ∃ more, (t.port p).queue = (s.port p).queue ++ more ∧ (t.port p).enable = (s.port p).enable ∧
    ((s.port p).gap = true → (t.port p).gap = true) ∧
    ((t.port p).gap = false ∨ (t.port p).queue.length < 16 →
      more.filter (fun f => kinds.any (fun r => f.kind == r.kind)) =
        (items.filter (fun x => (s.port p).enable.getLsbD x.1.bit)).map
          (fun x => { kind := x.1.kind, status := 0#8, body := x.2 }))

/-- The SENSOR_STATE report of an entry that a poll took from `e` to `e'`: at a change to or from MISSING, and at a returning
sample (R30). -/
def pollReports (e e' : Entry) : List (Report × List Byte) :=
  if (3 ≤ e.failures ↔ 3 ≤ e'.failures) ∧ ¬(e.stale = true ∧ e'.stale = false) then []
  else [(.sensorState, sensorStateBody e' (!e'.pd.enable))]

/-- The SENSOR_STATE reports of a bus that enters DOWN: one for each entry that was not MISSING, in list order (R30, R32;
notes/assumptions/37.md). -/
def downReports (entries : List Entry) : List (Report × List Byte) :=
  (entries.filter (fun e => e.failures < 3)).map
    (fun e => (.sensorState, sensorStateBody { e with failures := 3 } (!e.pd.enable)))

/-- The TRIP_CLOSED report of a trip, in one frame or, for a list of 9 to 16, in two (R125, R211). -/
def closedReports (t : Trip) : List (Report × List Byte) :=
  (.tripClosed, tripRecordBytes t 1) :: if t.list.length ≤ 8 then [] else [(.tripClosed, tripRecordBytes t 2)]

/-- The HOLD_CHANGE reports of a change of masks: one for each line whose commanded level changed, in line order, with the new level,
the primary cause and the source set (R184). -/
def holdReports (old new : HoldMasks) : List (Report × List Byte) :=
  ([Line.boomOut, .teleOut, .lower, .slewL, .slewR, .alert].filter (fun l => old.level l != new.level l)).map (fun l =>
    (.holdChange, be1 l.num ++ be1 (if new.level l = true then 1 else 0) ++ be1 (sourceNum (new.cause l)) ++ be2 (new.sourceBits l)))

/-- The STATE_CHANGE report of a change of the operating state, by the states' numbers (R192, R222). -/
def stateReport (new old : Nat) (bad : Bool) : List (Report × List Byte) :=
  [(.stateChange, be1 new ++ be1 old ++ be1 (if bad = true then 1 else 0))]

/-- A poll of `e` that ended with an outcome other than WAKING has been applied: `list` holds the entries after it, all of them
MISSING when it took the bus to DOWN, and the queues of `v` its SENSOR_STATE reports (R24 to R27, R30, R32). -/
def PollApplied (e : Entry) (o : PollOutcome) (x : SensorRecord) (down : Bool) (s v : State) (list : List Entry) : Prop :=
  ∃ e' : Entry, e.Polled e' o x s.now ∧
    let polled := s.sbc.entries.map (fun y => if y.pd.role = e.pd.role then e' else y)
    list = (if down = true then polled.map (fun y => { y with failures := 3 }) else polled) ∧
      Queued [.sensorState] (pollReports e e' ++ if down = true then downReports polled else []) s v

/-! ### Hand-overs and deliveries (R27, R61, R142) -/

/-- `t` is `s` after the hand-overs `fs`, each taken once and whole, in some order; the schedule alone may move between them
(R142, R149; notes/assumptions/7.md). -/
def InSomeOrder (fs : List (State → State)) (s t : State) : Prop :=
  ∃ gs : List ((State → State) × List Nat),
    (gs.map Prod.fst).Perm fs ∧ t = gs.foldl (fun s g => g.1 (s.setSched g.2)) s

/-- `u` is `s` after a poll of the enabled entry `e` brought the good sample `x`, `list` holding the entries after it: the
consumer of the entry's role has taken the sample, as a returning one exactly when the entry was stale, and found its rate memory or
previous mass empty at a first sample (R27, R54, R60; notes/assumptions/35.md). What the bus does next is left to `u`. -/
def SampleDelivered (e : Entry) (x : Sample) (list : List Entry) (s u : State) : Prop :=
  ∃ w : State,
    w = { s with sbc := { s.sbc with entries := list, txn := none }, wge := w.wge, pos := w.pos, mpt := w.mpt } ∧
    w.mpt.slots = s.mpt.slots ∧
    (let kept {α : Type} (r : Role) (held : Option α) := if e.pd.role = r ∧ (e.stale || e.firstDue) = true then none else held
     w.wge = { s.wge with prev := kept .link s.wge.prev } ∧
     w.pos = { s.pos with slewMem := kept .slew s.pos.slewMem, mainMem := kept .main s.pos.mainMem }) ∧
    (let taken (v : State) := u = (v.setSbc u.sbc).pump
     (e.pd.role = .link → taken (linkArrival x.value x.mark w)) ∧
     (e.pd.role = .grip → taken (gripArrival (x.value == 1) w)) ∧
     (e.pd.role ≠ .link → e.pd.role ≠ .grip → taken (poseArrival e.pd.role e.stale x w)))

/-! ### The lift of a working CAL_SPAN (R103, R106) -/

/-- A working CAL_SPAN has a lift in CARRYING or WEIGHED: it is accepted in one, and a drop, a release and a loss of LINK end it. -/
def State.calHeld (s : State) : Prop :=
  s.wge.cal.isSome = true → s.wge.liftState = .carrying ∨ s.wge.liftState = .weighed

/-! ### The laws of the hold lines (R150, R164, R166, R179, R182) -/

/-- The mask that index k of WT calls for: a pair asks through its odd member only (R164, R166). -/
def Wt.request (w : Wt) (k : Fin 8) : LineMask :=
  let holds := if w.chained k then k.val % 2 = 1 ∧ w.pairs[coupleOf k] else w.entries[k].matching
  if holds ∧ w.entries[k].d.action = .hold then w.entries[k].d.holdMask else 0#6

/-- STATE presents what the operating state calls for (R179). -/
def State.stateHeld (s : State) : Prop := s.hls.masks.state = stateMask s.stc.op

/-- FAULT presents what the FAULT flags call for (R182). -/
def State.faultHeld (s : State) : Prop := s.hls.masks.fault = faultMask s.hls.sense

/-- CAP presents what the monitor state and the permit call for, and a permit runs only in HOLD (R150). -/
def State.capHeld (s : State) : Prop :=
  s.hls.masks.cap = s.cpm.mask ∧ (s.cpm.permit.isSome = true → s.cpm.monitor = .hold)

/-- Every WATCH source presents what its index calls for (R164, R166). -/
def State.watchHeld (s : State) : Prop := ∀ k : Fin 8, s.hls.masks.watch[k] = s.wt.request k

/-! ### The laws of the bus (R19, R32 to R35) -/

/-- The timers run, and the kept times are empty, as the bus state gives; the bus state goes with the operating state. -/
def State.busLawful (s : State) : Prop :=
  let b := s.sbc
  (b.roundTimer.isSome = true ↔ b.bus ≠ .stopped) ∧
  (b.attemptTimer.isSome = true ↔ b.bus = .down) ∧
  (b.bus = .down → b.stuckTimes = []) ∧
  (b.bus = .stopped → b.roundActive = false ∧ b.phase = .idle) ∧
  (b.restartPending = true → b.bus = .running) ∧
  (b.stopping = true → b.bus = .stopped ∧ b.txn.isSome = true) ∧
  (b.startPending = true → b.stopping = true) ∧
  (busRuns s.stc.op = false → b.bus = .stopped ∧ b.startPending = false) ∧
  (busRuns s.stc.op = true → b.bus ≠ .stopped ∨ b.startPending = true)

/-- The working fields of the sensor bus are within their ranges (R15, R19, R32). -/
def Sbc.inRanges (b : Sbc) : Prop :=
  (∀ e ∈ b.entries, e.failures ≤ 3 ∧ e.restarts ≤ 255) ∧ b.roundNo ≤ 9 ∧ b.stuckTimes.length ≤ 2

/-! ### The laws of the ports (R209, R213, R217) -/

/-- An idle transmitter has nothing to send but what a held frame makes wait (R209). -/
def PortState.served (q : PortState) : Prop :=
  q.tx = none → q.reply = none ∧ (q.held = none → q.queue = [])

/-- The report queues hold at most 16 reports (R217). -/
def Mpt.queuesFit (m : Mpt) : Prop := m.cab.queue.length ≤ 16 ∧ m.service.queue.length ≤ 16

/-- The work of a delayed kind is on. -/
def State.workOn (s : State) : DelayedKind → Bool
  | .tare => s.wge.tare.isSome
  | .calSpan => s.wge.cal.isSome
  | .sensorPass => s.sbc.pass.isSome
  | .commit => s.stc.commit.isSome

/-- No two slots share port, kind and body; at most one of a kind is WORKING; a WORKING slot's work is on; and only the
service port's SENSOR_PASS holds one (R212, R213). -/
def State.slotsLawful (s : State) : Prop :=
  (∀ (i j : Fin 4) (d e : DelayedSlot), i ≠ j → s.mpt.slots[i] = some d → s.mpt.slots[j] = some e →
    ¬(d.port = e.port ∧ d.kind = e.kind ∧ d.body = e.body) ∧
    ¬(d.kind = e.kind ∧ d.state = .working ∧ e.state = .working)) ∧
  (∀ (i : Fin 4) (d : DelayedSlot), s.mpt.slots[i] = some d →
    (d.state = .working → s.workOn d.kind = true) ∧ (d.kind = .sensorPass → d.port = .service))

/-! ### The laws of the settings (R201, R202) -/

/-- The levels and the window parameters are in order, and the page size is one of its three values (R148, R201, R202). -/
def SettingsOrdered (c : Settings) : Prop :=
  600 ≤ c.cap.uHold ∧ c.cap.uWarn ≤ c.cap.uHold ∧ c.cap.uRel + 10 ≤ c.cap.uHold ∧ 16 ≤ c.weigh.n ∧ c.weigh.nMin ≤ c.weigh.n ∧
    (c.cap.pageSize = 125 ∨ c.cap.pageSize = 250 ∨ c.cap.pageSize = 500)

/-- The working settings, those of the stored image and those a COMMIT writes are in order. -/
def Stc.ordered (c : Stc) : Prop :=
  SettingsOrdered c.settings ∧ SettingsOrdered c.image.contents.settings ∧
    (∀ x, c.commit = some x → SettingsOrdered x.settings)

/-! ### Ranges of the capacity monitor (R2, R145) -/

/-- U is at most 9,999 (R2, R145). -/
def Cpm.inRanges (c : Cpm) : Prop := c.u ≤ 9999

/-! ### Commands that are frames or starts -/

/-- A frame whose kind its command does not fix, or a completing byte: it may be any request (R206 to R208). -/
def carriesAnyFrame : Instr → Bool
  | .unknownKind _ _ _ => true
  | .frameHeld _ _ _ => true
  | .heldFrameHandled _ => true
  | .standbyWake _ _ _ => true
  | .byteArrival _ _ => true
  | _ => false

/-- A reset, the loss of supply, or the end of START (R193 to R195, R204). -/
def isStart : Instr → Bool
  | .powerOn => true
  | .preloadDone _ => true
  | .restartReset => true
  | .supplyLoss _ => true
  | _ => false

end Sys2Proof.Machine
end

