-- ==== Sys2Proof/Certificates/Slice0/Obligations.lean ====
section
/-! DEFINITION. The statements about the model, for the provers. Each docstring names the rule of spec/ it formalises. -/

open Sys2Proof Sys2Proof.Machine

/-! ### The queue -/

/-- A step runs the command at the front of the queue on the state with the queue's rest (the block's interface;
notes/assumptions/1.md). -/
def Obligations.StepRunsFrontCommand : Prop :=
  ∀ (c : Instr) (rest : List Instr) (s : State), s.pending = c :: rest → step s = exec c (s.setPending rest)

/-- No command changes the queue of waiting commands (the block's interface; notes/assumptions/1.md). With none waiting, a step is a
millisecond of the time base (R8), and changes nothing else, while the part is powered and no expiry that has come waits to be
taken; otherwise it changes nothing. What such a step does is the model's choice (notes/assumptions/2.md). -/
def Obligations.CommandsLeaveTheQueue : Prop :=
  (∀ (c : Instr) (s t : State), exec c s = .next t → t.pending = s.pending) ∧
  (∀ s : State, s.pending = [] →
    let come (timer : Option Nat) := ∃ d, timer = some d ∧ d ≤ s.now
    let waits :=
      come s.sbc.roundTimer ∨ come s.sbc.attemptTimer ∨ come (s.wge.tare.map (fun t => t.deadline)) ∨ come s.cpm.permit ∨
      s.hls.senseTimer ≤ s.now ∨ s.stc.restart = .due ∨
      (∃ d, (s.sbc.phase = .pulse d ∨ s.sbc.phase = .wait d) ∧ d ≤ s.now) ∨
      (∃ e ∈ s.sbc.entries, e.pd.enable = true ∧ e.stale = false ∧
        ∃ x, e.slot = some x ∧ x.time + staleLimit e.pd.role < s.now) ∨
      (∃ p, ((s.port p).rx ≠ .hunt ∧ (s.port p).lastByte + 20 < s.now) ∨
        ((s.port p).held.isSome = true ∧ (s.port p).replyBusy = false)) ∨
      (∃ (i : Fin 4) (d : DelayedSlot) (result : List Byte) (u : Nat), s.mpt.slots[i] = some d ∧ d.state = .done result u ∧
        u ≤ s.now)
    (s.powered = true → ¬waits → step s = .next { s with now := s.now + 1 }) ∧
    ((s.powered = false ∨ waits) → step s = .next s))

/-! ### Reset and start -/

/-- What a cold reset leaves in every block (R58, R91, R94, R135, R157, R176, R190, R205, R218, R220; R40 but for the list, which
PRELOAD_DONE installs). The retained-valid marker of a cold start is intact only at the start's end (R195; notes/assumptions/36.md).
-/
def Obligations.ResetValues : Prop :=
  let s := State.reset
  (s.sbc.bus = .stopped ∧ s.sbc.busFreeLow = true ∧ s.sbc.roundTimer = none ∧ s.sbc.attemptTimer = none ∧
    s.sbc.roundNo = 0 ∧ s.sbc.overrun = false ∧ s.sbc.stuckTimes = [] ∧ s.sbc.pass = none) ∧
  (s.pos.pose = .reset ∧ s.pos.slewMem = none ∧ s.pos.mainMem = none ∧ s.pos.pose.valid = false ∧
    s.pos.pose.zone = .unknown ∧ s.pos.pose.sector = .front) ∧
  (s.wge.liftState = .open_ ∧ s.wge.tag = none ∧ s.wge.live = [] ∧ s.wge.prev = none ∧ s.wge.zeroSuspect = false ∧
    s.wge.az.count = 0 ∧ s.wge.tare = none ∧ s.wge.cal = none) ∧
  (s.tlu.slots = [.fresh 0] ∧ s.tlu.current = 0 ∧ s.tlu.log = [] ∧ s.tlu.nextLift = 1 ∧ s.tlu.trip.state = .empty ∧
    s.tlu.trip.number = 0 ∧ s.tlu.history = []) ∧
  (s.cpm.monitor = .normal ∧ s.cpm.u = 0 ∧ s.cpm.uOk = true ∧ s.cpm.page = 0 ∧ s.cpm.f = 1024 ∧ s.cpm.cEff = 0 ∧
    s.cpm.figOk = false ∧ s.cpm.permit = none ∧ ∀ i : Fin 3, s.cpm.overrides[i] = .clear) ∧
  (s.wt.capture = none ∧ s.wt.live = .none_ ∧ s.wt.u = { val := 0, ok := true } ∧ s.wt.tag = none) ∧
  (s.hls.masks.state = motionLines ∧ s.hls.masks.levels = motionLines ∧ s.hls.senseTimer = 10 ∧
    ∀ l : Line, (s.hls.sense[l.idx]).observed = none ∧ (s.hls.sense[l.idx]).fault = false) ∧
  (s.stc.op = .start ∧ s.stc.preloading = true ∧ s.stc.marker = false) ∧
  (s.mpt.cab.enable = 0x3FF#16 ∧ s.mpt.service.enable = 0#16 ∧
    ∀ p : Port, (s.port p).rx = .hunt ∧ (s.port p).held = none ∧ (s.port p).reply = none ∧ (s.port p).tx = none ∧
      (s.port p).queue = [] ∧ (s.port p).gap = false)

/-- The state after reset keeps every law of Safety.lean (R35, R103, R110, R148, R150, R164, R179, R182, R209, R213, R217). Some
clauses rest on the model's own: the settings at their defaults during START and in an image never written (notes/assumptions/4.md,
5.md), when transmitters begin (8.md, 9.md), and what marks a stopping bus and a waiting BUS_RESTART (12.md, 18.md). -/
def Obligations.ResetKeepsTheLaws : Prop :=
  let s := State.reset
  s.tlu.lawful ∧ s.tlu.wellKept ∧ s.stateHeld ∧ s.faultHeld ∧ s.capHeld ∧ s.watchHeld ∧ s.busLawful ∧ s.sbc.inRanges ∧
    s.mpt.cab.served ∧ s.mpt.service.served ∧ s.mpt.queuesFit ∧ s.slotsLawful ∧ s.calHeld ∧ s.stc.ordered ∧ s.cpm.inRanges

/-- The state a warm reset leaves: retained memory (the tally, zero and span, the OPEN watch definitions), the stored image, and the
model's own fields; everything else as a cold reset leaves it. It follows a RESTART once its OK reply has been sent in full, and
a return of supply with the marker intact; without the marker the start is cold, and the marker stays lost until that start has
ended, so that a supply lost before then starts cold again (R92, R135, R176, R195, R204; notes/assumptions/36.md). That the working
settings stand at their defaults until the preload ends, what is held while the supply is away, and that every reset clears a port's
break mark, are the model's choice (notes/assumptions/4.md, 19.md, 24.md, 40.md). -/
def Obligations.ResetsAndSupply : Prop :=
  ∀ s : State,
    let warm : State := { State.reset with
      tlu := s.tlu
      wge := { Wge.reset with z := s.wge.z, span := s.wge.span }
      wt := { Wt.reset with entries := s.wt.entries.map (fun x =>
        { d := if x.d.owner = .open_ then x.d else defaultWatchDef, hit := false, matching := false, last := none }) }
      stc := { Stc.reset with image := s.stc.image, startWarm := true, marker := true }
      sched := s.sched
      pending := s.pending }
    (s.stc.marker = true → exec .powerOn s = .next warm) ∧
    (s.stc.marker = false → exec .powerOn s =
      .next { State.reset with
        stc := { Stc.reset with image := s.stc.image }, sched := s.sched, pending := s.pending }) ∧
    (s.powered = true → s.stc.restart = .due → exec .restartReset s = .next warm) ∧
    (∀ f, s.powered = true → s.stc.restart = .replying → s.mpt.service.tx = some f → f.kind = 0xBC#8 → f.status = 0#8 →
      ∃ t, exec (.frameSent .service) s = .next t ∧ t.stc = { s.stc with restart := .due }) ∧
    (∀ lost : Bool, ∃ t, exec (.supplyLoss lost) s = .next t ∧ t.powered = false ∧ t.outputs = 0#6 ∧ t.tlu = s.tlu ∧
      t.wge.z = s.wge.z ∧ t.wge.span = s.wge.span ∧ t.stc.image = s.stc.image ∧
      t.stc.marker = (s.stc.marker && !lost) ∧
      ∀ k : Fin 8, s.wt.entries[k].d.owner = .open_ → t.wt.entries[k].d = s.wt.entries[k].d)

/-- The end of START: with a good image the blocks hold what it stores, zero and span only at a cold start, and the part goes to RUN;
with a bad one they hold the defaults and an empty poll list, the settings-bad mark is set, and the part goes to SERVICE. The bus
leaves STOPPED, STATE withdraws its hold, the retained-valid marker is intact, and a STATE_CHANGE report is queued (R40, R92, R176,
R179, R192 to R195; notes/assumptions/36.md). That a read failure leaves the stored image as it was is the model's
reading (notes/assumptions/45.md). -/
def Obligations.PreloadInstalls : Prop :=
  ∀ (failed : Bool) (s : State), s.powered = true → s.stc.preloading = true → s.stc.op = .start → s.sbc.bus = .stopped →
    s.sbc.stopping = false →
    let i := s.stc.image
    let good := failed = false ∧ i.invalid = false ∧ i.check = Config.settingsCheck i.contents
    ∃ t v : State, exec (.preloadDone failed) s = .next t ∧ t = v.pump ∧ t.stc.preloading = false ∧ t.sbc.bus = .running ∧
      t.hls.masks.state = 0#6 ∧ t.sbc.busFreeLow = false ∧ t.sbc.roundTimer = some (s.now + 10) ∧ t.sbc.roundNo = 0 ∧
      t.stc.image = i ∧ t.stc.marker = true ∧ t.tlu = s.tlu ∧
      (good → Queued [.stateChange] (stateReport 1 0 false) s v ∧ t.stc.op = .run ∧ t.stc.settingsBad = false ∧
        t.cfg = i.contents.settings ∧
        t.sbc.entries.map (fun e => e.pd) = i.contents.pollList ∧
        t.wge.z = (if s.stc.startWarm = true then s.wge.z else i.contents.z) ∧
        t.wge.span = (if s.stc.startWarm = true then s.wge.span else i.contents.span) ∧
        ∀ (k : Fin 8) (d : WatchDef), i.contents.locked[k] = some d → d.owner = .locked → t.wt.entries[k].d = d) ∧
      (¬good → Queued [.stateChange] (stateReport 2 0 true) s v ∧ t.stc.op = .service ∧ t.stc.settingsBad = true ∧
        t.cfg = defaultSettings ∧ t.sbc.entries = [] ∧ t.wge.z = 0 ∧ t.wge.span = 1000 ∧
        ∀ k : Fin 8, s.wt.entries[k].d.owner = .locked → t.wt.entries[k].d = defaultWatchDef) ∧
      (∀ e ∈ t.sbc.entries, e.failures = 3 ∧ e.expectWaking = true ∧ e.slot = none ∧ e.stale = true ∧ e.restarts = 0)

/-! ### Laws that every step keeps -/

/-- The two laws of R110, every tally figure within its limit and every slot whose SATURATED flag is clear balanced, are kept by every
step; and slot 0 goes on holding UNSORTED, the current assortment stays defined, and log, history and counters stay within their
limits (R109, R111, R115, R119, R122, R127). -/
def Obligations.TallyLawsKept : Prop :=
  (∀ s t : State, s.tlu.lawful → step s = .next t → t.tlu.lawful) ∧
  (∀ s t : State, s.tlu.wellKept → step s = .next t → t.tlu.wellKept)

/-- STATE goes on presenting what the operating state calls for, so that the five motion lines are commanded ACTIVE in START and
STANDBY (R179), and FAULT goes on presenting ALERT exactly while a motion line's FAULT flag is set (R182). -/
def Obligations.StateAndFaultMasksKept : Prop :=
  (∀ s t : State, s.stateHeld → step s = .next t → t.stateHeld) ∧
  (∀ s t : State, s.faultHeld → step s = .next t → t.faultHeld)

/-- CAP asks for the lines of R150's table, and every step keeps it presenting what the monitor state and the permit call for, with a
permit running only in HOLD; U stays at most 9,999 (R2, R145, R150). -/
def Obligations.CapMaskKept : Prop :=
  (∀ (l : Line) (permit : Bool),
     names (capMask .normal permit) l = false ∧
     (names (capMask .warn permit) l = true ↔ l = .alert) ∧
     (names (capMask .hold false) l = true ↔ l = .boomOut ∨ l = .teleOut ∨ l = .lower ∨ l = .alert) ∧
     (names (capMask .hold true) l = true ↔ l = .boomOut ∨ l = .teleOut ∨ l = .alert) ∧
     (names (capMask .blind permit) l = true ↔ l = .boomOut ∨ l = .teleOut ∨ l = .lower ∨ l = .alert)) ∧
  (∀ s t : State, s.capHeld → step s = .next t → t.capHeld) ∧
  (∀ s t : State, s.cpm.inRanges → step s = .next t → t.cpm.inRanges)

/-- Every WATCH source goes on presenting its entry's hold mask while the entry, or its pair, acts with HOLD and matches, and
the empty mask otherwise (R164, R166). -/
def Obligations.WatchMasksKept : Prop := ∀ s t : State, s.watchHeld → step s = .next t → t.watchHeld

/-- The bus stays STOPPED in START and STANDBY, its timers run as its state gives, and the kept STUCK times stay empty in DOWN (R32,
R33, R35); failure counts, restart counts, the round number and the kept STUCK times stay within their ranges (R15, R19, R32). The
clauses on a bus that is stopping, on a start that waits for it and on the timers halted at once are the model's choice
(notes/assumptions/12.md), and so is the one on a waiting BUS_RESTART (18.md). -/
def Obligations.BusLawsKept : Prop :=
  (∀ s t : State, s.busLawful → step s = .next t → t.busLawful) ∧
  (∀ s t : State, s.sbc.inRanges → step s = .next t → t.sbc.inRanges)

/-- No idle transmitter is left with a reply to send, nor with a report unless a held frame's turn comes first (R209; the model's
choice of the moment, notes/assumptions/8.md and 9.md), and no report queue grows beyond 16 (R217). -/
def Obligations.PortLawsKept : Prop :=
  (∀ s t : State, s.mpt.cab.served → s.mpt.service.served → step s = .next t → t.mpt.cab.served ∧ t.mpt.service.served) ∧
  (∀ s t : State, s.mpt.queuesFit → step s = .next t → t.mpt.queuesFit)

/-- No two delayed slots share port, kind and body, and at most one work of each kind is WORKING (R213). A working CAL_SPAN has a lift
in CARRYING or WEIGHED (R103, R106). -/
def Obligations.DelayedSlotsKept : Prop :=
  (∀ s t : State, s.slotsLawful → step s = .next t → t.slotsLawful) ∧
  (∀ s t : State, s.calHeld → step s = .next t → t.calHeld)

/-- U_warn ≤ U_hold, U_rel ≤ U_hold − 10 and N_min ≤ N stay true of the working settings and of what is stored (R148,
R202). -/
def Obligations.SettingsStayOrdered : Prop := ∀ s t : State, s.stc.ordered → step s = .next t → t.stc.ordered

/-- Only a poll's completion, PARAM_WRITE, a start, or a frame that may be a PARAM_WRITE changes the working zero or the
working span (R92, R93: the writers are auto-zero, TARE and CAL_SPAN completions, which fall in a LINK arrival, and
PARAM_WRITE). -/
def Obligations.ZeroAndSpanWriters : Prop :=
  ∀ (c : Instr) (s t : State), carriesAnyFrame c = false → isStart c = false →
    (∀ o, c ≠ .pollTransactionDone o) → (∀ p b, c ≠ .paramWrite p b) → exec c s = .next t →
    t.wge.z = s.wge.z ∧ t.wge.span = s.wge.span

/-- In RUN and SERVICE only ENTER_SERVICE, LEAVE_SERVICE, STANDBY, a start, or a frame that may be one of these changes the
operating state (R192). -/
def Obligations.OperatingStateChangers : Prop :=
  ∀ (c : Instr) (s t : State), carriesAnyFrame c = false → isStart c = false →
    (s.stc.op = .run ∨ s.stc.op = .service) →
    (∀ p b, c ≠ .enterService p b) → (∀ p b, c ≠ .leaveService p b) → (∀ p b, c ≠ .standby p b) →
    exec c s = .next t → t.stc.op = s.stc.op

/-! ### The judgement of frames (R200, R207, R208) -/

/-- The refusals of R207 for a port that is free to judge: row 1, in START every request is START_BUSY; rows 4 to 6 in RUN and
SERVICE, a request that the port does not admit is LOCKED on the cab port in SERVICE and WRONG_STATE otherwise, and a body length
that its kind does not allow is BAD_FIELD; nothing else of the part changes. A frame of an unknown kind is START_BUSY in START and
UNKNOWN_KIND in RUN and SERVICE, with nothing else changed; in STANDBY it is WAKING and wakes the part as any frame does, row 2.
That the state is judged before the kind is looked at is R207's order; which command such a frame is, is the model's choice
(notes/assumptions/10.md). -/
def Obligations.RefusedFrames : Prop :=
  (∀ (r : Req) (p : Port) (body : List Byte) (s : State), Ready p s → s.stc.op = .start →
     exec (r.frame p body) s = .next ((s.heard p).answered p r.code .startBusy [])) ∧
  (∀ (r : Req) (p : Port) (body : List Byte) (s : State), Ready p s → (s.stc.op = .run ∨ s.stc.op = .service) →
     (admits p s.stc.op r = false → p = .cab → s.stc.op = .service →
       exec (r.frame p body) s = .next ((s.heard p).answered p r.code .locked [])) ∧
     (admits p s.stc.op r = false → (p = .service ∨ s.stc.op = .run) →
       exec (r.frame p body) s = .next ((s.heard p).answered p r.code .wrongState [])) ∧
     (admits p s.stc.op r = true → bodyFits r body = false →
       exec (r.frame p body) s = .next ((s.heard p).answered p r.code .badField []))) ∧
  (∀ (p : Port) (kind : Byte) (body : List Byte) (s : State), Ready p s → Req.ofCode kind = none →
     (s.stc.op = .run ∨ s.stc.op = .service →
       exec (.unknownKind p kind body) s = .next ((s.heard p).answered p kind .unknownKind [])) ∧
     (s.stc.op = .start →
       exec (.unknownKind p kind body) s = .next ((s.heard p).answered p kind .startBusy [])) ∧
     (s.stc.op = .standby →
       exec (.unknownKind p kind body) s = .next ((changeState .run (s.heard p)).answered p kind .waking [])))

/-- In STANDBY a frame of any kind, a request's own command among them, is answered WAKING and not acted on, and the part goes to RUN:
STATE presents the empty mask, a STATE_CHANGE report is queued (R192), and the bus leaves STOPPED, every entry expecting its waking
condition (R35, R200; row 2 of R207) and owing the first sample at which rates and the previous mass start over (R54, R58, R60; as
the model marks it, notes/assumptions/35.md). The pose stays as it stood (R58; notes/assumptions/46.md). -/
def Obligations.StandbyWakes : Prop :=
  (∀ (p : Port) (kind : Byte) (body : List Byte) (s : State), Ready p s → s.stc.op = .standby → s.sbc.bus = .stopped →
     s.sbc.stopping = false →
     ∃ t u : State, exec (.standbyWake p kind body) s = .next t ∧ t = u.answered p kind .waking [] ∧
       Queued [.stateChange] (stateReport 1 3 s.stc.settingsBad) s u ∧ t.stc.op = .run ∧ t.hls.masks.state = 0#6 ∧
       t.sbc.bus = .running ∧ t.sbc.busFreeLow = false ∧ t.sbc.roundNo = 0 ∧ t.sbc.roundTimer = some (s.now + 10) ∧
       t.sbc.entries = s.sbc.entries.map (fun e => { e with expectWaking := true, firstDue := true }) ∧
       t.tlu = s.tlu ∧ t.wge = s.wge ∧ t.pos = s.pos ∧ t.cpm = s.cpm ∧ t.wt = s.wt ∧ t.mpt.slots = s.mpt.slots ∧
       ((t.port p).tx = some { kind := replyKind kind, status := 0x12#8, body := [] } ∨
         (t.port p).reply = some { kind := replyKind kind, status := 0x12#8, body := [] })) ∧
  (∀ (r : Req) (p : Port) (body : List Byte) (s : State), Ready p s → s.stc.op = .standby →
     exec (r.frame p body) s = exec (.standbyWake p r.code body) s)

/-- While a reply waits or is being sent, a frame received whole is held; while one is held, a further one is discarded without a
reply. A held frame is judged and handled once the reply before it has been sent in full, as the same frame received whole at that
moment would be (R208). -/
def Obligations.HeldFrames : Prop :=
  (∀ (p : Port) (kind : Byte) (body : List Byte) (s : State), s.powered = true → (s.port p).breakOn = false →
     ((s.port p).held = none → (s.port p).replyBusy = true →
       exec (.frameHeld p kind body) s =
         .next (s.setPort p { s.port p with rx := .hunt, held := some (kind, body) }).pump) ∧
     ((s.port p).held.isSome = true → exec (.frameHeld p kind body) s = .next (s.heard p).pump)) ∧
  (∀ (p : Port) (r : Req) (body : List Byte) (s : State), s.powered = true → (s.port p).breakOn = false →
     (s.port p).rx = .hunt → (s.port p).held = some (r.code, body) → (s.port p).replyBusy = false →
     s.stc.restart ≠ .due →
     ∃ t, exec (.heldFrameHandled p) s = .next t ∧
       exec (r.frame p body) (s.setPort p { s.port p with held := none }) = .next t)

/-! ### The receiver and the transmitter (R206, R209, R216 to R218) -/

/-- The receiver's table for a byte that completes no frame; the byte that ends a gap of more than 20 ms is examined in HUNT; a gap of
more than 20 ms, a failed CHECK and a low stop bit each return the receiver to HUNT and leave no other trace (R206).
That a gap is read in whole milliseconds is the model's choice (notes/assumptions/11.md). -/
def Obligations.ReceiverTable : Prop :=
  (∀ (p : Port) (b : Byte) (s : State), s.powered = true → (s.port p).breakOn = false →
     let now (x : Rx) := (s.setPort p { s.port p with rx := x, lastByte := s.now }).pump
     ((s.port p).rx = .hunt → exec (.byteArrival p b) s = .next (now (if b = 0xA5#8 then .length else .hunt))) ∧
     ((s.port p).rx = .length → s.now ≤ (s.port p).lastByte + 20 →
       exec (.byteArrival p b) s =
         .next (now (if 1 ≤ b.toNat ∧ b.toNat ≤ 250 then .content b.toNat [] else .hunt))) ∧
     (∀ len got, (s.port p).rx = .content len got → s.now ≤ (s.port p).lastByte + 20 → got.length + 1 < len + 2 →
       exec (.byteArrival p b) s = .next (now (.content len (got ++ [b])))) ∧
     ((s.port p).lastByte + 20 < s.now →
       exec (.byteArrival p b) s = .next (now (if b = 0xA5#8 then .length else .hunt)))) ∧
  (∀ (p : Port) (s : State), s.powered = true →
     ((s.port p).rx ≠ .hunt → (s.port p).lastByte + 20 < s.now →
       exec (.frameGapTimeout p) s = .next (s.heard p).pump) ∧
     exec (.frameBadCheck p) s = .next (s.heard p).pump ∧
     exec (.stopBitLow p) s = .next (s.heard p).pump)

/-- The bytes of a frame sent as R206 lays them out are received whole: fed one by one to a receiver in HUNT, SYNC, LEN, KIND,
the body and CHECK leave it in HUNT with exactly KIND and the body, and the CHECK test passes. -/
def Obligations.WireFramesAreReceived : Prop :=
  ∀ (kind : Byte) (body : List Byte), body.length ≤ 249 →
    let inner := kind :: body
    let feed (x : Rx × Option (Nat × List Byte)) (b : Byte) := x.1.take b
    let wire := 0xA5#8 :: BitVec.ofNat 8 inner.length :: inner ++ be2 (checkOf inner).toNat
    let got := inner ++ be2 (checkOf inner).toNat
    wire.foldl feed (.hunt, none) = (.hunt, some (inner.length, got)) ∧ checkPasses inner.length got = true ∧
      byteAt got 0 = kind ∧ (got.take inner.length).drop 1 = body

/-- The byte that completes a frame whose CHECK passes is the reception of that frame, of a request kind or of an unknown one; one
that completes a frame whose CHECK fails is answered by nothing and leaves the receiver in HUNT (R206). That a frame has a command
of its own beside its bytes, and that a byte 20 ms after the last is in time, are the model's choice (notes/assumptions/10.md,
11.md). -/
def Obligations.CompletingByteIsTheFrame : Prop :=
  ∀ (p : Port) (b : Byte) (len : Nat) (got : List Byte) (s : State), Ready p s →
    (s.port p).rx = .content len got → got.length = len + 1 → 1 ≤ len → s.now ≤ (s.port p).lastByte + 20 →
    let u := s.setPort p { s.port p with rx := .hunt, lastByte := s.now }
    (∀ r : Req, checkPasses len (got ++ [b]) = true → r.code = byteAt (got ++ [b]) 0 →
      exec (.byteArrival p b) s = exec (r.frame p (((got ++ [b]).take len).drop 1)) u) ∧
    (checkPasses len (got ++ [b]) = true → Req.ofCode (byteAt (got ++ [b]) 0) = none →
      exec (.byteArrival p b) s = exec (.unknownKind p (byteAt (got ++ [b]) 0) (((got ++ [b]).take len).drop 1)) u) ∧
    (checkPasses len (got ++ [b]) = false → exec (.byteArrival p b) s = .next u.pump)

/-- When a frame's last byte has gone, a waiting reply is begun; with no reply waiting and no frame held, the oldest report is,
carrying GAP when the gap flag was set, which it clears; with neither, the transmitter is idle (R209, R217). -/
def Obligations.TransmitterOrder : Prop :=
  ∀ (p : Port) (f : OutFrame) (s : State), s.powered = true → s.stc.restart = .none_ → (s.port p).tx = some f →
    ∃ t, exec (.frameSent p) s = .next t ∧
      (∀ r, (s.port p).reply = some r → (t.port p).tx = some r ∧ (t.port p).reply = none ∧
        (t.port p).queue = (s.port p).queue ∧ (t.port p).gap = (s.port p).gap) ∧
      (∀ r rest, (s.port p).reply = none → (s.port p).held = none → (s.port p).queue = r :: rest →
        (t.port p).tx = some { r with status := if (s.port p).gap = true then 0x01#8 else 0x00#8 } ∧
        (t.port p).queue = rest ∧ (t.port p).gap = false) ∧
      ((s.port p).reply = none → (s.port p).queue = [] → (t.port p).tx = none) ∧
      t.stc = s.stc ∧ t.sbc = s.sbc ∧ t.wge = s.wge ∧ t.tlu = s.tlu ∧ t.cpm = s.cpm ∧ t.wt = s.wt ∧ t.hls = s.hls ∧
      t.mpt.slots = s.mpt.slots

/-- A port break empties the port's receiver, held frame, waiting reply and queue, clears its gap flag and frees its slots; the frame
being sent, the enable mask and the other port's state stay, and every block but SBC, whose passthrough not yet issued a break on the
service port drops. While it lasts no byte is taken; when the line returns to idle the receiver is in HUNT (R38, R216). -/
def Obligations.PortBreak : Prop :=
  (∀ (p : Port) (s : State), s.powered = true → s.stc.restart = .none_ → (s.port p).breakOn = false →
     ∃ t, exec (.portBreak p) s = .next t ∧
       t.port p = { s.port p with
         rx := .hunt, held := none, reply := none, queue := [], gap := false, breakOn := true } ∧
       (∀ q, q ≠ p → t.port q = (s.port q).pump) ∧
       (∀ i : Fin 4, t.mpt.slots[i] = match s.mpt.slots[i] with
         | some d => if d.port = p then none else some d
         | none => none) ∧
       (t.sbc.pass = if p = .service ∧ s.sbc.passWaiting = true then none else s.sbc.pass) ∧
       t.stc = s.stc ∧ t.wge = s.wge ∧ t.tlu = s.tlu ∧ t.cpm = s.cpm ∧ t.wt = s.wt ∧ t.hls = s.hls ∧ t.pos = s.pos) ∧
  (∀ (p : Port) (s : State), s.powered = true → (s.port p).breakOn = true →
     exec (.lineReturnsToIdle p) s = .next (s.setPort p { s.port p with breakOn := false, rx := .hunt }).pump ∧
     ∀ b, exec (.byteArrival p b) s = .next s.pump)

/-- REPORT_ENABLE replaces the port's mask, or is BAD_FIELD for a mask with any of bits 10 to 15 set (R218). A report is queued on a
port when its kind is enabled there and fewer than 16 wait; an enabled one that finds 16 is discarded and sets the gap flag; a
disabled one does nothing (R217). -/
def Obligations.ReportRules : Prop :=
  (∀ (p : Port) (hi lo : Byte) (s : State), Admitted p .reportEnable [hi, lo] s →
     exec (.reportEnable p [hi, lo]) s =
       .next (if hi.toNat < 4 then
           ((s.heard p).setPort p { (s.heard p).port p with
             enable := BitVec.ofNat 16 (hi.toNat * 256 + lo.toNat) }).answered p 0x3D#8 .ok [hi, lo]
         else (s.heard p).answered p 0x3D#8 .badField [])) ∧
  (∀ (s : State) (r : Report) (body : List Byte) (p : Port),
     let q := s.port p
     (s.queueReport r body).port p =
       if q.enable.getLsbD r.bit = true then
         if q.queue.length < 16 then
           { q with queue := q.queue ++ [{ kind := BitVec.ofNat 8 (0xC0 + r.bit), status := 0#8, body := body }] }
         else { q with gap := true }
       else q)

/-! ### The reading requests -/

/-- STATUS is answered OK with its body of 63 bytes, after which the round-overrun flag is clear and nothing else has changed; POSE,
SENSORS, POLL_READ and LINES_READ are answered OK with their bodies and change nothing (R18, R39, R57, R189, R219). -/
def Obligations.StatusAndBusReads : Prop :=
  (∀ (p : Port) (s : State), Admitted p .status [] s →
     exec (.status p []) s =
         .next (((s.heard p).setSbc { s.sbc with overrun := false }).answered p 0x01#8 .ok (statusBody s p)) ∧
     (statusBody s p).length = 63) ∧
  (∀ (p : Port) (s : State),
     (Admitted p .pose [] s →
       exec (.pose p []) s = .next ((s.heard p).answered p 0x02#8 .ok (poseBody s.pos.pose s.sbc))) ∧
     (Admitted p .sensors [] s →
       exec (.sensors p []) s = .next ((s.heard p).answered p 0x03#8 .ok (sensorsBody s.sbc s.now))) ∧
     (Admitted p .pollRead [] s →
       exec (.pollRead p []) s = .next ((s.heard p).answered p 0x04#8 .ok (pollBody s.sbc))) ∧
     (Admitted p .linesRead [] s →
       exec (.linesRead p []) s = .next ((s.heard p).answered p 0x2D#8 .ok (linesBody s.hls))))

/-- TALLY_READ of parts 1 to 4, LOG_READ of a resident lift and of the newest k, TRIP_READ of the working record and of a history
entry, k counted from the newest, CHART_READ of a run within the chart, WATCH_READ of all entries and of one, and PARAM_READ of a
known id are answered OK and change nothing; other selectors, parts, numbers, runs, indices and ids are BAD_FIELD, and what is not
held NOT_FOUND (R121, R127, R133, R140, R175, R202, R211). That a TRIP_READ's fields are judged before its entry is looked for, and
that a record with an empty list counts as one part, are the model's reading (notes/assumptions/26.md, 43.md). -/
def Obligations.RecordAndTableReads : Prop :=
  (∀ (p : Port) (s : State),
     (∀ part : Byte, Admitted p .tallyRead [part] s →
       exec (.tallyRead p [part]) s =
         .next (if 1 ≤ part.toNat ∧ part.toNat ≤ 4 then
             (s.heard p).answered p 0x13#8 .ok (tallyBody s.tlu part.toNat)
           else (s.heard p).answered p 0x13#8 .badField [])) ∧
     (∀ hi lo : Byte, Admitted p .logRead [0#8, hi, lo] s → hi.toNat * 256 + lo.toNat ≠ 0 →
       exec (.logRead p [0#8, hi, lo]) s =
         .next (match s.tlu.find (hi.toNat * 256 + lo.toNat) with
           | some r => (s.heard p).answered p 0x14#8 .ok (1#8 :: liftRecordBytes r)
           | none => (s.heard p).answered p 0x14#8 .notFound [])) ∧
     (∀ k : Byte, Admitted p .logRead [1#8, 0#8, k] s → 1 ≤ k.toNat → k.toNat ≤ 8 →
       exec (.logRead p [1#8, 0#8, k]) s =
         .next ((s.heard p).answered p 0x14#8 .ok (logBody (s.tlu.log.reverse.take k.toNat)))) ∧
     (∀ sel hi lo : Byte, Admitted p .logRead [sel, hi, lo] s →
       (2 ≤ sel.toNat ∨ hi.toNat * 256 + lo.toNat = 0 ∨ (sel.toNat = 1 ∧ 8 < hi.toNat * 256 + lo.toNat)) →
       exec (.logRead p [sel, hi, lo]) s = .next ((s.heard p).answered p 0x14#8 .badField [])) ∧
     (∀ sel k part : Byte, Admitted p .tripRead [sel, k, part] s →
       (2 ≤ sel.toNat ∨ part.toNat = 0 ∨ 2 < part.toNat ∨ (sel.toNat = 1 ∧ (k.toNat = 0 ∨ 8 < k.toNat))) →
       exec (.tripRead p [sel, k, part]) s = .next ((s.heard p).answered p 0x17#8 .badField [])) ∧
     (∀ k part : Byte, Admitted p .tripRead [0#8, k, part] s → 1 ≤ part.toNat → part.toNat ≤ 2 →
       exec (.tripRead p [0#8, k, part]) s =
         .next ((s.heard p).answered p 0x17#8 .ok (tripRecordBytes s.tlu.trip part.toNat))) ∧
     (∀ k part : Byte, Admitted p .tripRead [1#8, k, part] s → 1 ≤ part.toNat → part.toNat ≤ 2 → 1 ≤ k.toNat →
       k.toNat ≤ 8 →
       exec (.tripRead p [1#8, k, part]) s =
         .next (match s.tlu.history.reverse[k.toNat - 1]? with
           | some x => (s.heard p).answered p 0x17#8 .ok (tripRecordBytes x part.toNat)
           | none => (s.heard p).answered p 0x17#8 .notFound []))) ∧
  (∀ (p : Port) (s : State),
     (∀ first count : Byte, Admitted p .chartRead [first, count] s →
       exec (.chartRead p [first, count]) s =
         .next (if 1 ≤ count.toNat ∧ first.toNat + count.toNat ≤ 64 then
             (s.heard p).answered p 0x22#8 .ok (chartBody s.cfg.cap s.cpm.overrides first.toNat count.toNat)
           else (s.heard p).answered p 0x22#8 .badField [])) ∧
     (Admitted p .watchRead [] s →
       exec (.watchRead p []) s = .next ((s.heard p).answered p 0x28#8 .ok (watchReply s.wt (List.finRange 8)))) ∧
     (∀ k : Fin 8, Admitted p .watchRead [BitVec.ofNat 8 k.val] s →
       exec (.watchRead p [BitVec.ofNat 8 k.val]) s = .next ((s.heard p).answered p 0x28#8 .ok (watchReply s.wt [k]))) ∧
     (∀ k : Byte, 8 ≤ k.toNat → Admitted p .watchRead [k] s →
       exec (.watchRead p [k]) s = .next ((s.heard p).answered p 0x28#8 .badField [])) ∧
     (∀ id : Byte, Admitted p .paramRead [id] s →
       exec (.paramRead p [id]) s =
         .next (match Param.ofCode id.toNat with
           | some q => (s.heard p).answered p 0x30#8 .ok (id :: beBytes 4 (q.read s))
           | none => (s.heard p).answered p 0x30#8 .badField [])))

/-! ### The sensor bus -/

/-- The outcome of a poll transaction, the first row of R23 that applies: the data line found low; no acknowledgement, WAKING where
expect-waking is set; a stretch beyond 2 ms; a bad check byte; READY clear; a value out of the role's range; OK. -/
def Obligations.PollOutcomeRows : Prop :=
  ∀ (waking stretched : Bool) (r : Role) (obs : PollObs),
    let o := judgePoll waking stretched r obs
    let low := obs.lowAtStart = true ∨ obs.lowAtStop = true
    let x := obs.record
    let sum := x.status.toNat + x.value2.toNat + x.value1.toNat + x.value0.toNat
    let good := x.check.toNat = 255 - sum % 256
    (low → o = .stuck) ∧
    (¬low → obs.acked = false → o = if waking = true then .waking else .nakAddr) ∧
    (¬low → obs.acked = true → stretched = true → o = .stretchTimeout) ∧
    (¬low → obs.acked = true → stretched = false → ¬good → o = .badCheck) ∧
    (¬low → obs.acked = true → stretched = false → good → x.status.getLsbD 0 = false → o = .notReady) ∧
    (¬low → obs.acked = true → stretched = false → good → x.status.getLsbD 0 = true →
      (o = .ok ∨ o = .badValue) ∧
      (r = .slew → (o = .ok ↔ 0 ≤ recordValue x ∧ recordValue x ≤ 3599)) ∧
      (r = .main → (o = .ok ↔ -300 ≤ recordValue x ∧ recordValue x ≤ 850)) ∧
      (r = .outer → (o = .ok ↔ 150 ≤ recordValue x ∧ recordValue x ≤ 1750)) ∧
      (r = .tele → (o = .ok ↔ 0 ≤ recordValue x ∧ recordValue x ≤ 4000)) ∧
      (r = .grip → (o = .ok ↔ recordValue x = 0 ∨ recordValue x = 1)) ∧
      (r = .tilt → (o = .ok ↔ -450 ≤ pitchOf (recordValue x) ∧ pitchOf (recordValue x) ≤ 450 ∧
        -450 ≤ rollOf (recordValue x) ∧ rollOf (recordValue x) ≤ 450)) ∧
      (r = .link → o = .ok))

/-- A round's poll completes in RUNNING. An outcome other than STUCK and WAKING: expect-waking is clear, the outcome is the last
one, failures and restarts count as R24 and R26 state, OK holds the value with its arrival time and delivers it, plain or returning, to
WGE or POS (R27), nothing being delivered otherwise, nor for an entry disabled meanwhile (notes/assumptions/16.md), no other entry
changes, and the round goes on or ends, its end putting a waiting passthrough on the bus (R19, R37; as the model reads them,
notes/assumptions/17.md); a sample that comes while stale, or first after the bus left STOPPED, restarts SLEW's or MAIN's rate from
0, and one of LINK then never enters the auto-zero window (R54, R58, R60, R95), while one that comes first but fresh is delivered
plain and reports no return (R27; as the model reads them, notes/assumptions/35.md). WAKING: the same entry is polled again at once,
its failures as they were. STUCK: the bus enters RECOVERING with its pulse and keeps the time; the third within 1,000 ms takes it to
DOWN with every entry MISSING (R23 to R27, R31, R32). The SENSOR_STATE reports of R30 are queued, those of DOWN in list order (the
model's choice, notes/assumptions/37.md). A poll whose entry a POLL_WRITE took away changes no entry (R17), yet a data line found
low moves the bus (the model's reading, notes/assumptions/14.md). A poll that ends on a bus already STOPPED has its outcome applied,
and the stop ends: the line low, no kept time, or, when a wake has come meanwhile, round 0 at once (R35; the model's choice,
notes/assumptions/12.md, 13.md). -/
def Obligations.PollTransactionEnds : Prop :=
  (∀ (obs : PollObs) (t : Txn) (r : Role) (a : Nat) (e : Entry) (s : State), s.powered = true → s.sbc.bus = .running →
    s.sbc.stopping = false → s.sbc.restartPending = false → s.sbc.txn = some t → t.kind = .poll r a → t.discarded = false →
    s.sbc.entryOf r = some e →
    let o := judgePoll e.expectWaking t.stretched r obs
    ∃ u, exec (.pollTransactionDone obs) s = .next u ∧ (r ≠ .grip → u.tlu = s.tlu) ∧
      u.stc = s.stc ∧
      (o ≠ .waking → ∃ v : State, u = v.pump ∧
        PollApplied e o obs.record (decide (o = .stuck) && s.sbc.thirdStuck s.now) s v u.sbc.entries) ∧
      (o ≠ .stuck → o ≠ .waking → u.sbc.bus = .running ∧
        (s.sbc.roundActive = true → s.sbc.due = [] → u.sbc.roundActive = false ∧
          u.sbc.txn = if s.sbc.pass.isSome = true then some { kind := .pass, stretched := false, discarded := false } else none) ∧
        (∀ r' rest, s.sbc.roundActive = true → s.sbc.due = r' :: rest → u.sbc.due = rest ∧
          u.sbc.txn = some { kind := .poll r' (s.sbc.addrOf r'), stretched := false, discarded := false })) ∧
      (o = .ok → e.pd.enable = true → (e.stale = true ∨ e.firstDue = true) →
        let restarted : RateMem := { value := recordValue obs.record, time := s.now, rate := 0 }
        (r = .slew → u.pos.slewMem = some restarted) ∧ (r = .main → u.pos.mainMem = some restarted) ∧
        (r = .link → s.cfg.sw.autoZero = true → s.wge.lift = none → s.wge.tare = none → u.wge.az.count = 0)) ∧
      (o = .ok → e.pd.enable = true →
        SampleDelivered e { value := recordValue obs.record, mark := obs.record.status.getLsbD 1, time := s.now } u.sbc.entries s u) ∧
      ((o ≠ .ok ∨ e.pd.enable = false) →
        u.wge = s.wge ∧ u.pos = s.pos ∧ u.tlu = s.tlu ∧ u.cpm = s.cpm ∧ u.wt = s.wt ∧ u.hls = s.hls) ∧
      (o = .waking → u.sbc.bus = .running ∧ u.sbc.txn = some { t with stretched := false } ∧
        u.sbc.entries = s.sbc.entries.map (fun x =>
          if x.pd.role = r then { e with expectWaking := false, last := .waking } else x)) ∧
      (o = .stuck → s.sbc.thirdStuck s.now = false → u.sbc.bus = .recovering ∧ u.sbc.busFreeLow = true ∧
        u.sbc.phase = .pulse (s.now + 1) ∧ u.sbc.due = [] ∧ u.sbc.txn = none ∧
        u.sbc.stuckTimes = lastN 2 (s.sbc.stuckTimes ++ [s.now])) ∧
      (o = .stuck → s.sbc.thirdStuck s.now = true → u.sbc.bus = .down ∧ u.sbc.attemptTimer = some (s.now + 1000) ∧
        u.sbc.stuckTimes = [] ∧ u.sbc.due = [] ∧ u.sbc.txn = none ∧ ∀ x ∈ u.sbc.entries, x.failures = 3)) ∧
  (∀ (obs : PollObs) (t : Txn) (r : Role) (a : Nat) (s : State), s.powered = true → s.sbc.bus = .running →
    s.sbc.stopping = false → s.sbc.restartPending = false → s.sbc.txn = some t → t.kind = .poll r a → t.discarded = true →
    let low := obs.lowAtStart = true ∨ obs.lowAtStop = true
    ∃ u, exec (.pollTransactionDone obs) s = .next u ∧ u.pos = s.pos ∧ u.wge = s.wge ∧ u.tlu = s.tlu ∧ u.cpm = s.cpm ∧
      u.stc = s.stc ∧
      (¬low → u.sbc.bus = .running ∧ u.sbc.entries = s.sbc.entries ∧ u.sbc.stuckTimes = s.sbc.stuckTimes ∧
        ∀ r' rest, s.sbc.roundActive = true → s.sbc.due = r' :: rest →
          u.sbc.txn = some { kind := .poll r' (s.sbc.addrOf r'), stretched := false, discarded := false }) ∧
      (low → s.sbc.thirdStuck s.now = false → u.sbc.bus = .recovering ∧ u.sbc.entries = s.sbc.entries) ∧
      (low → s.sbc.thirdStuck s.now = true → u.sbc.bus = .down)) ∧
  (∀ (obs : PollObs) (t : Txn) (r : Role) (a : Nat) (e : Entry) (s : State), s.powered = true → s.sbc.bus = .stopped →
    s.sbc.stopping = true → s.sbc.txn = some t → t.kind = .poll r a → t.discarded = false → s.sbc.entryOf r = some e →
    let o := judgePoll e.expectWaking t.stretched r obs
    ∃ u, exec (.pollTransactionDone obs) s = .next u ∧ u.stc = s.stc ∧
      (o = .waking → u.sbc.bus = .stopped ∧ u.sbc.stopping = true ∧ u.sbc.txn = some { t with stretched := false }) ∧
      (o ≠ .waking → s.sbc.startPending = false →
        u.sbc.bus = .stopped ∧ u.sbc.stopping = false ∧ u.sbc.busFreeLow = true ∧ u.sbc.stuckTimes = [] ∧
        u.sbc.txn = none) ∧
      (o ≠ .waking → ∃ (v : State) (list : List Entry), u = v.pump ∧
        PollApplied e o obs.record (decide (o = .stuck) && s.sbc.thirdStuck s.now) s v list ∧
        (o = .ok → e.pd.enable = true →
          SampleDelivered e { value := recordValue obs.record, mark := obs.record.status.getLsbD 1, time := s.now } list s u) ∧
        u.sbc.entries = if s.sbc.startPending = true then list.map (fun x => { x with expectWaking := true, firstDue := true })
          else list) ∧
      (o ≠ .waking → s.sbc.startPending = true →
        u.sbc.bus = .running ∧ u.sbc.stopping = false ∧ u.sbc.startPending = false ∧ u.sbc.busFreeLow = false ∧
        u.sbc.stuckTimes = [] ∧ u.sbc.roundNo = 0 ∧ u.sbc.roundTimer = some (s.now + 10)))

/-- STRETCH_TIMEOUT marks the transaction in progress, and nothing else changes (R22). A passthrough completes in RUNNING: its
result is the first row of R37 that applies, its bytes those read when OK, its slot, if one is left, DONE for 5 s; the passthrough
slot is free, no entry changes, and a STUCK one moves the bus as R31 and R32 state, DOWN with its SENSOR_STATE reports (R30; 37.md).
That a result other than OK carries no byte is the model's reading (notes/assumptions/21.md). -/
def Obligations.StretchAndPassthrough : Prop :=
  (∀ (t : Txn) (s : State), s.powered = true → s.sbc.txn = some t →
     exec .stretchTimeout s = .next (s.setSbc { s.sbc with txn := some { t with stretched := true } }).pump) ∧
  (∀ (obs : PassObs) (t : Txn) (p : Passthrough) (s : State), s.powered = true → s.sbc.bus = .running → s.sbc.stopping = false →
     s.sbc.restartPending = false → s.sbc.txn = some t → t.kind = .pass → s.sbc.pass = some p →
     let c := passOutcome p t.stretched obs
     let bytes := if c = .ok then obs.bytes.toList.take p.count else []
     (obs.stuck = true → c = .stuck) ∧
     (obs.stuck = false → obs.addrAcked = false → c = .nakAddr) ∧
     (obs.stuck = false → obs.addrAcked = true → p.writes ≠ [] → obs.dataAcked = false → c = .nakData) ∧
     (obs.stuck = false → obs.addrAcked = true → (p.writes = [] ∨ obs.dataAcked = true) →
       c = if t.stretched = true then .stretchTimeout else .ok) ∧
     ∃ u v : State, exec (.passthroughDone obs) s = .next u ∧ u = v.pump ∧ u.sbc.pass = none ∧
       Queued [.sensorState] (if c = .stuck ∧ s.sbc.thirdStuck s.now = true then downReports s.sbc.entries else []) s v ∧
       (∀ i : Fin 4, u.mpt.slots[i] = s.mpt.slots[i].map (fun d =>
         if d.kind = .sensorPass ∧ d.state = .working then
           { d with state := .done (be1 c.num ++ be1 bytes.length ++ bytes) (s.now + 5000) }
         else d)) ∧
       (c ≠ .stuck → u.sbc.bus = .running ∧ u.sbc.entries = s.sbc.entries) ∧
       (c = .stuck → u.sbc.bus = if s.sbc.thirdStuck s.now = true then .down else .recovering) ∧
       u.stc = s.stc ∧ u.tlu = s.tlu ∧ u.wge = s.wge ∧ u.pos = s.pos ∧ u.cpm = s.cpm ∧ u.wt = s.wt ∧ u.hls = s.hls)

/-- A round timer expiry: the timer runs on for 10 ms and the round number advances in every bus state in which it runs; in RUNNING
with no transaction in progress the first due entry in list order is polled, or a waiting passthrough issued; a round cut off raises
the overrun flag; out of RUNNING no poll starts; nothing outside SBC changes (R19, R20, R31, R33, R37). -/
def Obligations.RoundTimerRules : Prop :=
  ∀ (d : Nat) (s : State), s.powered = true → s.sbc.roundTimer = some d → d ≤ s.now →
    ∃ b : Sbc, exec .roundTimerExpiry s = .next (s.setSbc b).pump ∧ b.roundTimer = some (d + 10) ∧
      b.roundNo = (s.sbc.roundNo + 1) % 10 ∧ b.entries = s.sbc.entries ∧ b.bus = s.sbc.bus ∧ b.pass = s.sbc.pass ∧
      (s.sbc.bus ≠ .running → b.txn = s.sbc.txn ∧ b.overrun = s.sbc.overrun ∧ b.due = s.sbc.due) ∧
      (s.sbc.bus = .running → s.sbc.restartPending = false →
        let due := (s.sbc.entries.filter (fun e => e.pd.enable && b.roundNo % e.pd.period == 0)).map (fun e => e.pd.role)
        (s.sbc.roundActive = true → s.sbc.due ≠ [] → b.overrun = true) ∧
        (s.sbc.roundActive = false → b.overrun = s.sbc.overrun) ∧
        (∀ t, s.sbc.txn = some t → b.txn = some t ∧ b.due = due) ∧
        (s.sbc.txn = none → ∀ r rest, due = r :: rest → b.due = rest ∧
          b.txn = some { kind := .poll r (s.sbc.addrOf r), stretched := false, discarded := false }) ∧
        (s.sbc.txn = none → due = [] → b.due = [] ∧ b.roundActive = false ∧
          b.txn = if s.sbc.pass.isSome = true then some { kind := .pass, stretched := false, discarded := false } else none))

/-- A held value whose age first exceeds its role's stale limit becomes stale, its value and arrival time kept, and a SENSOR_STATE
report is queued (R30); the stale event of LINK empties the live window and the previous mass, restarts a window in CARRYING and
hands the marked live mass to CPM, which evaluates, and WT (R142); that of SLEW or MAIN empties its rate memory and marks its field
and the pose invalid; that of GRIP changes nothing more (R28, R60, R62, R68, R77). The pose record that every recomputation forms,
field by field, from the held values and the marks, and hands to CPM and WT (R44, R46 to R52); a role with no value held counts as
stale (absent, or in the model's reading just replaced, notes/assumptions/31.md). An arrival marks its role fresh and recomputes,
with the rate memories of R53 and R54 (R43). -/
def Obligations.StaleEvents : Prop :=
  (∀ (r : Role) (e : Entry) (x : Sample) (s : State), s.powered = true → s.sbc.listedEntry r = some e → e.slot = some x →
    e.stale = false → x.time + staleLimit r < s.now →
    ∃ t v : State, exec (.sensorStale r) s = .next t ∧ t = v.pump ∧
      Queued [.sensorState] [(.sensorState, sensorStateBody { e with stale := true } false)] s v ∧
      t.sbc = { s.sbc with entries := s.sbc.entries.map (fun y => if y.pd.role = r then { y with stale := true } else y) } ∧
      t.tlu = s.tlu ∧ t.stc = s.stc ∧ t.wge.z = s.wge.z ∧ t.wge.span = s.wge.span ∧ t.wge.liftState = s.wge.liftState ∧
      (r = .link → t.wge.live = [] ∧ t.wge.prev = none ∧ t.wge.tare = none ∧ t.wge.cal = none ∧ t.wge.az.count = 0 ∧
        t.pos = s.pos ∧ (∀ l, t.wge.lift = some l → l.stage = .carrying → l.n = 0 ∧ l.sum = 0 ∧ l.flags.sensorGap = true) ∧
        (let lost : Marked := { val := s.wge.liveVal, ok := false }
         t.wt.live = lost ∧ t.cpm = (cpmEvaluate (s.setCpm { s.cpm with liveCopy := lost })).cpm)) ∧
      (r = .slew → t.pos.slewMem = none ∧ t.pos.mainMem = s.pos.mainMem ∧ t.pos.pose.valid = false ∧
        t.pos.pose.s = { s.pos.pose.s with ok := false }) ∧
      (r = .main → t.pos.mainMem = none ∧ t.pos.slewMem = s.pos.slewMem ∧ t.pos.pose.valid = false ∧
        t.pos.pose.alpha = { s.pos.pose.alpha with ok := false }) ∧
      (r ≠ .link → r ≠ .grip → ∃ w : State, t = (recompute w).pump ∧ w.mpt.slots = s.mpt.slots ∧
        w = { s with sbc := t.sbc, mpt := w.mpt, pos := { s.pos with
          fresh := s.pos.fresh.set r false, slewMem := t.pos.slewMem, mainMem := t.pos.mainMem } }) ∧
      ((r = .outer ∨ r = .tele ∨ r = .tilt) → t.pos.slewMem = s.pos.slewMem ∧ t.pos.mainMem = s.pos.mainMem) ∧
      (r = .grip → t.wge = s.wge ∧ t.pos = s.pos ∧ t.cpm = s.cpm ∧ t.wt = s.wt ∧ t.hls = s.hls)) ∧
  (∀ s : State,
    let t := recompute s
    let q := t.pos.pose
    let old := s.pos.pose
    let g := s.cfg.geo
    let z := s.cfg.zones
    let takes (fresh : Bool) (held : Option Int) (before after : Marked) :=
      (∀ v, fresh = true → held = some v → after = { val := v, ok := true }) ∧
      ((fresh = false ∨ held = none) → after = { before with ok := false })
    takes s.pos.fresh.slew ((s.sbc.heldValue .slew).map (fun v => (v + g.slewOff) % 3600)) old.s q.s ∧
    takes s.pos.fresh.main (s.sbc.heldValue .main) old.alpha q.alpha ∧
    takes s.pos.fresh.outer (s.sbc.heldValue .outer) old.beta q.beta ∧
    takes s.pos.fresh.tilt ((s.sbc.heldValue .tilt).map pitchOf) old.pitch q.pitch ∧
    takes s.pos.fresh.tilt ((s.sbc.heldValue .tilt).map rollOf) old.roll q.roll ∧
    (s.sbc.listed .tele = false → q.e = { val := 0, ok := true } ∧ q.teleClamped = false) ∧
    (∀ v, s.sbc.listed .tele = true → s.pos.fresh.tele = true → s.sbc.heldValue .tele = some v →
      q.e = { val := min v g.teleMax, ok := true } ∧ (q.teleClamped = true ↔ (g.teleMax : Int) < v)) ∧
    (s.sbc.listed .tele = true → (s.pos.fresh.tele = false ∨ s.sbc.heldValue .tele = none) →
      q.e = { old.e with ok := false } ∧ q.teleClamped = old.teleClamped) ∧
    ((q.alpha.ok = true ∧ q.beta.ok = true) → q.gamma = { val := q.alpha.val + q.beta.val - 1800, ok := true }) ∧
    (¬(q.alpha.ok = true ∧ q.beta.ok = true) → q.gamma = { old.gamma with ok := false }) ∧
    (q.valid = true ↔ q.s.ok = true ∧ q.alpha.ok = true ∧ q.beta.ok = true ∧ q.e.ok = true) ∧
    (q.valid = true →
      let raw := roundDiv (g.l1 * cosT q.alpha.val + (g.l2 + q.e.val) * cosT q.gamma.val) 16384
      let inBand := if z.slewLo ≤ z.slewHi then (z.slewLo : Int) ≤ q.s.val ∧ q.s.val ≤ z.slewHi
        else (z.slewLo : Int) ≤ q.s.val ∨ q.s.val ≤ z.slewHi
      q.r = { val := max 0 (min 20000 raw), ok := true } ∧ (q.reachClamped = true ↔ raw < 0 ∨ 20000 < raw) ∧
      q.h = { val := g.column + roundDiv (g.l1 * sinT q.alpha.val + (g.l2 + q.e.val) * sinT q.gamma.val) 16384, ok := true } ∧
      q.zone = (if inBand ∧ (z.reachLo : Int) ≤ q.r.val ∧ q.r.val ≤ z.reachHi then .bunk else .field_) ∧
      (∀ m, s.pos.slewMem = some m → q.slewRate = { val := m.rate, ok := true }) ∧
      (∀ m, s.pos.mainMem = some m → q.mainRate = { val := m.rate, ok := true })) ∧
    (q.valid = false → q.r = { old.r with ok := false } ∧ q.h = { old.h with ok := false } ∧ q.zone = .unknown ∧
      q.slewRate = { old.slewRate with ok := false } ∧ q.mainRate = { old.mainRate with ok := false } ∧
      q.reachClamped = old.reachClamped) ∧
    (q.s.ok = false → q.sector = old.sector) ∧
    (q.s.ok = true →
      (q.sector = .left ↔ 450 ≤ q.s.val ∧ q.s.val ≤ 1349) ∧ (q.sector = .rear ↔ 1350 ≤ q.s.val ∧ q.s.val ≤ 2249) ∧
      (q.sector = .right ↔ 2250 ≤ q.s.val ∧ q.s.val ≤ 3149) ∧ (q.sector = .front ↔ q.s.val ≤ 449 ∨ 3150 ≤ q.s.val)) ∧
    ((q.pitch.ok = true ∧ q.roll.ok = true ∧ q.s.ok = true) →
      q.t.ok = true ∧ (q.sector = .front → q.t.val = -q.pitch.val) ∧ (q.sector = .rear → q.t.val = q.pitch.val) ∧
        (q.sector = .right → q.t.val = q.roll.val) ∧ (q.sector = .left → q.t.val = -q.roll.val)) ∧
    (¬(q.pitch.ok = true ∧ q.roll.ok = true ∧ q.s.ok = true) → q.t = { old.t with ok := false }) ∧
    t.cpm.poseCopy = q ∧ t.wt.pose = q ∧ InSomeOrder [cpmPose q, wtPose q] (s.setPos { s.pos with pose := q }) t ∧
    t.cpm = (cpmEvaluate (s.setCpm { s.cpm with poseCopy := q })).cpm ∧ t.sbc = s.sbc ∧ t.tlu = s.tlu ∧
    t.stc = s.stc ∧ t.pos = { s.pos with pose := q }) ∧
  (∀ (returning : Bool) (x : Sample) (s : State),
    let slewed := (poseArrival .slew returning x s).pos
    let raised := (poseArrival .main returning x s).pos
    let started : RateMem := { value := x.value, time := x.time, rate := 0 }
    let rated (mem : Option RateMem) (diff dt : Int) :=
      mem = some { value := x.value, time := x.time, rate := max (-32768) (min 32767 ((diff * 1000).tdiv (max 1 dt))) }
    slewed.fresh = { s.pos.fresh with slew := true } ∧ slewed.mainMem = s.pos.mainMem ∧
    raised.fresh = { s.pos.fresh with main := true } ∧ raised.slewMem = s.pos.slewMem ∧
    (∀ r : Role,
      let t := poseArrival r returning x s
      t = recompute (s.setPos { s.pos with
        fresh := s.pos.fresh.set r true, slewMem := t.pos.slewMem, mainMem := t.pos.mainMem }) ∧
      (r ≠ .slew → t.pos.slewMem = s.pos.slewMem) ∧ (r ≠ .main → t.pos.mainMem = s.pos.mainMem)) ∧
    (∀ (f : Freshness) (b : Bool), f.set .slew b = { f with slew := b } ∧ f.set .main b = { f with main := b } ∧
      f.set .outer b = { f with outer := b } ∧ f.set .tele b = { f with tele := b } ∧ f.set .tilt b = { f with tilt := b }) ∧
    ((returning = true ∨ s.pos.slewMem = none) → slewed.slewMem = some started) ∧
    ((returning = true ∨ s.pos.mainMem = none) → raised.mainMem = some started) ∧
    (∀ m, returning = false → s.pos.slewMem = some m → m.time ≤ x.time →
      ∃ d : Int, -1799 ≤ d ∧ d ≤ 1800 ∧ (3600 : Int) ∣ x.value - m.value - d ∧
        rated slewed.slewMem d ((x.time : Int) - m.time)) ∧
    (∀ m, returning = false → s.pos.mainMem = some m → m.time ≤ x.time →
      rated raised.mainMem (x.value - m.value) ((x.time : Int) - m.time)))

/-- The timers of a recovery, in RECOVERING and in DOWN: the pulse's end releases the line, sets every expect-waking and starts the
wait of 20 ms; a wait that ends with the line high returns RECOVERING to RUNNING, and in DOWN polls the first enabled entry, or with
none returns to RUNNING; with the line low RECOVERING pulses again or enters DOWN, and an attempt fails; the attempt timer begins an
attempt and restarts for 1,000 ms (R31 to R33). That expect-waking is set at the pulse's end is the model's reading
(notes/assumptions/33.md). The attempt's poll completes in DOWN: its outcome is applied to its entry, a good sample delivered (R27);
OK returns the bus to RUNNING with no time kept, WAKING is retried, and any other leaves it DOWN with the attempt timer running on;
a poll whose entry a POLL_WRITE took away changes no entry, and the attempt fails (R33; 14.md). The SENSOR_STATE reports of R30 are
queued, those of DOWN in list order (37.md). -/
def Obligations.RecoveryTimers : Prop :=
  (∀ (d : Nat) (s : State), s.powered = true → d ≤ s.now →
    let b := s.sbc
    (b.phase = .pulse d →
      exec .busFreePulseEnd s = .next (s.setSbc { b with
        busFreeLow := false, phase := .wait (s.now + 20)
        entries := b.entries.map (fun e => { e with expectWaking := true }) }).pump) ∧
    (b.phase = .wait d → b.bus = .recovering →
      exec (.recoveryWaitEnd true) s = .next (s.setSbc { b with bus := .running, phase := .idle, attemptTimer := none }).pump ∧
      (b.thirdStuck s.now = false →
        exec (.recoveryWaitEnd false) s = .next (s.setSbc { b with
          busFreeLow := true, phase := .pulse (s.now + 1), due := [], roundActive := false, restartPending := false
          stuckTimes := lastN 2 (b.stuckTimes ++ [s.now]) }).pump) ∧
      (b.thirdStuck s.now = true → ∃ t v : State, exec (.recoveryWaitEnd false) s = .next t ∧ t = v.pump ∧
        Queued [.sensorState] (downReports b.entries) s v ∧ t.sbc.bus = .down ∧
        t.sbc.attemptTimer = some (s.now + 1000) ∧ t.sbc.stuckTimes = [] ∧ t.sbc.phase = .idle ∧
        ∀ x ∈ t.sbc.entries, x.failures = 3)) ∧
    (b.attemptTimer = some d → b.bus = .down → b.phase = .idle → b.txn = none →
      exec .recoveryAttempt s = .next (s.setSbc { b with
        busFreeLow := true, phase := .pulse (s.now + 1), due := [], roundActive := false
        attemptTimer := some (s.now + 1000) }).pump) ∧
    (b.phase = .wait d → b.bus = .down →
      exec (.attemptWaitEnd false) s = .next (s.setSbc { b with phase := .idle }).pump ∧
      (∀ e, b.entries.find? (fun x => x.pd.enable) = some e →
        exec (.attemptWaitEnd true) s = .next (s.setSbc { b with
          phase := .idle
          txn := some { kind := .attempt e.pd.role e.pd.addr, stretched := false, discarded := false } }).pump) ∧
      ((∀ x ∈ b.entries, x.pd.enable = false) →
        exec (.attemptWaitEnd true) s = .next (s.setSbc { b with
          bus := .running, phase := .idle, attemptTimer := none, stuckTimes := [] }).pump))) ∧
  (∀ (obs : PollObs) (t : Txn) (r : Role) (a : Nat) (s : State), s.powered = true → s.sbc.bus = .down →
    s.sbc.stopping = false → s.sbc.txn = some t → t.kind = .attempt r a →
    (t.discarded = true →
      exec (.pollTransactionDone obs) s = .next (s.setSbc { s.sbc with txn := none }).pump) ∧
    (∀ e, t.discarded = false → s.sbc.entryOf r = some e →
      let o := judgePoll e.expectWaking t.stretched r obs
      ∃ u, exec (.pollTransactionDone obs) s = .next u ∧ u.stc = s.stc ∧
        (o = .waking → u.sbc.bus = .down ∧ u.sbc.txn = some { t with stretched := false } ∧
          u.sbc.attemptTimer = s.sbc.attemptTimer) ∧
        (o ≠ .waking → u.sbc.txn = none ∧ ∃ v : State, u = v.pump ∧ PollApplied e o obs.record false s v u.sbc.entries) ∧
        (o = .ok → e.pd.enable = true →
          SampleDelivered e { value := recordValue obs.record, mark := obs.record.status.getLsbD 1, time := s.now } u.sbc.entries s u) ∧
        (o = .ok → u.sbc.bus = .running ∧ u.sbc.stuckTimes = [] ∧ u.sbc.attemptTimer = none ∧ u.sbc.phase = .idle) ∧
        (o ≠ .ok → o ≠ .waking → u.sbc.bus = .down ∧ u.sbc.attemptTimer = s.sbc.attemptTimer ∧
          u.sbc.phase = s.sbc.phase)))

/-- BUS_RESTART, row by row (R34). In RUNNING with a transaction in progress it waits for it, an earlier one waiting or not: the bus
stays RUNNING, the round is dropped, and when a poll or a passthrough completes the bus enters RECOVERING with its pulse, or by a
STUCK outcome as R31 and R32 move it, the restart then being spent, a good sample delivered before (R27, R34; how it waits is the
model's reading, notes/assumptions/18.md). -/
def Obligations.BusRestartRows : Prop :=
  (∀ (s : State), Admitted .service .busRestart [] s →
    let b := s.sbc
    let after (c : Code) (b' : Sbc) := exec (.busRestart .service []) s =
      .next (((s.heard .service).setSbc b').answered .service 0x07#8 c [])
    (b.bus = .running → b.txn = none →
      after .ok { b with
        bus := .recovering, busFreeLow := true, phase := .pulse (s.now + 1), due := [], roundActive := false
        restartPending := false }) ∧
    (b.bus = .running → b.txn.isSome = true →
      after .ok { b with restartPending := true, due := [], roundActive := false }) ∧
    (b.bus = .recovering → after .busy b) ∧
    (b.bus = .down → b.phase = .idle → b.txn = none →
      after .ok { b with
        busFreeLow := true, phase := .pulse (s.now + 1), due := [], roundActive := false
        attemptTimer := some (s.now + 1000) }) ∧
    (b.bus = .down → (b.phase ≠ .idle ∨ b.txn.isSome = true) → after .busy b)) ∧
  (∀ (t : Txn) (s : State), s.powered = true → s.sbc.bus = .running → s.sbc.stopping = false → s.sbc.restartPending = true →
    s.sbc.txn = some t →
    let ends (c : Instr) (stuck : Prop) := ∃ u, exec c s = .next u ∧ u.stc = s.stc ∧ u.sbc.txn = none ∧
      u.sbc.restartPending = false ∧ u.sbc.due = [] ∧ u.sbc.roundActive = false ∧
      (¬(stuck ∧ s.sbc.thirdStuck s.now = true) → u.sbc.bus = .recovering ∧ u.sbc.busFreeLow = true ∧
        u.sbc.phase = .pulse (s.now + 1)) ∧
      ((stuck ∧ s.sbc.thirdStuck s.now = true) → u.sbc.bus = .down)
    (∀ (obs : PollObs) (r : Role) (a : Nat) (e : Entry), t.kind = .poll r a → t.discarded = false → s.sbc.entryOf r = some e →
      let o := judgePoll e.expectWaking t.stretched r obs
      (o ≠ .waking → ends (.pollTransactionDone obs) (o = .stuck)) ∧
      (o = .ok → e.pd.enable = true → ∃ u, exec (.pollTransactionDone obs) s = .next u ∧
        SampleDelivered e { value := recordValue obs.record, mark := obs.record.status.getLsbD 1, time := s.now } u.sbc.entries s u)) ∧
    (∀ (obs : PassObs) (x : Passthrough), t.kind = .pass → s.sbc.pass = some x →
      ends (.passthroughDone obs) (passOutcome x t.stretched obs = .stuck)))

/-- A list that POLL_WRITE takes: each entry with its period limited to its role's maximum, the working state kept for the same role
and address, the value emptied where the entry is disabled, and a fresh working state for a new one; the round's unpolled entries
are dropped, the outcome of a poll in progress whose entry does not survive is to be discarded, the bus goes on, and the reply
carries the list as taken. A list refused changes nothing (R16, R17, R203). A round that waits behind an older transaction is
dropped like the current one: the model's choice (notes/assumptions/34.md). The SENSOR_STATE reports of the roles made absent and of
the entries replaced are queued in some order (R17, R30; what counts, as notes/assumptions/15.md reads it). A role so lost with a
fresh value has its stale event, and the pose is recomputed with the new list (R17, R56). -/
def Obligations.PollWriteTakesTheList : Prop :=
  ∀ (body : List Byte) (s : State), Admitted .service .pollWrite body s →
    (s.committing = false → pollDefsOf body = none →
      exec (.pollWrite .service body) s = .next ((s.heard .service).answered .service 0x05#8 .badField [])) ∧
    (∀ l, pollDefsOf body = some l → s.committing = false → pollClash l = true →
      exec (.pollWrite .service body) s = .next ((s.heard .service).answered .service 0x05#8 .conflict [])) ∧
    (∀ l, pollDefsOf body = some l → s.committing = true → pollClash l = false →
      exec (.pollWrite .service body) s = .next ((s.heard .service).answered .service 0x05#8 .busy [])) ∧
    (∀ l, pollDefsOf body = some l → s.committing = false → pollClash l = false →
      let taken := l.map (fun d => { d with period := min d.period (maxPeriod d.role) })
      ∃ t u : State, exec (.pollWrite .service body) s = .next t ∧
        t = u.answered .service 0x05#8 (if taken = l then .ok else .clamped)
          (be1 taken.length ++ (taken.map pollBytes).flatten) ∧
        t.sbc.entries = taken.map (fun d =>
          match s.sbc.entries.find? (fun e => e.pd.role == d.role && e.pd.addr == d.addr) with
          | some e => if d.enable = true then { e with pd := d } else { e with pd := d, slot := none, stale := true }
          | none =>
            { pd := d, failures := 3, expectWaking := true, last := .none_, slot := none, stale := true, firstDue := false
              restarts := 0 }) ∧
        (∀ x r a, s.sbc.txn = some x → (x.kind = .poll r a ∨ x.kind = .attempt r a) →
          t.sbc.txn = some { x with
            discarded := x.discarded || !taken.any (fun d => d.role == r && d.addr == a) }) ∧
        (∀ x, s.sbc.txn = some x → x.kind = .pass → t.sbc.txn = some x) ∧ (s.sbc.txn = none → t.sbc.txn = none) ∧
        (∃ items, items.Perm ((s.sbc.entries.filter (fun e => e.pd.enable)).flatMap (fun e =>
            let gone := { e with slot := none, stale := true }
            let lost := e.slot.isSome = true ∧ e.stale = false
            match t.sbc.entries.find? (fun x => x.pd.role == e.pd.role) with
            | none => [(.sensorState, sensorStateBody gone true)]
            | some x =>
              if x.pd.enable = false then [(.sensorState, sensorStateBody (if x.pd.addr = e.pd.addr then x else gone) true)]
              else if x.pd.addr ≠ e.pd.addr ∧ lost then [(.sensorState, sensorStateBody x false)] else [])) ∧
          Queued [.sensorState] items s u) ∧
        (∃ w : State, u = recompute w ∧ w.sbc = t.sbc ∧ w.stc = s.stc) ∧
        (let lost (r : Role) := ∃ e ∈ s.sbc.entries, e.pd.role = r ∧ e.pd.enable = true ∧ e.slot.isSome = true ∧ e.stale = false ∧
           ∀ d ∈ taken, d.role = r → d.addr = e.pd.addr → d.enable = false
         (lost .link → t.wge.live = [] ∧ t.wge.prev = none ∧ t.wge.tare = none ∧ t.wge.cal = none) ∧
         (lost .slew → t.pos.fresh.slew = false ∧ t.pos.slewMem = none) ∧
         (lost .main → t.pos.fresh.main = false ∧ t.pos.mainMem = none) ∧
         (lost .outer → t.pos.fresh.outer = false) ∧ (lost .tele → t.pos.fresh.tele = false) ∧
         (lost .tilt → t.pos.fresh.tilt = false)) ∧
        t.sbc.due = [] ∧ t.sbc.bus = s.sbc.bus ∧ t.sbc.roundNo = s.sbc.roundNo ∧ t.sbc.pass = s.sbc.pass ∧
        t.tlu = s.tlu ∧ t.stc = s.stc ∧ t.wge.z = s.wge.z ∧ t.wge.span = s.wge.span ∧ t.wge.liftState = s.wge.liftState)

/-! ### The tally -/

/-- SET_ASSORTMENT makes a defined id current; an id that is not defined is NOT_FOUND and changes nothing (R111). TOTALS_RESET: in
each defined slot loaded becomes what is on the bunk, removed and excess become 0 and SATURATED is cleared; nothing else changes but
the OK reply (R131). -/
def Obligations.AssortmentChoiceAndTotals : Prop :=
  (∀ (p : Port) (id : Byte) (s : State), Admitted p .setAssortment [id] s →
     exec (.setAssortment p [id]) s =
       .next (if s.tlu.defined id.toNat = true then
           ((s.heard p).setTlu { s.tlu with current := id.toNat }).answered p 0x10#8 .ok []
         else (s.heard p).answered p 0x10#8 .notFound [])) ∧
  (∀ (p : Port) (s : State), Admitted p .totalsReset [] s →
     exec (.totalsReset p []) s =
       .next (((s.heard p).setTlu { s.tlu with
         table := s.tlu.table.map (Option.map (fun (x : AsnSlot) => { x with
           loadedMass := x.bunkMass, loadedCount := x.bunkCount, removedMass := 0, removedCount := 0, excessMass := 0
           excessCount := 0, saturated := false })) }).answered p 0x19#8 .ok []))

/-- DEFINE_ASSORTMENT, row by row: id 0; an id defined; slots 1 to 15 all held; otherwise the lowest-numbered free slot takes
the id with every figure 0 and SATURATED clear (R112). Admitted from the cab port in
RUN and from the service port in SERVICE. -/
def Obligations.DefineAssortmentRows : Prop :=
  (∀ (p : Port) (id : Byte) (s : State), Admitted p .defineAssortment [id] s →
     (id.toNat = 0 → exec (.defineAssortment p [id]) s = .next ((s.heard p).answered p 0x11#8 .badField [])) ∧
     (id.toNat ≠ 0 → s.tlu.defined id.toNat = true →
       exec (.defineAssortment p [id]) s = .next ((s.heard p).answered p 0x11#8 .conflict [])) ∧
     (id.toNat ≠ 0 → s.tlu.defined id.toNat = false → (∀ j : Fin 16, j.val ≠ 0 → s.tlu.table[j].isSome = true) →
       exec (.defineAssortment p [id]) s = .next ((s.heard p).answered p 0x11#8 .noRoom [])) ∧
     (∀ i : Fin 16, id.toNat ≠ 0 → s.tlu.defined id.toNat = false → i.val ≠ 0 → s.tlu.table[i] = none →
       (∀ j : Fin 16, j.val ≠ 0 → j.val < i.val → s.tlu.table[j].isSome = true) →
       exec (.defineAssortment p [id]) s =
         .next (((s.heard p).setTlu { s.tlu with
           table := s.tlu.table.set i (some
             { id := id.toNat, loadedCount := 0, loadedMass := 0, bunkCount := 0, bunkMass := 0, removedCount := 0
               removedMass := 0, excessCount := 0, excessMass := 0, saturated := false }) }).answered p 0x11#8 .ok []))) ∧
  (∀ (p : Port) (op : OpState),
     admits p op .defineAssortment = true ↔ (p = .cab ∧ op = .run) ∨ (p = .service ∧ op = .service))

/-- DELETE_ASSORTMENT, row by row: id 0; an id not defined; figures on the bunk; the current assortment; an id of the open
trip's list; otherwise the slot becomes free (R113). Admitted from the cab
port in RUN and from the service port in SERVICE. -/
def Obligations.DeleteAssortmentRows : Prop :=
  (∀ (p : Port) (id : Byte) (s : State), Admitted p .deleteAssortment [id] s →
     let answers (c : Code) := exec (.deleteAssortment p [id]) s = .next ((s.heard p).answered p 0x12#8 c [])
     let listed := s.tlu.trip.list.any (fun e => e.id == id.toNat) = true
     (id.toNat = 0 → answers .badField) ∧
     (id.toNat ≠ 0 → s.tlu.slotOf id.toNat = none → answers .notFound) ∧
     (∀ (i : Fin 16) (x : AsnSlot), id.toNat ≠ 0 → s.tlu.slotOf id.toNat = some i → s.tlu.table[i] = some x →
       ((x.bunkCount ≠ 0 ∨ x.bunkMass ≠ 0) → answers .conflict) ∧
       (x.bunkCount = 0 → x.bunkMass = 0 → s.tlu.current = id.toNat → answers .conflict) ∧
       (x.bunkCount = 0 → x.bunkMass = 0 → s.tlu.current ≠ id.toNat → s.tlu.trip.state ≠ .empty → listed →
         answers .conflict) ∧
       (x.bunkCount = 0 → x.bunkMass = 0 → s.tlu.current ≠ id.toNat → (s.tlu.trip.state = .empty ∨ ¬listed) →
         exec (.deleteAssortment p [id]) s =
           .next (((s.heard p).setTlu { s.tlu with table := s.tlu.table.set i none }).answered p 0x12#8 .ok [])))) ∧
  (∀ (p : Port) (op : OpState),
     admits p op .deleteAssortment = true ↔ (p = .cab ∧ op = .run) ∨ (p = .service ∧ op = .service))

/-- A REMOVE takes the lesser of its mass and the bunk mass, the rest being excess; it takes its count from the bunk when one
is there; and, with no figure saturating, a VOID of its record gives every figure back (R117, R129). -/
def Obligations.VoidReversesRemove : Prop :=
  ∀ (x : AsnSlot) (m : Nat) (r : LogRecord), r.outcome = .remove →
    r.taken = (x.split m).taken → r.excess = (x.split m).excess → r.countTaken = (x.split m).countTaken →
    x.bunkMass ≤ massMax → x.bunkCount ≤ countMax → x.removedMass + m ≤ massMax → x.excessMass + m ≤ massMax →
    x.removedCount + 1 ≤ countMax → x.excessCount + 1 ≤ countMax →
    r.taken = min m x.bunkMass ∧ r.taken + r.excess = m ∧ (r.countTaken = true ↔ 0 < x.bunkCount) ∧
      (x.remove (x.split m)).reverse r = x

/-- VOID_LIFT, row by row (R128): number 0; no resident record; VOIDED; of a trip that is not the open one; an ADD or REMOVE whose
assortment is not defined; an ADD, then a REMOVE, whose reversal would take a figure below zero; otherwise OK with the record, now
VOIDED. A refusal changes nothing. The reversal of an ADD takes its mass and count out of loaded and bunk, that of a REMOVE puts its
split back, in the slot and, where the record carries a trip number, in the open trip's entry; any other outcome changes no figure;
a changed bunk total is handed to WT (R129, R132). -/
def Obligations.VoidLift : Prop :=
  ∀ (p : Port) (hi lo : Byte) (s : State), Admitted p .voidLift [hi, lo] s →
    let n := hi.toNat * 256 + lo.toNat
    let refused (c : Code) := exec (.voidLift p [hi, lo]) s = .next ((s.heard p).answered p 0x15#8 c [])
    (n = 0 → refused .badField) ∧
    (n ≠ 0 → s.tlu.find n = none → refused .notFound) ∧
    (∀ r : LogRecord, n ≠ 0 → s.tlu.find n = some r →
      let current := ∀ k, r.trip = some k → s.tlu.trip.state ≠ .empty ∧ s.tlu.trip.number = k
      let voided (table : Vector (Option AsnSlot) 16) (entry : TripEntry → TripEntry) :=
        exec (.voidLift p [hi, lo]) s =
          .next ((handBunkTotal s.tlu.bunkTotal ((s.heard p).setTlu { s.tlu with
            table := table
            trip := if r.trip.isSome = true then
                { s.tlu.trip with list := s.tlu.trip.list.map (fun e => if e.id = r.asn then entry e else e) }
              else s.tlu.trip
            log := s.tlu.log.map (fun y => if y.number = n then { r with voided := true } else y) })).answered p 0x15#8 .ok
            (liftRecordBytes { r with voided := true }))
      (r.voided = true → refused .conflict) ∧
      (r.voided = false → ¬current → refused .conflict) ∧
      (r.voided = false → current → (r.outcome = .add ∨ r.outcome = .remove) → s.tlu.slotOf r.asn = none →
        refused .notFound) ∧
      (r.voided = false → current → r.outcome ≠ .add → r.outcome ≠ .remove → voided s.tlu.table id) ∧
      (∀ (i : Fin 16) (x : AsnSlot) (m : Nat), r.voided = false → current → s.tlu.slotOf r.asn = some i →
        s.tlu.table[i] = some x → r.outcome = .add → r.mass = some m →
        ((x.bunkMass < m ∨ x.bunkCount < 1 ∨ x.loadedMass < m ∨ x.loadedCount < 1) → refused .conflict) ∧
        (m ≤ x.bunkMass → 1 ≤ x.bunkCount → m ≤ x.loadedMass → 1 ≤ x.loadedCount →
          voided
            (s.tlu.table.set i (some { x with
              loadedMass := x.loadedMass - m, bunkMass := x.bunkMass - m, loadedCount := x.loadedCount - 1
              bunkCount := x.bunkCount - 1 }))
            (fun e => { e with loadedMass := e.loadedMass - m, loadedCount := e.loadedCount - 1 }))) ∧
      (∀ (i : Fin 16) (x : AsnSlot), r.voided = false → current → s.tlu.slotOf r.asn = some i →
        s.tlu.table[i] = some x → r.outcome = .remove →
        ((x.removedMass < r.taken ∨ x.excessMass < r.excess ∨ (r.countTaken = true ∧ x.removedCount < 1) ∨
          (r.countTaken = false ∧ x.excessCount < 1)) → refused .conflict) ∧
        (r.taken ≤ x.removedMass → r.excess ≤ x.excessMass → (r.countTaken = true → 1 ≤ x.removedCount) →
          (r.countTaken = false → 1 ≤ x.excessCount) →
          voided
            (s.tlu.table.set i (some { x with
              bunkMass := min massMax (x.bunkMass + r.taken)
              removedMass := x.removedMass - r.taken
              excessMass := x.excessMass - r.excess
              bunkCount := if r.countTaken = true then min countMax (x.bunkCount + 1) else x.bunkCount
              removedCount := if r.countTaken = true then x.removedCount - 1 else x.removedCount
              excessCount := if r.countTaken = true then x.excessCount else x.excessCount - 1
              saturated := x.saturated || decide (massMax < x.bunkMass + r.taken ∨
                (r.countTaken = true ∧ countMax < x.bunkCount + 1)) }))
            (fun e => { e with
              removedMass := e.removedMass - r.taken
              removedCount := if r.countTaken = true then e.removedCount - 1 else e.removedCount }))))

/-- ASSIGN_LIFT, row by row (R130): number 0 or an outcome that is neither ADD (0) nor REMOVE (1); no resident record; VOIDED, not
UNZONED, or without a mass; an assortment that is not defined; otherwise OK with the record, now ASSIGNED. A refusal changes nothing.
A taken one applies the record's mass to its slot and to the trip exactly as a hand-over of that outcome would, under the record's own
number (R116, R117, R123, R124); a trip that it closes is reported, and a changed bunk total is handed to WT (R125, R132), in that
order (notes/assumptions/42.md). -/
def Obligations.AssignLiftResult : Prop :=
  ∀ (p : Port) (hi lo o : Byte) (s : State), Admitted p .assignLift [hi, lo, o] s →
    let n := hi.toNat * 256 + lo.toNat
    let refused (c : Code) := exec (.assignLift p [hi, lo, o]) s = .next ((s.heard p).answered p 0x16#8 c [])
    ((n = 0 ∨ 2 ≤ o.toNat) → refused .badField) ∧
    (n ≠ 0 → o.toNat < 2 → s.tlu.find n = none → refused .notFound) ∧
    (∀ r : LogRecord, n ≠ 0 → o.toNat < 2 → s.tlu.find n = some r →
      ((r.voided = true ∨ r.outcome ≠ .unzoned ∨ r.mass = none) → refused .conflict) ∧
      (r.voided = false → r.outcome = .unzoned → r.mass.isSome = true → s.tlu.slotOf r.asn = none → refused .notFound) ∧
      (∀ (i : Fin 16) (x : AsnSlot) (m : Nat), r.voided = false → r.outcome = .unzoned → r.mass = some m →
        s.tlu.slotOf r.asn = some i → s.tlu.table[i] = some x →
        ∃ (u : Tlu) (closed : Bool) (r' : LogRecord),
          exec (.assignLift p [hi, lo, o]) s =
            .next ((handBunkTotal s.tlu.bunkTotal (if closed = true then reportTripClosed u.trip ((s.heard p).setTlu u)
              else (s.heard p).setTlu u)).answered p 0x16#8 .ok (liftRecordBytes r')) ∧
          u.log = s.tlu.log.map (fun y => if y.number = n then r' else y) ∧ u.nextLift = s.tlu.nextLift ∧
          (o.toNat = 0 → s.tlu.Added u r.asn m n ∧ closed = false ∧
            r' = { r with
              outcome := .add, assigned := true, trip := some u.trip.number, taken := r'.taken, excess := r'.excess
              countTaken := r'.countTaken }) ∧
          (o.toNat = 1 → s.tlu.Removed u i x m n ∧
            (closed = true ↔ s.tlu.trip.state ≠ .empty ∧ u.trip.state = .empty) ∧
            r' = { r with
              outcome := .remove
              assigned := true
              trip := if s.tlu.trip.state = .empty then none else some s.tlu.trip.number
              taken := min m x.bunkMass
              excess := m - min m x.bunkMass
              countTaken := decide (0 < x.bunkCount) })))

/-- TRIP_CLOSE: WRONG_STATE with no trip open; else every slot's bunk moves into removed, the trip closes with cause ORDERED
and joins the history, and the reply carries the written-off mass (R125, R126). Its TRIP_CLOSED report, in one frame or, for a list of
9 to 16, in two, joins the queue of each port that enables it and has room (R125, R211, R217), before the reports of the changed bunk
total, which is handed to WT (R132; the order is the model's choice, notes/assumptions/42.md). -/
def Obligations.TripCloseResult : Prop :=
  ∀ (p : Port) (s : State), Admitted p .tripClose [] s →
    (s.tlu.trip.state = .empty →
      exec (.tripClose p []) s = .next ((s.heard p).answered p 0x18#8 .wrongState [])) ∧
    (s.tlu.trip.state ≠ .empty →
      ∃ t u : State, exec (.tripClose p []) s = .next t ∧ t = u.answered p 0x18#8 .ok (be4 t.tlu.trip.writtenOff) ∧
        u = handBunkTotal s.tlu.bunkTotal (reportTripClosed t.tlu.trip ((s.heard p).setTlu t.tlu)) ∧
        t.tlu.trip.state = .empty ∧ t.tlu.trip.cause = some .ordered ∧ t.tlu.trip.list = s.tlu.trip.list ∧
        t.tlu.trip.writtenOff = min massMax (s.tlu.trip.writtenOff + (s.tlu.slots.map (·.bunkMass)).sum) ∧
        t.tlu.history.getLast? = some t.tlu.trip ∧ t.tlu.log = s.tlu.log ∧ t.tlu.current = s.tlu.current ∧
        (∀ (i : Fin 16) (x : AsnSlot), s.tlu.table[i] = some x →
          ∃ y, t.tlu.table[i] = some y ∧ y.bunkMass = 0 ∧ y.bunkCount = 0 ∧
            y.removedMass = min massMax (x.removedMass + x.bunkMass) ∧
            y.removedCount = min countMax (x.removedCount + x.bunkCount) ∧
            y.loadedMass = x.loadedMass ∧ y.loadedCount = x.loadedCount ∧ y.excessMass = x.excessMass ∧
            y.excessCount = x.excessCount) ∧
        (∀ q : Port,
          let frame (part : Nat) : OutFrame := { kind := 0xC1#8, status := 0#8, body := tripRecordBytes t.tlu.trip part }
          let frames := if s.tlu.trip.list.length ≤ 8 then [frame 1] else [frame 1, frame 2]
          (s.port q).enable.getLsbD 1 = true → (s.port q).queue.length + frames.length ≤ 16 →
            ∃ more, (u.port q).queue = (s.port q).queue ++ frames ++ more) ∧
        t.sbc = s.sbc ∧ t.pos = s.pos ∧ t.wge = s.wge ∧ t.cpm = s.cpm ∧ t.stc = s.stc)

/-- The outcome of a released lift is the first row of R81 that applies. A completed lift takes the next lift number, is logged as
the newest of at most 64 under its tag, or under 0 when the tag is no longer defined; an ADD and a REMOVE change their slot, the
trip and its list as R116, R117, R123 and R124 state, the record carrying the split and the trip; an outcome other than ADD and
REMOVE changes no figure and no trip (R81, R114 to R119, R123, R124). LIFT_DONE is queued with the record, and TRIP_CLOSED after it
when the lift closed the trip, and a changed bunk total is handed to WT (R114, R120, R125, R132). -/
def Obligations.CompletedLifts : Prop :=
  (∀ (op : OpState) (m : Option Nat) (origin dest : Zone),
     (op = .service → outcomeOf op m origin dest = .test) ∧
     (op ≠ .service → m = none → outcomeOf op m origin dest = .unweighed) ∧
     (∀ v, op ≠ .service → m = some v →
       (origin = .unknown ∨ dest = .unknown → outcomeOf op m origin dest = .unzoned) ∧
       (origin = .field_ → dest = .bunk → outcomeOf op m origin dest = .add) ∧
       (origin = .bunk → dest = .field_ → outcomeOf op m origin dest = .remove) ∧
       (origin = .field_ → dest = .field_ → outcomeOf op m origin dest = .return_) ∧
       (origin = .bunk → dest = .bunk → outcomeOf op m origin dest = .move))) ∧
  (∀ (c : CompletedLift) (s : State),
     let t := takeCompletedLift c s
     ∃ r : LogRecord, t.tlu.log = (s.tlu.log ++ [r]).drop (s.tlu.log.length + 1 - 64) ∧
       t = handBunkTotal s.tlu.bunkTotal (let v := (s.setTlu t.tlu).queueReport .liftDone (liftRecordBytes r)
         if s.tlu.trip.state ≠ .empty ∧ t.tlu.trip.state = .empty then reportTripClosed t.tlu.trip v else v) ∧
       r.number = s.tlu.nextLift ∧ r.asn = (if s.tlu.defined c.tag = true then c.tag else 0) ∧ r.outcome = c.outcome ∧
       r.mass = c.mass ∧ r.n = c.n ∧ r.origin = c.origin ∧ r.dest = c.dest ∧ r.voided = false ∧ r.assigned = false ∧
       t.tlu.nextLift = (if 65535 ≤ s.tlu.nextLift then 1 else s.tlu.nextLift + 1) ∧
       Queued [.liftDone, .tripClosed] ((.liftDone, liftRecordBytes r) ::
         if s.tlu.trip.state ≠ .empty ∧ t.tlu.trip.state = .empty then closedReports t.tlu.trip else []) s t ∧
       (c.outcome ≠ .add → c.outcome ≠ .remove →
         t.tlu.table = s.tlu.table ∧ t.tlu.trip = s.tlu.trip ∧ t.tlu.history = s.tlu.history ∧
           r.trip = if s.tlu.trip.state = .empty then none else some s.tlu.trip.number) ∧
       (∀ m, c.outcome = .add → c.mass = some m →
         s.tlu.Added t.tlu r.asn m s.tlu.nextLift ∧ r.trip = some t.tlu.trip.number) ∧
       (∀ (m : Nat) (i : Fin 16) (x : AsnSlot), c.outcome = .remove → c.mass = some m → s.tlu.slotOf r.asn = some i →
         s.tlu.table[i] = some x →
         s.tlu.Removed t.tlu i x m s.tlu.nextLift ∧ r.taken = min m x.bunkMass ∧ r.excess = m - min m x.bunkMass ∧
           (r.countTaken = true ↔ 0 < x.bunkCount) ∧
           r.trip = if s.tlu.trip.state = .empty then none else some s.tlu.trip.number))

/-! ### Weighing -/

/-- A completed auto-zero window whose mean mass lies within the zero band moves z by a quarter of the error, truncated, and clears
zero-suspect; any other leaves z and sets it; either way the window is emptied. So z stays between its old value and the mean
count (R96). In a LINK arrival with the lift OPEN and no TARE working, AUTO_ZERO on: a steady sample joins the window, an unsteady one
empties it, the 64th completes it; AUTO_ZERO off: nothing of it changes (R61, R95 to R97). -/
def Obligations.AutoZeroStepBounded : Prop :=
  (∀ (w : Wge) (zb : Nat) (sumC sumM : Int),
    let z' := (w.azComplete zb sumC sumM).z
    let c := meanOf sumC 64
    z' = (if (meanOf sumM 64).natAbs ≤ zb then w.z + (c - w.z).tdiv 4 else w.z) ∧
      min w.z c ≤ z' ∧ z' ≤ max w.z c ∧ 4 * (z' - w.z).natAbs ≤ (c - w.z).natAbs ∧
      (w.azComplete zb sumC sumM).az.count = 0 ∧
      ((w.azComplete zb sumC sumM).zeroSuspect = true ↔ (zb : Int) < (meanOf sumM 64).natAbs)) ∧
  (∀ (c : Int) (ov : Bool) (s : State), s.calHeld → s.wge.lift = none → s.wge.tare = none →
    let x := massOf s.wge.z s.wge.span c ov
    let steady := x.clipped = false ∧ ∃ m, s.wge.prev = some m ∧ (x.m - m).natAbs ≤ s.cfg.weigh.d
    let w := (linkArrival c ov s).wge
    let meanC := roundDiv (s.wge.az.sumC + c) 64
    let meanM := roundDiv (s.wge.az.sumM + x.m) 64
    (s.cfg.sw.autoZero = false → w.az = s.wge.az ∧ w.z = s.wge.z ∧ w.zeroSuspect = s.wge.zeroSuspect) ∧
    (s.cfg.sw.autoZero = true →
      (¬steady → w.az = { count := 0, sumC := 0, sumM := 0 } ∧ w.z = s.wge.z ∧ w.zeroSuspect = s.wge.zeroSuspect) ∧
      (steady → s.wge.az.count < 63 →
        w.az = { count := s.wge.az.count + 1, sumC := s.wge.az.sumC + c, sumM := s.wge.az.sumM + x.m } ∧ w.z = s.wge.z ∧
          w.zeroSuspect = s.wge.zeroSuspect) ∧
      (steady → 63 ≤ s.wge.az.count → w.az = { count := 0, sumC := 0, sumM := 0 } ∧
        (meanM.natAbs ≤ s.cfg.weigh.zb → w.z = s.wge.z + (meanC - s.wge.z).tdiv 4 ∧ w.zeroSuspect = false) ∧
        (s.cfg.weigh.zb < meanM.natAbs → w.z = s.wge.z ∧ w.zeroSuspect = true))))

/-- In CARRYING a steady sample joins the window and the N-th forms the result, the rounded mean or 0; the twelfth rejection in a
row restarts the window; the fifth sample below L/2 in a row takes the lift back to GRIPPED (R71 to R73, R76). In GRIPPED the fifth
sample of at least L in a row confirms the load (R69); in WEIGHED only the drop test is made (R74, R76). A GRIP arrival of 1 in OPEN
starts a lift with the zone, the current assortment and zero-suspect as they stand, and ends a TARE (R65, R101); one of 0 in GRIPPED
discards the lift (R67); one of 0 in CARRYING or WEIGHED releases it, and hands TLU the lift completed by R79 to R82; any other
changes nothing. CPM and WT take the new lift state (R64), and the release queues LIFT_DONE, and TRIP_CLOSED (R120). Every LINK
arrival forms its mass from the count (R59), and the live mass, the mean of the newest at most 8, and applies the stage's rule to
the lift with the steadiness of R70; a changed lift state and the live mass go to CPM, which evaluates at each, and to WT, in some
order (R61, R62, R64, R142; notes/assumptions/7.md; with DYN_REJECT off a returning sample too is judged by R70 alone, the model's
reading beside R78, notes/assumptions/48.md). -/
def Obligations.LiftWindowRules : Prop :=
  (∀ (l : Lift) (cfg : Settings) (steady : Bool) (x : Mass), l.stage = .carrying →
    let low := x.m < ((cfg.weigh.lMin / 2 : Nat) : Int)
    let l' := l.sample cfg steady x
    (low → 4 ≤ l.drops → l'.stage = .gripped ∧ l'.n = 0 ∧ l'.sum = 0 ∧ l'.confirm = 0 ∧ l'.mass = none ∧ l'.peakU = 0 ∧
      l'.origin = l.origin ∧ l'.tag = l.tag) ∧
    ((¬low ∨ l.drops < 4) → steady = true →
      l'.n = l.n + 1 ∧ l'.sum = l.sum + x.m ∧ l'.rejects = 0 ∧ l'.drops = (if low then l.drops + 1 else 0) ∧
      (cfg.weigh.n ≤ l.n + 1 →
        l'.stage = .weighed ∧ l'.mass = some (max 0 (roundDiv (l.sum + x.m) (l.n + 1))).toNat) ∧
      (l.n + 1 < cfg.weigh.n → l'.stage = .carrying ∧ l'.mass = l.mass)) ∧
    ((¬low ∨ l.drops < 4) → steady = false → l'.stage = .carrying ∧
      (11 ≤ l.rejects → l'.n = 0 ∧ l'.sum = 0 ∧ l'.rejects = 0 ∧ l'.flags.restarted = true) ∧
      (l.rejects < 11 → l'.n = l.n ∧ l'.sum = l.sum ∧ l'.rejects = l.rejects + 1))) ∧
  (∀ (l : Lift) (cfg : Settings) (steady : Bool) (x : Mass),
    let low := x.m < ((cfg.weigh.lMin / 2 : Nat) : Int)
    let l' := l.sample cfg steady x
    (l.stage = .gripped → x.m < cfg.weigh.lMin → l' = { l with confirm := 0 }) ∧
    (l.stage = .gripped → (cfg.weigh.lMin : Int) ≤ x.m → l.confirm < 4 → l' = { l with confirm := l.confirm + 1 }) ∧
    (l.stage = .gripped → (cfg.weigh.lMin : Int) ≤ x.m → 4 ≤ l.confirm →
      l'.stage = .carrying ∧ l'.n = 0 ∧ l'.sum = 0 ∧ l'.rejects = 0 ∧ l'.drops = 0 ∧ l'.flags = l.flags) ∧
    (l.stage = .weighed → low → l.drops < 4 → l' = { l with drops := l.drops + 1 }) ∧
    (l.stage = .weighed → low → 4 ≤ l.drops → l'.stage = .gripped ∧ l'.mass = none ∧ l'.n = 0 ∧ l'.peakU = 0) ∧
    (l.stage = .weighed → ¬low → l' = { l with drops := 0 })) ∧
  (∀ s : State,
    (s.wge.lift = none → gripArrival false s = s) ∧
    (s.wge.lift.isSome = true → gripArrival true s = s) ∧
    (s.wge.lift = none →
      let t := gripArrival true s
      t.wge.lift = some
        { stage := .gripped, origin := s.pos.pose.zone, tag := s.tlu.current, confirm := 0, sum := 0, n := 0, rejects := 0
          drops := 0, mass := none, peakU := 0
          flags := { short := false, restarted := false, clipped := false, zeroSuspect := s.wge.zeroSuspect
                     sensorGap := false } } ∧
      t.wge.tare = none ∧ t.wge.az = { count := 0, sumC := 0, sumM := 0 } ∧ t.wge.z = s.wge.z ∧ t.tlu = s.tlu ∧
      t.cpm = (cpmEvaluate (s.setCpm { s.cpm with liftCopy := .gripped })).cpm ∧ t.cpm.liftCopy = .gripped ∧
      t.wt.lift = .gripped ∧ t.wt.tag = some s.tlu.current ∧
      (∃ w : State, w = { s with wge := w.wge, mpt := { s.mpt with slots := w.mpt.slots } } ∧
        InSomeOrder [cpmLift .gripped, wtLift .open_ .gripped (some s.tlu.current) none] w t) ∧
      (∀ (i : Fin 4) (d : DelayedSlot), s.wge.tare.isSome = true → s.mpt.slots[i] = some d → d.kind = .tare →
        d.state = .working →
        t.mpt.slots[i] = some { d with state := .done (0x02#8 :: beBytes 3 s.wge.z) (s.now + 5000) })) ∧
    (∀ l : Lift, s.wge.lift = some l → l.stage = .gripped →
      let t := gripArrival false s
      t.wge.lift = none ∧ t.tlu = s.tlu ∧ t.cpm = (cpmEvaluate (s.setCpm { s.cpm with liftCopy := .open_ })).cpm ∧
        t.cpm.liftCopy = .open_ ∧ t.cpm.monitor = .normal ∧ t.wt.lift = .open_ ∧ t.wt.tag = none ∧
        InSomeOrder [cpmLift .open_, wtLift .gripped .open_ none none] (s.setWge { s.wge with lift := none }) t) ∧
    (∀ l : Lift, s.wge.lift = some l → l.stage ≠ .gripped →
      let t := gripArrival false s
      let short := l.stage = .carrying ∧ s.cfg.weigh.nMin ≤ l.n
      let mass := if l.stage = .weighed then l.mass
        else if s.cfg.weigh.nMin ≤ l.n then some (max 0 (roundDiv l.sum l.n)).toNat else none
      let c : CompletedLift :=
        { tag := l.tag, origin := l.origin, dest := s.pos.pose.zone
          outcome := outcomeOf s.stc.op mass l.origin s.pos.pose.zone, mass := mass, n := l.n
          flags := { l.flags with short := decide short }, peakU := l.peakU, reach := s.pos.pose.r, slew := s.pos.pose.s }
      t.wge.lift = none ∧ t.wge.cal = none ∧ t.tlu = (takeCompletedLift c s).tlu ∧
        t.cpm = (cpmEvaluate (s.setCpm { s.cpm with liftCopy := .open_ })).cpm ∧ t.cpm.liftCopy = .open_ ∧
        t.cpm.monitor = .normal ∧ t.wt.lift = .open_ ∧ t.wt.tag = none ∧ t.sbc = s.sbc ∧ t.pos = s.pos ∧ t.stc = s.stc ∧
        (∃ w : State, w = { s with wge := w.wge, mpt := { s.mpt with slots := w.mpt.slots } } ∧
          InSomeOrder [cpmLift .open_, wtLift l.stage.state .open_ none none] (takeCompletedLift c w) t) ∧
        ∃ r, t.tlu.log.getLast? = some r ∧ Queued [.liftDone, .tripClosed] ((.liftDone, liftRecordBytes r) ::
          if s.tlu.trip.state ≠ .empty ∧ t.tlu.trip.state = .empty then closedReports t.tlu.trip else []) s t)) ∧
  (∀ (c : Int) (ov : Bool) (s : State),
    let raw := roundDiv ((c - s.wge.z) * s.wge.span) 100000
    let m := max (-32768) (min 32767 raw)
    let kept := (s.wge.live ++ [m]).drop (s.wge.live.length + 1 - 8)
    let live : Marked := { val := roundDiv kept.sum kept.length, ok := true }
    let t := linkArrival c ov s
    (massOf s.wge.z s.wge.span c ov).m = m ∧ ((massOf s.wge.z s.wge.span c ov).clipped = true ↔ raw ≠ m ∨ ov = true) ∧
      t.wge.live = kept ∧ t.wge.liveVal = live.val ∧ t.wge.prev = some m ∧ t.cpm.liveCopy = live ∧ t.wt.live = live ∧
      ∀ steady : Bool,
        (let x := massOf s.wge.z s.wge.span c ov
         steady = true ↔ s.pos.pose.valid = true ∧ x.clipped = false ∧ (s.cfg.sw.dynReject = false ∨
           ((∃ m, s.wge.prev = some m ∧ (x.m - m).natAbs ≤ s.cfg.weigh.d) ∧
             s.pos.pose.slewRate.val.natAbs ≤ s.cfg.weigh.rs ∧ s.pos.pose.mainRate.val.natAbs ≤ s.cfg.weigh.rm))) →
        let lift := s.wge.lift.map (fun l => l.sample s.cfg steady (massOf s.wge.z s.wge.span c ov))
        let old := s.wge.liftState
        let new := { s.wge with lift := lift }.liftState
        let takesLive (u : State) := cpmEvaluate (u.setCpm { u.cpm with liveCopy := live })
        let takesLift (u : State) := cpmEvaluate (u.setCpm { u.cpm with liftCopy := new })
        (∃ w : State, w = { s with wge := w.wge, mpt := { s.mpt with slots := w.mpt.slots } } ∧ w.wge.lift = lift ∧
          w.wge.live = kept ∧
          InSomeOrder ((if new = old then [] else [cpmLift new, wtLift old new (lift.map (·.tag)) (lift.bind (·.mass))]) ++
            [cpmLive live, wtLive live]) w t) ∧
        (lift = none → t.wge.lift = none) ∧
        (∀ l', lift = some l' → ∃ peak, t.wge.lift = some { l' with peakU := peak } ∧
          (l'.stage = .gripped → peak = l'.peakU) ∧ (l'.stage ≠ .gripped → l'.peakU ≤ peak ∧ t.cpm.u ≤ peak) ∧
          (l'.stage ≠ .gripped → new = old → peak = max l'.peakU t.cpm.u)) ∧
        (new = old → t.cpm = (takesLive s).cpm) ∧
        (new ≠ old → t.cpm = (takesLive (takesLift s)).cpm ∨ t.cpm = (takesLift (takesLive s)).cpm))

/-- The four delayed requests, new and accepted: PENDING, and the lowest free slot WORKING. TARE with OPEN, no TARE working and a
fresh LINK starts its timer for 10 s and empties auto-zero's window; CAL_SPAN with Mref in 500..30,000 in CARRYING and WEIGHED, none
working and a fresh LINK, an empty collection; SENSOR_PASS with its fields allowed and none on, waits, and in DOWN is DONE at once
with STUCK; COMMIT collects what R201 lists and marks the stored image invalid (R33, R36, R98, R103, R203, R213). TARE and CAL_SPAN
with LINK stale are accepted and end at once, the slot DONE with SENSOR_LOST (R98, R103, R215). The owners' refusals, row by row,
change nothing: TARE BUSY while one works, WRONG_STATE out of OPEN, BUSY with no slot free; CAL_SPAN BAD_FIELD for Mref, BUSY while
one works, WRONG_STATE out of CARRYING and WEIGHED, BUSY with no slot free; SENSOR_PASS BAD_FIELD for its fields, BUSY while one is
on or with no slot free, either where both apply (notes/assumptions/7.md); COMMIT BUSY while one works or with no slot free (R36,
R98, R103, R203). That the STUCK result carries a read count of 0 is the model's reading (notes/assumptions/21.md). -/
def Obligations.DelayedAccepted : Prop :=
  (∀ (p : Port) (i : Fin 4) (s : State), Admitted p .tare [] s → s.mpt.matching p .tare [] = none →
     s.mpt.conflicting p .tare [] = false → s.wge.tare = none → s.wge.lift = none → s.mpt.freeSlot = some i →
     s.linkIsStale = false →
     exec (.tare p []) s =
       .next ((((s.heard p).setMpt { (s.heard p).mpt with
           slots := s.mpt.slots.set i (some { port := p, kind := .tare, body := [], state := .working }) }).setWge
         { s.wge with
           az := { count := 0, sumC := 0, sumM := 0 }
           tare := some { port := p, count := 0, sumC := 0, deadline := s.now + 10000 } }).answered p 0x20#8 .pending [])) ∧
  (∀ (p : Port) (hi lo : Byte) (i : Fin 4) (l : Lift) (s : State), Admitted p .calSpan [hi, lo] s →
     s.mpt.matching p .calSpan [hi, lo] = none → s.mpt.conflicting p .calSpan [hi, lo] = false → s.wge.cal = none →
     500 ≤ hi.toNat * 256 + lo.toNat → hi.toNat * 256 + lo.toNat ≤ 30000 → s.wge.lift = some l → l.stage ≠ .gripped →
     s.mpt.freeSlot = some i → s.linkIsStale = false →
     exec (.calSpan p [hi, lo]) s =
       .next ((((s.heard p).setMpt { (s.heard p).mpt with
           slots := s.mpt.slots.set i (some { port := p, kind := .calSpan, body := [hi, lo], state := .working }) }).setWge
         { s.wge with
           cal := some { mref := hi.toNat * 256 + lo.toNat, count := 0, sumC := 0 } }).answered p 0x21#8 .pending [])) ∧
  (∀ (addr count : Byte) (w : List Byte) (i : Fin 4) (s : State), Admitted .service .sensorPass (addr :: count :: w) s →
     s.mpt.matching .service .sensorPass (addr :: count :: w) = none →
     s.mpt.conflicting .service .sensorPass (addr :: count :: w) = false → s.sbc.pass = none → 8 ≤ addr.toNat →
     addr.toNat ≤ 0x77 → count.toNat ≤ 8 → s.mpt.freeSlot = some i →
     let x : Passthrough := { addr := addr.toNat, count := count.toNat, writes := w }
     let slot (st : SlotState) : DelayedSlot :=
       { port := .service, kind := .sensorPass, body := addr :: count :: w, state := st }
     (s.sbc.bus ≠ .down →
       exec (.sensorPass .service (addr :: count :: w)) s =
         .next ((((s.heard .service).setMpt { (s.heard .service).mpt with
             slots := s.mpt.slots.set i (some (slot .working)) }).setSbc
           { s.sbc with pass := some x }).answered .service 0x06#8 .pending [])) ∧
     (s.sbc.bus = .down → (∀ t, s.sbc.txn = some t → t.kind ≠ .pass) →
       ∃ t u : State, exec (.sensorPass .service (addr :: count :: w)) s = .next t ∧ t = u.answered .service 0x06#8 .pending [] ∧
         t.sbc = s.sbc ∧ t.mpt.slots[i] = some (slot (.done [0x13#8, 0x00#8] (s.now + 5000))) ∧ t.wge = s.wge ∧ t.tlu = s.tlu)) ∧
  (∀ (i : Fin 4) (s : State), Admitted .service .commit [] s → s.mpt.matching .service .commit [] = none →
     s.mpt.conflicting .service .commit [] = false → s.stc.commit = none → s.mpt.freeSlot = some i →
     exec (.commit .service []) s =
       .next ((((s.heard .service).setMpt { (s.heard .service).mpt with
           slots := s.mpt.slots.set i (some { port := .service, kind := .commit, body := [], state := .working }) }).setStc
         { s.stc with
           commit := some
             { settings := s.cfg, z := s.wge.z, span := s.wge.span, pollList := s.sbc.entries.map (fun e => e.pd)
               locked := s.wt.entries.map (fun x => if x.d.owner = .locked then some x.d else none) }
           image := { s.stc.image with invalid := true } }).answered .service 0x3B#8 .pending [])) ∧
  (∀ (p : Port) (s : State), Admitted p .tare [] s → s.mpt.matching p .tare [] = none → s.mpt.conflicting p .tare [] = false →
     let answers (c : Code) := exec (.tare p []) s = .next ((s.heard p).answered p 0x20#8 c [])
     (s.wge.tare.isSome = true → answers .busy) ∧
     (s.wge.tare = none → s.wge.lift.isSome = true → answers .wrongState) ∧
     (s.wge.tare = none → s.wge.lift = none → s.mpt.freeSlot = none → answers .busy) ∧
     (∀ i : Fin 4, s.wge.tare = none → s.wge.lift = none → s.mpt.freeSlot = some i → s.linkIsStale = true →
       exec (.tare p []) s =
         .next ((((s.heard p).setMpt { (s.heard p).mpt with
             slots := (s.mpt.slots.set i (some { port := p, kind := .tare, body := [], state := .working })).map
               (Option.map (fun (d : DelayedSlot) => if d.kind = .tare ∧ d.state = .working then
                 { d with state := .done (0x03#8 :: beBytes 3 s.wge.z) (s.now + 5000) } else d)) }).setWge
           { s.wge with az := { count := 0, sumC := 0, sumM := 0 } }).answered p 0x20#8 .pending []))) ∧
  (∀ (p : Port) (hi lo : Byte) (s : State), Admitted p .calSpan [hi, lo] s → s.mpt.matching p .calSpan [hi, lo] = none →
     s.mpt.conflicting p .calSpan [hi, lo] = false →
     let mref := hi.toNat * 256 + lo.toNat
     let allowed := 500 ≤ mref ∧ mref ≤ 30000
     let answers (c : Code) := exec (.calSpan p [hi, lo]) s = .next ((s.heard p).answered p 0x21#8 c [])
     (¬allowed → answers .badField) ∧
     (allowed → s.wge.cal.isSome = true → answers .busy) ∧
     (allowed → s.wge.cal = none → (∀ l, s.wge.lift = some l → l.stage = .gripped) → answers .wrongState) ∧
     (∀ l, allowed → s.wge.cal = none → s.wge.lift = some l → l.stage ≠ .gripped → s.mpt.freeSlot = none → answers .busy) ∧
     (∀ (l : Lift) (i : Fin 4), allowed → s.wge.cal = none → s.wge.lift = some l → l.stage ≠ .gripped →
       s.mpt.freeSlot = some i → s.linkIsStale = true →
       exec (.calSpan p [hi, lo]) s =
         .next (((s.heard p).setMpt { (s.heard p).mpt with
             slots := (s.mpt.slots.set i (some { port := p, kind := .calSpan, body := [hi, lo], state := .working })).map
               (Option.map (fun (d : DelayedSlot) => if d.kind = .calSpan ∧ d.state = .working then
                 { d with state := .done (0x03#8 :: beBytes 4 0 ++ be2 s.wge.span) (s.now + 5000) } else d)) }).answered p
           0x21#8 .pending []))) ∧
  (∀ (addr count : Byte) (w : List Byte) (s : State), Admitted .service .sensorPass (addr :: count :: w) s →
     s.mpt.matching .service .sensorPass (addr :: count :: w) = none →
     s.mpt.conflicting .service .sensorPass (addr :: count :: w) = false →
     let allowed := 8 ≤ addr.toNat ∧ addr.toNat ≤ 0x77 ∧ count.toNat ≤ 8
     let room := s.sbc.pass = none ∧ s.mpt.freeSlot.isSome = true
     let answers (c : Code) (s' : State) :=
       exec (.sensorPass .service (addr :: count :: w)) s = .next ((s'.heard .service).answered .service 0x06#8 c [])
     (¬allowed → room → answers .badField s) ∧ (allowed → ¬room → answers .busy s) ∧
     (¬allowed → ¬room → ∃ l, answers .badField (s.setSched l) ∨ answers .busy (s.setSched l))) ∧
  (∀ s : State, Admitted .service .commit [] s → s.mpt.matching .service .commit [] = none →
     s.mpt.conflicting .service .commit [] = false → (s.stc.commit.isSome = true ∨ s.mpt.freeSlot = none) →
     exec (.commit .service []) s = .next ((s.heard .service).answered .service 0x3B#8 .busy []))

/-- A repeat of a delayed request is answered PENDING while its slot is WORKING, and OK with the result, freeing the slot, once
it is DONE; the same kind and port with another body is BUSY while a slot of it is WORKING (R214), also where the owner's rows would
put BAD_FIELD first (the model's reading of R214 beside R103 and R36, notes/assumptions/47.md). -/
def Obligations.DelayedRepeats : Prop :=
  ∀ (r : Req) (k : DelayedKind) (p : Port) (body : List Byte) (s : State), r.delayed = some k → Admitted p r body s →
    (∀ i d, s.mpt.matching p k body = some (i, d) → d.state = .working →
      exec (r.frame p body) s = .next ((s.heard p).answered p r.code .pending [])) ∧
    (∀ i d result u, s.mpt.matching p k body = some (i, d) → d.state = .done result u →
      exec (r.frame p body) s = .next (((s.heard p).freeDelayed i).answered p r.code .ok result)) ∧
    (s.mpt.matching p k body = none → s.mpt.conflicting p k body = true →
      exec (r.frame p body) s = .next ((s.heard p).answered p r.code .busy []))

/-- The tare timer ends a working TARE with NOT_STEADY and leaves z as it stands (R101). A COMMIT that ends OK has stored its
collection with a check that matches and clears settings-bad; one that fails leaves the image marked invalid (R203). The slot, if
one is left, is DONE with the result, and its discard timer, 5 s later, frees it (R215). In a LINK arrival a working TARE takes a
sample: the 64th steady one in a row makes z the rounded mean count, clears zero-suspect and ends it OK with the new z; an unsteady
one empties the collection (R99, R100). A working CAL_SPAN collects the steady samples of its lift; the 128th ends it, OK with the
new span or BAD_SPAN with the span as it was, and with mean_c − z (R104, R105); a drop ends it ABORTED (R106). That BAD_SPAN carries
the span is the model's reading (notes/assumptions/41.md). -/
def Obligations.DelayedWorkEnds : Prop :=
  (∀ (t : TareWork) (s : State), s.powered = true → s.wge.tare = some t → t.deadline ≤ s.now →
     exec .tareTimeout s =
       .next ((s.setWge { s.wge with tare := none, az := .empty }).setMpt { s.mpt with
         slots := s.mpt.slots.map (Option.map (fun (d : DelayedSlot) =>
           if d.kind = .tare ∧ d.state = .working then
             { d with state := .done (0x01#8 :: beBytes 3 s.wge.z) (s.now + 5000) }
           else d)) }).pump) ∧
  (∀ (c : ImageContents) (s : State), s.powered = true → s.stc.commit = some c →
     let slots (code : Byte) := s.mpt.slots.map (Option.map (fun (d : DelayedSlot) =>
       if d.kind = .commit ∧ d.state = .working then { d with state := .done [code] (s.now + 5000) } else d))
     exec (.commitDone true) s =
         .next ((s.setStc { s.stc with
           commit := none, settingsBad := false
           image := { contents := c, check := Config.settingsCheck c, invalid := false } }).setMpt
           { s.mpt with slots := slots 0x00#8 }).pump ∧
       exec (.commitDone false) s =
         .next ((s.setStc { s.stc with commit := none }).setMpt { s.mpt with slots := slots 0x05#8 }).pump) ∧
  (∀ (i : Fin 4) (d : DelayedSlot) (result : List Byte) (u : Nat) (s : State), s.powered = true →
     s.mpt.slots[i] = some d → d.state = .done result u → u ≤ s.now →
     exec (.discardExpiry i) s = .next (s.setMpt { s.mpt with slots := s.mpt.slots.set i none }).pump) ∧
  (∀ (c : Int) (ov : Bool) (t : TareWork) (s : State), s.wge.tare = some t →
     let x := massOf s.wge.z s.wge.span c ov
     let steady := x.clipped = false ∧ ∃ m, s.wge.prev = some m ∧ (x.m - m).natAbs ≤ s.cfg.weigh.d
     let u := linkArrival c ov s
     (¬steady → u.wge.tare = some { t with count := 0, sumC := 0 } ∧ u.wge.z = s.wge.z) ∧
     (steady → t.count < 63 → u.wge.tare = some { t with count := t.count + 1, sumC := t.sumC + c } ∧ u.wge.z = s.wge.z) ∧
     (steady → 63 ≤ t.count → u.wge.tare = none ∧ u.wge.z = roundDiv (t.sumC + c) 64 ∧ u.wge.zeroSuspect = false ∧
       u.wge.az = { count := 0, sumC := 0, sumM := 0 } ∧
       ∀ (i : Fin 4) (d : DelayedSlot), s.mpt.slots[i] = some d → d.kind = .tare → d.state = .working →
         u.mpt.slots[i] = some { d with state := .done (0x00#8 :: beBytes 3 u.wge.z) (s.now + 5000) })) ∧
  (∀ (c : Int) (ov : Bool) (k : CalWork) (l : Lift) (s : State), s.wge.cal = some k → s.wge.lift = some l →
     l.stage ≠ .gripped → s.wge.tare = none →
     let x := massOf s.wge.z s.wge.span c ov
     let cfg := s.cfg.weigh
     let drops := x.m < ((cfg.lMin / 2 : Nat) : Int) ∧ 4 ≤ l.drops
     let steady := s.pos.pose.valid = true ∧ x.clipped = false ∧ (s.cfg.sw.dynReject = false ∨
       ((∃ m, s.wge.prev = some m ∧ (x.m - m).natAbs ≤ cfg.d) ∧ s.pos.pose.slewRate.val.natAbs ≤ cfg.rs ∧
         s.pos.pose.mainRate.val.natAbs ≤ cfg.rm))
     let u := linkArrival c ov s
     let done (result : List Byte) := ∀ (i : Fin 4) (d : DelayedSlot), s.mpt.slots[i] = some d → d.kind = .calSpan →
       d.state = .working → u.mpt.slots[i] = some { d with state := .done result (s.now + 5000) }
     let diff := roundDiv (k.sumC + c) 128 - s.wge.z
     let new := roundDiv ((k.mref : Int) * 100000) diff.toNat
     u.wge.z = s.wge.z ∧
     (drops → u.wge.cal = none ∧ u.wge.span = s.wge.span ∧ done (0x02#8 :: beBytes 4 0 ++ be2 s.wge.span)) ∧
     (¬drops → ¬steady → u.wge.cal = some k ∧ u.wge.span = s.wge.span) ∧
     (¬drops → steady → k.count < 127 → u.wge.cal = some { k with count := k.count + 1, sumC := k.sumC + c } ∧
       u.wge.span = s.wge.span) ∧
     (¬drops → steady → 127 ≤ k.count → (diff ≤ 0 ∨ new < 1 ∨ 65535 < new) →
       u.wge.cal = none ∧ u.wge.span = s.wge.span ∧ done (0x04#8 :: beBytes 4 diff ++ be2 s.wge.span)) ∧
     (¬drops → steady → 127 ≤ k.count → 0 < diff → 1 ≤ new → new ≤ 65535 →
       u.wge.cal = none ∧ (u.wge.span : Int) = new ∧ done (0x00#8 :: beBytes 4 diff ++ be2 new.toNat)))

/-! ### The capacity monitor -/

/-- C_eff is trunc(C × F / 1024), and U is the least whole number of per mille of it that covers the live mass, up to 9,999; it is 0
for no mass, and 9,999 for a mass with no capacity (R145). The monitor state after an evaluation, row by row of R146: U at or above
U_hold gives HOLD, U below U_warn − 50 gives NORMAL, HOLD is left only at or below U_rel or below U_warn − 50, and between the
levels NORMAL and BLIND give WARN from U_warn on, WARN stays, and HOLD gives WARN; given the order of the levels that R148 states.
-/
def Obligations.UtilisationAndLevels : Prop :=
  (∀ (m : Int) (c : Nat),
     (m ≤ 0 → utilisation m c = 0) ∧
     (0 < m → c = 0 → utilisation m c = 9999) ∧
     (0 < m → 0 < c → m * 1000 ≤ 9999 * c →
       m * 1000 ≤ (utilisation m c : Int) * c ∧ ((utilisation m c : Int) - 1) * c < m * 1000) ∧
     (0 < m → 0 < c → 9999 * (c : Int) < m * 1000 → utilisation m c = 9999)) ∧
  (∀ (c : CapParams) (before : Monitor) (u : Nat), c.uWarn ≤ c.uHold → c.uRel + 10 ≤ c.uHold →
     (c.uHold ≤ u → nextMonitor c before u = .hold) ∧
     (u + 50 < c.uWarn → nextMonitor c before u = .normal) ∧
     (nextMonitor c .hold u ≠ .hold ↔ (u ≤ c.uRel ∨ u + 50 < c.uWarn)) ∧
     (before = .normal ∨ before = .blind →
       (u < c.uWarn → nextMonitor c before u = .normal) ∧ (c.uWarn ≤ u → u < c.uHold → nextMonitor c before u = .warn)) ∧
     (c.uWarn ≤ u + 50 → u < c.uHold → nextMonitor c .warn u = .warn) ∧
     (c.uWarn ≤ u + 50 → u ≤ c.uRel → nextMonitor c .hold u = .warn) ∧
     nextMonitor c before u ≠ .blind) ∧
  (∀ c f : Nat, (effectiveCap c f) * 1024 ≤ c * f ∧ c * f < (effectiveCap c f + 1) * 1024)

/-- PERMIT, row by row: BUSY while a permit runs; WRONG_STATE out of HOLD; WRONG_STATE with U at 1,200 or more; otherwise OK with
the duration, the timer running and LOWER no longer asked for by CAP (R152). The permit timer ends the permit in HOLD: the timer is
stopped, CAP asks for LOWER again, a PERMIT_END report with cause EXPIRED is queued, and nothing of the other blocks changes (R153).
-/
def Obligations.PermitRules : Prop :=
  (∀ (p : Port) (s : State), Admitted p .permit [] s →
     (s.cpm.permit.isSome = true → exec (.permit p []) s = .next ((s.heard p).answered p 0x25#8 .busy [])) ∧
     (s.cpm.permit = none → s.cpm.monitor ≠ .hold →
       exec (.permit p []) s = .next ((s.heard p).answered p 0x25#8 .wrongState [])) ∧
     (s.cpm.permit = none → s.cpm.monitor = .hold → 1200 ≤ s.cpm.u →
       exec (.permit p []) s = .next ((s.heard p).answered p 0x25#8 .wrongState [])) ∧
     (s.cpm.permit = none → s.cpm.monitor = .hold → s.cpm.u < 1200 →
       exec (.permit p []) s =
         .next ((present .cap 0b100011#6 ((s.heard p).setCpm { s.cpm with
           permit := some (s.now + s.cfg.cap.permitS * 1000) })).answered p 0x25#8 .ok (be1 s.cfg.cap.permitS)))) ∧
  (∀ (d : Nat) (s : State), s.powered = true → s.capHeld → s.cpm.permit = some d → d ≤ s.now →
     ∃ t v : State, exec .permitExpiry s = .next t ∧ t = v.pump ∧ Queued [.permitEnd] [(.permitEnd, [0x00#8])] s v ∧
       t.cpm = { s.cpm with permit := none } ∧ t.hls.masks.cap = 0b100111#6 ∧
       t.sbc = s.sbc ∧ t.pos = s.pos ∧ t.wge = s.wge ∧ t.tlu = s.tlu ∧ t.wt = s.wt ∧ t.stc = s.stc)

/-- A taken CHART_WRITE replaces each entry of its run whole, and no other, and makes CPM evaluate once; while COMMIT works it is BUSY
and writes nothing (R139). OVERRIDE_SET: the slot takes the page, the value and the enable carried, and CPM evaluates; a slot outside
0..2 or a page outside 0..63 is BAD_FIELD and changes nothing (R138). -/
def Obligations.ChartAndOverrideWrites : Prop :=
  (∀ (p : Port) (body : List Byte) (s : State), Admitted p .chartWrite body s →
     runAllowed (natAt body 0 1) (natAt body 1 1) = true →
     (s.committing = true → exec (.chartWrite p body) s = .next ((s.heard p).answered p 0x23#8 .busy [])) ∧
     (s.committing = false →
       let chart := chartWritten body s.cfg.cap.chart
       exec (.chartWrite p body) s =
         .next ((cpmEvaluate ((s.heard p).setCfg { s.cfg with cap := { s.cfg.cap with chart := chart } })).answered p
           0x23#8 .ok []) ∧
       ∀ k : Fin 64, chart[k] =
         if natAt body 0 1 ≤ k.val ∧ k.val < natAt body 0 1 + natAt body 1 1 then
           { cap := natAt body (2 + 3 * (k.val - natAt body 0 1)) 2
             valid := (byteAt body (4 + 3 * (k.val - natAt body 0 1))).getLsbD 0
             derate := (byteAt body (4 + 3 * (k.val - natAt body 0 1))).getLsbD 1 }
         else s.cfg.cap.chart[k])) ∧
  (∀ (p : Port) (slot page hi lo en : Byte) (s : State), Admitted p .overrideSet [slot, page, hi, lo, en] s →
     ((3 ≤ slot.toNat ∨ 64 ≤ page.toNat) →
       exec (.overrideSet p [slot, page, hi, lo, en]) s = .next ((s.heard p).answered p 0x24#8 .badField [])) ∧
     (∀ i : Fin 3, slot.toNat = i.val → page.toNat ≤ 63 →
       exec (.overrideSet p [slot, page, hi, lo, en]) s =
         .next ((cpmEvaluate ((s.heard p).setCpm { s.cpm with
           overrides := s.cpm.overrides.set i
             { page := page.toNat, value := hi.toNat * 256 + lo.toNat, enable := en.getLsbD 0 } })).answered p
           0x24#8 .ok [])))

/-- A hand-over of the live mass, the lift state or the pose is copied and makes CPM evaluate (R142). An evaluation by the lift
state and the two marks (R143, R147): in OPEN NORMAL with U at 0; in GRIPPED U is 0, and the state NORMAL, or BLIND with an input
invalid; in CARRYING and WEIGHED U comes from the live mass and C_eff and the state from U, or with an input invalid U is held and
the state BLIND. With a valid pose the page, the capacity and its derate mark are the first row of R137 that applies, F that of
R144, and C_eff is formed of them (R145); without one they are held, marked invalid. A permit ends with HOLD. U goes to WT and into
the peak of a lift in CARRYING or WEIGHED (R85, R149); a change of state queues CAPACITY, and then an ended permit PERMIT_END (R149,
R151, R153). -/
def Obligations.EvaluationRules : Prop :=
  (∀ (live : Marked) (lift : LiftState) (pose : Pose) (s : State),
    cpmLive live s = cpmEvaluate (s.setCpm { s.cpm with liveCopy := live }) ∧
    cpmLift lift s = cpmEvaluate (s.setCpm { s.cpm with liftCopy := lift }) ∧
    cpmPose pose s = cpmEvaluate (s.setCpm { s.cpm with poseCopy := pose })) ∧
  (∀ s : State,
    let t := cpmEvaluate s
    let c := s.cpm
    let seen := c.liveCopy.ok = true ∧ c.poseCopy.valid = true
    (c.liftCopy = .open_ → t.cpm.monitor = .normal ∧ t.cpm.u = 0 ∧ t.cpm.uOk = true) ∧
    (c.liftCopy = .gripped → t.cpm.u = 0 ∧ (seen → t.cpm.monitor = .normal ∧ t.cpm.uOk = true)) ∧
    (c.liftCopy ≠ .open_ → (c.liveCopy.ok = false ∨ c.poseCopy.valid = false) →
      t.cpm.monitor = .blind ∧ t.cpm.uOk = false ∧ t.cpm.permit = none) ∧
    (c.liftCopy = .carrying ∨ c.liftCopy = .weighed → ¬seen → t.cpm.u = c.u) ∧
    (c.liftCopy = .carrying ∨ c.liftCopy = .weighed → c.liveCopy.ok = true → c.poseCopy.valid = true →
      t.cpm.u = utilisation c.liveCopy.val t.cpm.cEff ∧ t.cpm.uOk = true ∧
      t.cpm.monitor = nextMonitor s.cfg.cap c.monitor t.cpm.u) ∧
    (c.poseCopy.valid = false → t.cpm.page = c.page ∧ t.cpm.f = c.f ∧ t.cpm.cEff = c.cEff ∧ t.cpm.figOk = false) ∧
    (c.poseCopy.valid = true →
      let p := c.poseCopy.r.val.toNat / s.cfg.cap.pageSize
      let slope := c.poseCopy.t
      let row (cap : Nat) (derate : Bool) :=
        t.cpm.cEff = effectiveCap cap t.cpm.f ∧
        (s.cfg.sw.sectorDerate = false ∨ derate = false → t.cpm.f = 1024) ∧
        (s.cfg.sw.sectorDerate = true → derate = true →
          (slope.ok = false → t.cpm.f = s.cfg.cap.fMin) ∧ (slope.ok = true → slope.val ≤ 0 → t.cpm.f = 1024) ∧
          (slope.ok = true → 0 < slope.val →
            (t.cpm.f : Int) = max (s.cfg.cap.fMin : Int) (1024 - (slope.val * s.cfg.cap.k).tdiv 10)))
      let overridden (i : Fin 3) := c.overrides[i].enable = true ∧ c.overrides[i].page = p
      t.cpm.page = p ∧ t.cpm.figOk = true ∧ (64 ≤ p → row 0 false) ∧
      ∀ k : Fin 64, k.val = p →
        let x := s.cfg.cap.chart[k]
        (x.valid = false → row 0 false) ∧
        (∀ i : Fin 3, x.valid = true → overridden i → (∀ j : Fin 3, j.val < i.val → ¬overridden j) →
          row c.overrides[i].value x.derate) ∧
        (x.valid = true → (∀ i : Fin 3, ¬overridden i) → row x.cap x.derate)) ∧
    t.cpm.permit = (if t.cpm.monitor = .hold then c.permit else none) ∧
    t.wt.u = { val := t.cpm.u, ok := t.cpm.uOk } ∧
    InSomeOrder [wgeUtil t.cpm.u, wtUtil { val := t.cpm.u, ok := t.cpm.uOk }, evalReports c t.cpm, presentCap c t.cpm]
      (s.setCpm t.cpm) t ∧
    (∀ l : Lift, s.wge.lift = some l → l.stage ≠ .gripped →
      t.wge.lift = some { l with peakU := max l.peakU t.cpm.u }) ∧
    Queued [.capacity, .permitEnd]
      ((if t.cpm.monitor = c.monitor then [] else
          [(.capacity, be1 t.cpm.monitor.num ++ be1 c.monitor.num ++ be2 t.cpm.u ++ be2 t.cpm.cEff ++ be1 t.cpm.page ++
            be1 (bitOf 0 t.cpm.uOk + bitOf 1 t.cpm.figOk + bitOf 2 t.cpm.figOk) ++ be1 c.poseCopy.sector.num)]) ++
        (if c.permit.isSome = true ∧ t.cpm.permit = none then
          [(.permitEnd, be1 (if c.liftCopy = .open_ then 2 else 1))] else [])) s t ∧
    t.sbc = s.sbc ∧ t.pos = s.pos ∧ t.tlu = s.tlu ∧ t.stc = s.stc ∧ t.mpt.slots = s.mpt.slots ∧
    t.wge.z = s.wge.z ∧ t.wge.span = s.wge.span ∧ t.wge.liftState = s.wge.liftState)

/-! ### The watch table -/

/-- A source event that carries no quantity an enabled entry watches leaves the part as it is; one that carries an invalid value
leaves the entry's match state and last value. An enabled unchained entry that a valid value brings from not-matching to matching
fires: its hit flag is set, a HOLD presents its hold mask, and a REPORT queues WATCH with no partner; one that leaves matching
withdraws it (R161, R163, R164). A member of a chained pair takes no action of its own: the pair matches while both members are
enabled and match; as it rises both hit flags are set and the odd member's action is taken, a HOLD presented as WATCH of its index,
and as it falls that HOLD is withdrawn (R165, R166). When an entry's condition holds, mode by mode (R160). Each source event, once
the entries are made (R176), judges the entries in index order on its own quantities (R159, R161), a changed bunk total being handed
(R132); at OPEN to GRIPPED the LIFT_MASS entries cease to match, their HOLDs are withdrawn and their pairs judged anew, without a
firing (R162; in index order, the model's choice, notes/assumptions/39.md). -/
def Obligations.EntryEvaluation : Prop :=
  (∀ (d : WatchDef) (v : Int),
     (d.mode = .above → (watchHolds d v = true ↔ d.a ≤ v)) ∧ (d.mode = .below → (watchHolds d v = true ↔ v ≤ d.a)) ∧
     (d.mode = .inside → d.a ≤ d.b → (watchHolds d v = true ↔ d.a ≤ v ∧ v ≤ d.b)) ∧
     (d.mode = .outside → d.a ≤ d.b → (watchHolds d v = true ↔ v < d.a ∨ d.b < v)) ∧
     (d.mode = .inside → d.b < d.a → d.quantity = .slew → (watchHolds d v = true ↔ d.a ≤ v ∨ v ≤ d.b)) ∧
     (d.mode = .outside → d.b < d.a → d.quantity = .slew → (watchHolds d v = true ↔ d.b < v ∧ v < d.a))) ∧
  (∀ (ev : SourceEvent) (vals : Quantity → Option Marked) (k : Fin 8) (s : State),
     (vals s.wt.entries[k].d.quantity = none → evalEntry ev vals s k = s) ∧
     (s.wt.entries[k].d.enable = false → evalEntry ev vals s k = s) ∧
     (∀ m, vals s.wt.entries[k].d.quantity = some m → m.ok = false → s.wt.chained k = false →
       evalEntry ev vals s k = s)) ∧
  (∀ (ev : SourceEvent) (vals : Quantity → Option Marked) (k : Fin 8) (m : Marked) (s : State),
     s.wt.entries[k].d.enable = true → s.wt.chained k = false → vals s.wt.entries[k].d.quantity = some m → m.ok = true →
     let t := evalEntry ev vals s k
     let x := s.wt.entries[k]
     t.wt.entries[k].matching = watchHolds x.d m.val ∧ t.wt.entries[k].last = some m.val ∧
       t.wt.entries[k].hit = (x.hit || (!x.matching && watchHolds x.d m.val)) ∧
       (x.d.action = .hold → x.matching = false → watchHolds x.d m.val = true →
         t.hls.masks.watch[k] = x.d.holdMask) ∧
       (x.d.action = .hold → x.matching = true → watchHolds x.d m.val = false → t.hls.masks.watch[k] = 0#6) ∧
       (x.d.action = .report → x.matching = false → watchHolds x.d m.val = true → t.hls = s.hls ∧
         ∀ p, t.port p = (s.port p).queueReport .watch (be1 k.val ++ [0xFF#8] ++ be1 (quantityNum x.d.quantity) ++
           be1 (modeNum x.d.mode) ++ beBytes 4 m.val ++ be1 ev.num)) ∧
       (x.d.action ≠ .hold → t.hls = s.hls) ∧
       (x.matching = watchHolds x.d m.val → t.hls = s.hls ∧ t.mpt = s.mpt) ∧
       (∀ j, j ≠ k → t.wt.entries[j] = s.wt.entries[j]) ∧
       t.sbc = s.sbc ∧ t.pos = s.pos ∧ t.wge = s.wge ∧ t.tlu = s.tlu ∧ t.cpm = s.cpm ∧ t.stc = s.stc) ∧
  (∀ (ev : SourceEvent) (vals : Quantity → Option Marked) (k even odd : Fin 8) (c : Fin 4) (m : Marked) (s : State),
     even.val = 2 * c.val → odd.val = 2 * c.val + 1 → (k = even ∨ k = odd) → s.wt.entries[even].d.chain = true →
     s.wt.entries[k].d.enable = true → vals s.wt.entries[k].d.quantity = some m → m.ok = true →
     let t := evalEntry ev vals s k
     let matching (j : Fin 8) := if j = k then watchHolds s.wt.entries[k].d m.val else s.wt.entries[j].matching
     let new := s.wt.entries[even].d.enable && matching even && (s.wt.entries[odd].d.enable && matching odd)
     let rises := s.wt.pairs[c] = false ∧ new = true
     t.wt.entries[k].last = some m.val ∧ t.wt.pairs[c] = new ∧
       (∀ j : Fin 8, t.wt.entries[j].d = s.wt.entries[j].d ∧ t.wt.entries[j].matching = matching j ∧
         t.wt.entries[j].hit = (s.wt.entries[j].hit || (decide (j = even ∨ j = odd) && decide rises))) ∧
       (rises → s.wt.entries[odd].d.action = .hold → t.hls.masks.watch[odd] = s.wt.entries[odd].d.holdMask) ∧
       (rises → s.wt.entries[odd].d.action = .report → ∀ p, t.port p = (s.port p).queueReport .watch
         (be1 odd.val ++ be1 even.val ++ be1 (quantityNum s.wt.entries[odd].d.quantity) ++
           be1 (modeNum s.wt.entries[odd].d.mode) ++ beBytes 4 ((t.wt.entries[odd].last).getD 0) ++ be1 ev.num)) ∧
       (rises → s.wt.entries[odd].d.action = .capture → s.wt.capture = none →
         ∃ x, t.wt.capture = some x ∧ x.entry = odd ∧ x.value = (t.wt.entries[odd].last).getD 0 ∧ x.overrun = false) ∧
       (s.wt.pairs[c] = true → new = false → s.wt.entries[odd].d.action = .hold → t.hls.masks.watch[odd] = 0#6) ∧
       (s.wt.pairs[c] = new → t.hls = s.hls ∧ t.mpt = s.mpt) ∧
       (∀ j, j ≠ odd → t.hls.masks.watch[j] = s.hls.masks.watch[j]) ∧ (∀ j, j ≠ c → t.wt.pairs[j] = s.wt.pairs[j]) ∧
       t.sbc = s.sbc ∧ t.pos = s.pos ∧ t.wge = s.wge ∧ t.tlu = s.tlu ∧ t.cpm = s.cpm ∧ t.stc = s.stc) ∧
  (∀ s : State,
     let judged (ev : SourceEvent) (vals : Quantity → Option Marked) (u : State) :=
       if s.wt.made = true then ([0, 1, 2, 3, 4, 5, 6, 7] : List (Fin 8)).foldl (evalEntry ev vals) u else u
     let alone (q : Quantity) (m : Marked) := fun x => if x = q then some m else none
     (∀ m : Marked, wtLive m s = judged .liveMass (alone .liveMass m) (s.setWt { s.wt with live := m })) ∧
     (∀ m : Marked, wtUtil m s = judged .cpmEvaluation (alone .util m) (s.setWt { s.wt with u := m })) ∧
     (∀ n : Nat, wtBunk n s = judged .bunkTotal (alone .bunkTotal { val := n, ok := true }) s) ∧
     (∀ n : Nat, handBunkTotal n s = if s.tlu.bunkTotal = n then s else wtBunk s.tlu.bunkTotal s) ∧
     (∀ p : Pose, wtPose p s = judged .poseUpdate (fun x =>
         if x = .reach then some { val := p.r.val, ok := p.valid } else if x = .height then some { val := p.h.val, ok := p.valid }
         else if x = .slew then some p.s else if x = .downhill then some p.t else none) (s.setWt { s.wt with pose := p })) ∧
     (∀ (old new : LiftState) (tag mass : Option Nat),
       let u := s.setWt { s.wt with lift := new, tag := tag }
       let t := wtLift old new tag mass s
       (∀ m, new = .weighed → mass = some m →
         t = judged .weighed (alone .liftMass { val := m, ok := true }) u) ∧
       (new ≠ .weighed → ¬(old = .open_ ∧ new = .gripped) → t = u) ∧
       (old = .open_ → new = .gripped →
         let ofLift (k : Fin 8) := s.wt.entries[k].d.quantity = .liftMass
         let pairOfLift (k : Fin 8) := s.wt.entries[evenOf k].d.quantity = .liftMass ∨ s.wt.entries[oddOf k].d.quantity = .liftMass
         (∀ k : Fin 8, t.wt.entries[k] =
           if ofLift k then { s.wt.entries[k] with matching := false } else s.wt.entries[k]) ∧
         (∀ k : Fin 8, t.wt.pairs[coupleOf k] =
           if s.wt.entries[evenOf k].d.chain = true ∧ pairOfLift k then false else s.wt.pairs[coupleOf k]) ∧
         (∀ k : Fin 8,
           let was := (s.wt.entries[evenOf k].d.chain = false ∧ ofLift k ∧ s.wt.entries[k].matching = true) ∨
             (s.wt.entries[evenOf k].d.chain = true ∧ pairOfLift k ∧ s.wt.pairs[coupleOf k] = true ∧ k = oddOf k)
           (was → s.wt.entries[k].d.action = .hold → t.hls.masks.watch[k] = 0#6) ∧
           (¬was ∨ s.wt.entries[k].d.action ≠ .hold → t.hls.masks.watch[k] = s.hls.masks.watch[k])) ∧
         t.wt = { u.wt with entries := t.wt.entries, pairs := t.wt.pairs } ∧ Queued [.watch, .captureReady] [] s t ∧
         t.sbc = s.sbc ∧ t.pos = s.pos ∧ t.wge = s.wge ∧ t.tlu = s.tlu ∧ t.cpm = s.cpm ∧ t.stc = s.stc)))

/-- HIT_CLEAR clears the marked hit flags, from the cab port those of OPEN entries alone, is answered OK with the eight flags, and
changes nothing else (R174). CAPTURE_READ returns the FULL record and empties it; from an EMPTY one it is NOT_FOUND and changes
nothing (R170). A CAPTURE firing of an unchained entry fills an EMPTY record from WT's copies, with overrun clear; a FULL one it
fills afresh, with overrun set, when its index is lower, and else only sets overrun; each fill queues CAPTURE_READY (R163, R168,
R169). -/
def Obligations.HitClearAndCaptureRead : Prop :=
  (∀ (p : Port) (marks : Byte) (s : State), Admitted p .hitClear [marks] s →
     ∃ w : Wt,
       exec (.hitClear p [marks]) s = .next (((s.heard p).setWt w).answered p 0x2A#8 .ok (be1 (hitFlags w))) ∧
       w = { s.wt with entries := w.entries } ∧
       ∀ k : Fin 8, w.entries[k] = { s.wt.entries[k] with
         hit := s.wt.entries[k].hit &&
           !(marks.getLsbD k.val && (decide (p = .service) || decide (s.wt.entries[k].d.owner = .open_))) }) ∧
  (∀ (p : Port) (s : State), Admitted p .captureRead [] s →
     exec (.captureRead p []) s =
       .next (match s.wt.capture with
         | some c => ((s.heard p).setWt { s.wt with capture := none }).answered p 0x2B#8 .ok (captureBody c)
         | none => (s.heard p).answered p 0x2B#8 .notFound [])) ∧
  (∀ (ev : SourceEvent) (vals : Quantity → Option Marked) (k : Fin 8) (m : Marked) (s : State),
     let x := s.wt.entries[k]
     x.d.enable = true → s.wt.chained k = false → x.d.action = .capture → vals x.d.quantity = some m → m.ok = true →
     x.matching = false → watchHolds x.d m.val = true →
     let t := evalEntry ev vals s k
     let filled (overrun : Bool) : Capture :=
       { entry := k, value := m.val, s := s.wt.pose.s, alpha := s.wt.pose.alpha, beta := s.wt.pose.beta, e := s.wt.pose.e
         r := s.wt.pose.r, h := s.wt.pose.h, live := s.wt.live, u := s.wt.u, lift := s.wt.lift, tag := s.wt.tag
         overrun := overrun }
     t.wt.entries[k].hit = true ∧ t.hls = s.hls ∧
     (s.wt.capture = none → t.wt.capture = some (filled false) ∧
       ∀ p, t.port p = (s.port p).queueReport .captureReady [BitVec.ofNat 8 k.val, 0x00#8]) ∧
     (∀ c, s.wt.capture = some c → k.val < c.entry.val → t.wt.capture = some (filled true) ∧
       ∀ p, t.port p = (s.port p).queueReport .captureReady [BitVec.ofNat 8 k.val, 0x01#8]) ∧
     (∀ c, s.wt.capture = some c → c.entry.val ≤ k.val → t.wt.capture = some { c with overrun := true } ∧ t.mpt = s.mpt))

/-- The rows of R172 after the fields: the cab may not touch a LOCKED entry nor make one; a chain set before a LOCKED entry is taken
clear and CLAMPED from the cab, CONFLICT from the service port; a write of a LOCKED entry is BUSY while COMMIT works. A taken
WATCH_WRITE: the entry has the definition written, no hit, not-matching, no last value; its WATCH source presents the empty mask; no
other entry's definition, hit flag or last value changes; the reply carries the entry (R172, R173). Where two sources are withdrawn
at once, the written entry's comes first: the model's choice (notes/assumptions/44.md). -/
def Obligations.WatchWrite : Prop :=
  (∀ (k : Fin 8) (d : WatchDef) (s : State),
     let owner := s.wt.entries[k].d.owner
     let next := s.wt.entries[oddOf k].d.owner
     ((owner = .locked ∨ d.owner = .locked) → watchJudged .cab k d s = .error .locked) ∧
     (owner = .open_ → d.owner = .open_ → k.val % 2 = 0 → d.chain = true → next = .locked →
       watchJudged .cab k d s = .ok ({ d with chain := false }, .clamped)) ∧
     (owner = .open_ → d.owner = .open_ → (d.chain = false ∨ next = .open_) → watchJudged .cab k d s = .ok (d, .ok)) ∧
     ((owner = .locked ∨ d.owner = .locked) → s.committing = true → watchJudged .service k d s = .error .busy) ∧
     (s.committing = false → k.val % 2 = 0 → d.owner = .open_ → d.chain = true → next = .locked →
       watchJudged .service k d s = .error .conflict) ∧
     (s.committing = false → k.val % 2 = 1 → d.owner = .locked → s.wt.entries[evenOf k].d.owner = .open_ →
       s.wt.entries[evenOf k].d.chain = true → watchJudged .service k d s = .error .conflict) ∧
     (s.committing = false → d.owner = .open_ → d.chain = false → watchJudged .service k d s = .ok (d, .ok))) ∧
  (∀ (p : Port) (body : List Byte) (k : Fin 8) (d d' : WatchDef) (c : Code) (s : State), Admitted p .watchWrite body s →
     watchDefOf body = some (k, d) → limitsCrossed d = false → watchJudged p k d s = .ok (d', c) →
     ∃ t, exec (.watchWrite p body) s = .next t ∧
       t = (takeWatchWrite k d' (s.heard p)).answered p 0x29#8 c (watchReply t.wt [k]) ∧
       t.wt.entries[k] = { d := d', hit := false, matching := false, last := none } ∧
       t.hls.masks.watch[k] = 0#6 ∧
       (∀ j, j ≠ k → t.wt.entries[j].d = s.wt.entries[j].d ∧ t.wt.entries[j].hit = s.wt.entries[j].hit ∧
         t.wt.entries[j].last = s.wt.entries[j].last) ∧
       t.sbc = s.sbc ∧ t.pos = s.pos ∧ t.wge = s.wge ∧ t.tlu = s.tlu ∧ t.cpm = s.cpm ∧ t.stc = s.stc)

/-! ### The hold lines -/

/-- A line is commanded ACTIVE exactly while some source's mask names it, its primary cause is then the highest such source, and the
six outputs are those levels while the part is powered (R177, R178, R183). A presentation replaces its source's mask and no other,
and queues HOLD_CHANGE for each line whose level it changed, in line order (R178, R184). That they show no line driven without the
supply is the model's choice (notes/assumptions/19.md). -/
def Obligations.LevelsAndCauses : Prop :=
  (∀ (m : HoldMasks) (l : Line),
    (m.level l = true ↔ ∃ src, names (m.get src) l = true) ∧
    (m.cause l = none ↔ m.level l = false) ∧
    (names m.state l = true → m.cause l = some .state) ∧
    (∀ src, m.cause l = some src → names (m.get src) l = true ∧
      ∀ other, names (m.get other) l = true → sourceNum (some src) ≤ sourceNum (some other)) ∧
    names m.levels l = m.level l) ∧
  (∀ (s : State) (l : Line),
    (s.powered = true → names s.outputs l = s.hls.masks.level l) ∧ (s.powered = false → names s.outputs l = false)) ∧
  (∀ (src : HoldSource) (mask : LineMask) (s : State),
    let t := present src mask s
    t.hls = { s.hls with masks := t.hls.masks } ∧ t.hls.masks.get src = mask ∧
      (∀ other, other ≠ src → t.hls.masks.get other = s.hls.masks.get other) ∧
      Queued [.holdChange] (holdReports s.hls.masks t.hls.masks) s t)

/-- HOLD_MANUAL replaces the MANUAL mask and is answered OK with it and the levels (R181). LINE_FAULT_CLEAR clears the marked FAULT
flags and counts, and FAULT then presents ALERT exactly while a motion line's flag is still set (R188). Each queues HOLD_CHANGE for
the lines whose level it changed (R184). A body that marks an unknown line is BAD_FIELD and changes nothing. -/
def Obligations.HoldLineRequests : Prop :=
  (∀ (p : Port) (b : Byte) (s : State), Admitted p .holdManual [b] s →
     (64 ≤ b.toNat → exec (.holdManual p [b]) s = .next ((s.heard p).answered p 0x2C#8 .badField [])) ∧
     (b.toNat < 64 →
       ∃ t, exec (.holdManual p [b]) s = .next t ∧
         t = (present .manual (BitVec.ofNat 6 b.toNat) (s.heard p)).answered p 0x2C#8 .ok
           (be1 b.toNat ++ be1 t.hls.masks.levels.toNat) ∧
         t.hls = { s.hls with masks := { s.hls.masks with manual := BitVec.ofNat 6 b.toNat } } ∧
         Queued [.holdChange] (holdReports s.hls.masks t.hls.masks) s (present .manual (BitVec.ofNat 6 b.toNat) (s.heard p)) ∧
         t.sbc = s.sbc ∧ t.pos = s.pos ∧ t.wge = s.wge ∧ t.tlu = s.tlu ∧ t.cpm = s.cpm ∧ t.wt = s.wt ∧ t.stc = s.stc)) ∧
  (∀ (p : Port) (b : Byte) (s : State), Admitted p .lineFaultClear [b] s → s.faultHeld →
     (64 ≤ b.toNat → exec (.lineFaultClear p [b]) s = .next ((s.heard p).answered p 0x2E#8 .badField [])) ∧
     (b.toNat < 64 →
       ∃ t, exec (.lineFaultClear p [b]) s = .next t ∧
         t = (clearFaults (BitVec.ofNat 6 b.toNat) (s.heard p)).answered p 0x2E#8 .ok (faultsBody t.hls) ∧
         Queued [.holdChange] (holdReports s.hls.masks t.hls.masks) s (clearFaults (BitVec.ofNat 6 b.toNat) (s.heard p)) ∧
         (∀ i : Fin 6, t.hls.sense[i] =
           if b.getLsbD i.val = true then { s.hls.sense[i] with mismatches := 0, fault := false } else s.hls.sense[i]) ∧
         t.hls.masks = { s.hls.masks with fault := faultMask t.hls.sense } ∧ t.hls.senseTimer = s.hls.senseTimer ∧
         t.sbc = s.sbc ∧ t.pos = s.pos ∧ t.wge = s.wge ∧ t.tlu = s.tlu ∧ t.cpm = s.cpm ∧ t.wt = s.wt ∧ t.stc = s.stc))

/-- A sense expiry: each line's observed level is the level sampled, its count goes up by 1 to at most 3 on a disagreement with
the commanded level and to 0 on agreement, its FAULT flag is set by a count of 3 and else stays, and the timer runs on for
10 ms. LINE_FAULT is queued for each line newly faulty, in line order, and then any HOLD_CHANGE of ALERT (R185, R186). -/
def Obligations.SenseExpiryResult : Prop :=
  ∀ (levels : LineMask) (s : State), s.powered = true → s.hls.senseTimer ≤ s.now →
    ∃ t v : State, exec (.senseExpiry levels) s = .next t ∧ t = v.pump ∧ t.hls.senseTimer = s.hls.senseTimer + 10 ∧
      Queued [.lineFault, .holdChange]
        (([Line.boomOut, .teleOut, .lower, .slewL, .slewR, .alert].filter (fun l =>
            !(s.hls.sense[l.idx]).fault && (t.hls.sense[l.idx]).fault)).map (fun l =>
          (.lineFault, be1 l.num ++ be1 (if s.hls.masks.level l = true then 1 else 0) ++
            be1 (if names levels l = true then 1 else 0))) ++
          holdReports s.hls.masks t.hls.masks) s v ∧
      (∀ l : Line,
        let x := s.hls.sense[l.idx]
        let y := t.hls.sense[l.idx]
        y.observed = some (names levels l) ∧
        (names levels l = s.hls.masks.level l → y.mismatches = 0 ∧ y.fault = x.fault) ∧
        (names levels l ≠ s.hls.masks.level l → y.mismatches = min 3 (x.mismatches + 1) ∧
          (y.fault = true ↔ x.fault = true ∨ 2 ≤ x.mismatches))) ∧
      (∀ src, src ≠ .fault → t.hls.masks.get src = s.hls.masks.get src) ∧
      t.sbc = s.sbc ∧ t.pos = s.pos ∧ t.wge = s.wge ∧ t.tlu = s.tlu ∧ t.cpm = s.cpm ∧ t.wt = s.wt ∧ t.stc = s.stc

/-! ### The settings and the operating states -/

/-- PARAM_WRITE: the value is limited to its range and stored, U_hold and N move their companions, no other parameter changes, and
the reply is CLAMPED with what was stored when a value or a companion moved, else OK; a page size that is none of the three is
BAD_FIELD. FEATURES: the three switches are stored and the reply is OK with them; a change of AUTO_ZERO empties its window; no other
setting, and neither zero nor span, changes. CPM evaluates at a write of its settings (R141, R142), and POS recomputes at one of
geometry or zones (R55). While COMMIT works both are BUSY and change nothing (R97, R107, R201, R202). -/
def Obligations.ParameterAndFeatureWrites : Prop :=
  (∀ (body : List Byte) (q : Param) (s : State), Admitted .service .paramWrite body s → Param.ofCode (natAt body 0 1) = some q →
     let v := intAt body 1 4
     let pageOk := q ≠ .pageSize ∨ v = 125 ∨ v = 250 ∨ v = 500
     (¬pageOk → exec (.paramWrite .service body) s = .next ((s.heard .service).answered .service 0x31#8 .badField [])) ∧
     (pageOk → s.committing = true →
       exec (.paramWrite .service body) s = .next ((s.heard .service).answered .service 0x31#8 .busy [])) ∧
     (pageOk → s.committing = false → SettingsOrdered s.cfg →
       let w := max (q.range s.cfg).1 (min (q.range s.cfg).2 v)
       let moved := q.companions s.cfg w
       ∃ t u : State, exec (.paramWrite .service body) s = .next t ∧
         t = u.answered .service 0x31#8 (if w = v ∧ moved = [] then .ok else .clamped) (paramBody q w moved) ∧
         q.read t = w ∧ (∀ m ∈ moved, m.1.read t = m.2) ∧
         (∀ q', q' ≠ q → (∀ m ∈ moved, m.1 ≠ q') → q'.read t = q'.read s) ∧
         (q ∈ [.pageSize, .k, .fMin, .uWarn, .uHold, .uRel] → t.cpm = (cpmEvaluate (s.setCfg t.cfg)).cpm) ∧
         (q = .permitS → t.cpm = s.cpm) ∧
         (q ∈ [.l1, .l2, .teleMax, .column, .slewOff, .slewLo, .slewHi, .reachLo, .reachHi] →
           t.pos = (recompute (s.setCfg t.cfg)).pos) ∧
         t.stc = { s.stc with settings := t.stc.settings } ∧ t.tlu = s.tlu ∧ t.sbc = s.sbc ∧ t.cfg.sw = s.cfg.sw ∧
         t.cfg.cap.chart = s.cfg.cap.chart)) ∧
  (∀ (b : Byte) (s : State), Admitted .service .features [b] s →
     (s.committing = true → exec (.features .service [b]) s = .next ((s.heard .service).answered .service 0x32#8 .busy [])) ∧
     (s.committing = false →
       let w : Switches := { dynReject := b.getLsbD 0, autoZero := b.getLsbD 1, sectorDerate := b.getLsbD 2 }
       ∃ t u : State, exec (.features .service [b]) s = .next t ∧
         t = u.answered .service 0x32#8 .ok (be1 (b.toNat % 8)) ∧
         t.stc = { s.stc with settings := { s.cfg with sw := w } } ∧
         t.cpm = (cpmEvaluate (s.setCfg t.cfg)).cpm ∧
         (w.autoZero ≠ s.cfg.sw.autoZero → t.wge.az = { count := 0, sumC := 0, sumM := 0 }) ∧
         (w.autoZero = s.cfg.sw.autoZero → t.wge.az = s.wge.az) ∧
         t.wge.z = s.wge.z ∧ t.wge.span = s.wge.span ∧ t.tlu = s.tlu ∧ t.sbc = s.sbc ∧ t.pos = s.pos))

/-- ENTER_SERVICE in RUN with no lift, LEAVE_SERVICE in SERVICE with no COMMIT and STANDBY in RUN with no lift and no permit change
the operating state, with their effects on overrides, CAL_SPAN, a waiting passthrough, the STATE mask and the bus; RESTART with no
COMMIT marks the reset that follows its reply. Each change queues STATE_CHANGE (R192). What stands in the way is BUSY, the wrong
state WRONG_STATE, with nothing changed (R35, R38, R106, R138, R179, R196, R198, R199, R204). That the bus shows STOPPED with its
timers halted while a transaction still completes is the model's choice (notes/assumptions/12.md). -/
def Obligations.StateRequestRows : Prop :=
  ∀ (s : State),
    (∀ p, Admitted p .enterService [] s →
      (s.stc.op = .service → exec (.enterService p []) s = .next ((s.heard p).answered p 0x38#8 .wrongState [])) ∧
      (s.stc.op = .run → s.wge.lift.isSome = true →
        exec (.enterService p []) s = .next ((s.heard p).answered p 0x38#8 .busy [])) ∧
      (s.stc.op = .run → s.wge.lift = none →
        ∃ t u : State, exec (.enterService p []) s = .next t ∧ t = u.answered p 0x38#8 .ok [] ∧
          Queued [.stateChange] (stateReport 2 1 s.stc.settingsBad) s u ∧
          t.stc = { s.stc with op := .service } ∧ t.sbc = s.sbc ∧ t.pos = s.pos ∧ t.wge = s.wge ∧ t.tlu = s.tlu ∧
          t.cpm = s.cpm ∧ t.wt = s.wt ∧ t.hls = s.hls ∧ t.mpt.slots = s.mpt.slots)) ∧
    (∀ p, Admitted p .leaveService [] s →
      (s.stc.op = .run → exec (.leaveService p []) s = .next ((s.heard p).answered p 0x39#8 .wrongState [])) ∧
      (s.stc.op = .service → s.committing = true →
        exec (.leaveService p []) s = .next ((s.heard p).answered p 0x39#8 .busy [])) ∧
      (s.stc.op = .service → s.committing = false →
        ∃ t u : State, exec (.leaveService p []) s = .next t ∧ t = u.answered p 0x39#8 .ok [] ∧
          Queued [.stateChange] (stateReport 1 2 s.stc.settingsBad) s u ∧
          t.stc = { s.stc with op := .run } ∧ (∀ i : Fin 3, t.cpm.overrides[i] = { page := 0, value := 0, enable := false }) ∧
          t.cpm = (cpmEvaluate (s.setCpm { s.cpm with overrides := t.cpm.overrides })).cpm ∧
          t.wge.cal = none ∧ (s.sbc.passWaiting = true → t.sbc.pass = none) ∧ t.sbc.bus = s.sbc.bus ∧
          t.sbc.entries = s.sbc.entries ∧ t.pos = s.pos ∧ t.tlu = s.tlu ∧ t.wge.z = s.wge.z ∧ t.wge.span = s.wge.span)) ∧
    (∀ p, Admitted p .standby [] s →
      ((s.wge.lift.isSome = true ∨ s.cpm.permit.isSome = true) →
        exec (.standby p []) s = .next ((s.heard p).answered p 0x3A#8 .busy [])) ∧
      (s.wge.lift = none → s.cpm.permit = none →
        ∃ t u : State, exec (.standby p []) s = .next t ∧ t = u.answered p 0x3A#8 .ok [] ∧
          Queued [.stateChange] (stateReport 3 1 s.stc.settingsBad) s u ∧
          t.stc = { s.stc with op := .standby } ∧ t.hls.masks.state = 0b011111#6 ∧ t.sbc.bus = .stopped ∧
          t.sbc.roundTimer = none ∧ t.sbc.attemptTimer = none ∧ t.sbc.due = [] ∧ t.sbc.entries = s.sbc.entries ∧
          (s.sbc.txn = none → t.sbc.busFreeLow = true ∧ t.sbc.stuckTimes = []) ∧
          t.pos = s.pos ∧ t.wge = s.wge ∧ t.tlu = s.tlu ∧ t.cpm = s.cpm ∧ t.wt = s.wt ∧ t.mpt.slots = s.mpt.slots)) ∧
    (∀ p, Admitted p .restart [] s →
      (s.committing = true → exec (.restart p []) s = .next ((s.heard p).answered p 0x3C#8 .busy [])) ∧
      (s.committing = false → s.stc.restart ≠ .due →
        exec (.restart p []) s =
          .next (((s.heard p).setStc { s.stc with restart := .replying }).answered p 0x3C#8 .ok [])))
end

