-- ==== Sys2Proof/Laws/State.lean ====
section
/-! SUPPORT. What replacing one block of the state leaves: each field after each replacement, so that no later proof unfolds
a record update. -/

namespace Sys2Proof.Machine

/-! ### State.setPowered -/

@[simp] theorem State.setPowered_powered (s : State) x : (s.setPowered x).powered = x := rfl
@[simp] theorem State.setPowered_now (s : State) x : (s.setPowered x).now = s.now := rfl
@[simp] theorem State.setPowered_sbc (s : State) x : (s.setPowered x).sbc = s.sbc := rfl
@[simp] theorem State.setPowered_pos (s : State) x : (s.setPowered x).pos = s.pos := rfl
@[simp] theorem State.setPowered_wge (s : State) x : (s.setPowered x).wge = s.wge := rfl
@[simp] theorem State.setPowered_tlu (s : State) x : (s.setPowered x).tlu = s.tlu := rfl
@[simp] theorem State.setPowered_cpm (s : State) x : (s.setPowered x).cpm = s.cpm := rfl
@[simp] theorem State.setPowered_wt (s : State) x : (s.setPowered x).wt = s.wt := rfl
@[simp] theorem State.setPowered_hls (s : State) x : (s.setPowered x).hls = s.hls := rfl
@[simp] theorem State.setPowered_stc (s : State) x : (s.setPowered x).stc = s.stc := rfl
@[simp] theorem State.setPowered_mpt (s : State) x : (s.setPowered x).mpt = s.mpt := rfl
@[simp] theorem State.setPowered_sched (s : State) x : (s.setPowered x).sched = s.sched := rfl
@[simp] theorem State.setPowered_pending (s : State) x : (s.setPowered x).pending = s.pending := rfl
@[simp] theorem State.setPowered_self (s : State) : s.setPowered s.powered = s := rfl
@[simp] theorem State.setPowered_setPowered (s : State) x y : (s.setPowered x).setPowered y = s.setPowered y := rfl

/-! ### State.setNow -/

@[simp] theorem State.setNow_powered (s : State) x : (s.setNow x).powered = s.powered := rfl
@[simp] theorem State.setNow_now (s : State) x : (s.setNow x).now = x := rfl
@[simp] theorem State.setNow_sbc (s : State) x : (s.setNow x).sbc = s.sbc := rfl
@[simp] theorem State.setNow_pos (s : State) x : (s.setNow x).pos = s.pos := rfl
@[simp] theorem State.setNow_wge (s : State) x : (s.setNow x).wge = s.wge := rfl
@[simp] theorem State.setNow_tlu (s : State) x : (s.setNow x).tlu = s.tlu := rfl
@[simp] theorem State.setNow_cpm (s : State) x : (s.setNow x).cpm = s.cpm := rfl
@[simp] theorem State.setNow_wt (s : State) x : (s.setNow x).wt = s.wt := rfl
@[simp] theorem State.setNow_hls (s : State) x : (s.setNow x).hls = s.hls := rfl
@[simp] theorem State.setNow_stc (s : State) x : (s.setNow x).stc = s.stc := rfl
@[simp] theorem State.setNow_mpt (s : State) x : (s.setNow x).mpt = s.mpt := rfl
@[simp] theorem State.setNow_sched (s : State) x : (s.setNow x).sched = s.sched := rfl
@[simp] theorem State.setNow_pending (s : State) x : (s.setNow x).pending = s.pending := rfl
@[simp] theorem State.setNow_self (s : State) : s.setNow s.now = s := rfl
@[simp] theorem State.setNow_setNow (s : State) x y : (s.setNow x).setNow y = s.setNow y := rfl

/-! ### State.setSbc -/

@[simp] theorem State.setSbc_powered (s : State) x : (s.setSbc x).powered = s.powered := rfl
@[simp] theorem State.setSbc_now (s : State) x : (s.setSbc x).now = s.now := rfl
@[simp] theorem State.setSbc_sbc (s : State) x : (s.setSbc x).sbc = x := rfl
@[simp] theorem State.setSbc_pos (s : State) x : (s.setSbc x).pos = s.pos := rfl
@[simp] theorem State.setSbc_wge (s : State) x : (s.setSbc x).wge = s.wge := rfl
@[simp] theorem State.setSbc_tlu (s : State) x : (s.setSbc x).tlu = s.tlu := rfl
@[simp] theorem State.setSbc_cpm (s : State) x : (s.setSbc x).cpm = s.cpm := rfl
@[simp] theorem State.setSbc_wt (s : State) x : (s.setSbc x).wt = s.wt := rfl
@[simp] theorem State.setSbc_hls (s : State) x : (s.setSbc x).hls = s.hls := rfl
@[simp] theorem State.setSbc_stc (s : State) x : (s.setSbc x).stc = s.stc := rfl
@[simp] theorem State.setSbc_mpt (s : State) x : (s.setSbc x).mpt = s.mpt := rfl
@[simp] theorem State.setSbc_sched (s : State) x : (s.setSbc x).sched = s.sched := rfl
@[simp] theorem State.setSbc_pending (s : State) x : (s.setSbc x).pending = s.pending := rfl
@[simp] theorem State.setSbc_self (s : State) : s.setSbc s.sbc = s := rfl
@[simp] theorem State.setSbc_setSbc (s : State) x y : (s.setSbc x).setSbc y = s.setSbc y := rfl

/-! ### State.setPos -/

@[simp] theorem State.setPos_powered (s : State) x : (s.setPos x).powered = s.powered := rfl
@[simp] theorem State.setPos_now (s : State) x : (s.setPos x).now = s.now := rfl
@[simp] theorem State.setPos_sbc (s : State) x : (s.setPos x).sbc = s.sbc := rfl
@[simp] theorem State.setPos_pos (s : State) x : (s.setPos x).pos = x := rfl
@[simp] theorem State.setPos_wge (s : State) x : (s.setPos x).wge = s.wge := rfl
@[simp] theorem State.setPos_tlu (s : State) x : (s.setPos x).tlu = s.tlu := rfl
@[simp] theorem State.setPos_cpm (s : State) x : (s.setPos x).cpm = s.cpm := rfl
@[simp] theorem State.setPos_wt (s : State) x : (s.setPos x).wt = s.wt := rfl
@[simp] theorem State.setPos_hls (s : State) x : (s.setPos x).hls = s.hls := rfl
@[simp] theorem State.setPos_stc (s : State) x : (s.setPos x).stc = s.stc := rfl
@[simp] theorem State.setPos_mpt (s : State) x : (s.setPos x).mpt = s.mpt := rfl
@[simp] theorem State.setPos_sched (s : State) x : (s.setPos x).sched = s.sched := rfl
@[simp] theorem State.setPos_pending (s : State) x : (s.setPos x).pending = s.pending := rfl
@[simp] theorem State.setPos_self (s : State) : s.setPos s.pos = s := rfl
@[simp] theorem State.setPos_setPos (s : State) x y : (s.setPos x).setPos y = s.setPos y := rfl

/-! ### State.setWge -/

@[simp] theorem State.setWge_powered (s : State) x : (s.setWge x).powered = s.powered := rfl
@[simp] theorem State.setWge_now (s : State) x : (s.setWge x).now = s.now := rfl
@[simp] theorem State.setWge_sbc (s : State) x : (s.setWge x).sbc = s.sbc := rfl
@[simp] theorem State.setWge_pos (s : State) x : (s.setWge x).pos = s.pos := rfl
@[simp] theorem State.setWge_wge (s : State) x : (s.setWge x).wge = x := rfl
@[simp] theorem State.setWge_tlu (s : State) x : (s.setWge x).tlu = s.tlu := rfl
@[simp] theorem State.setWge_cpm (s : State) x : (s.setWge x).cpm = s.cpm := rfl
@[simp] theorem State.setWge_wt (s : State) x : (s.setWge x).wt = s.wt := rfl
@[simp] theorem State.setWge_hls (s : State) x : (s.setWge x).hls = s.hls := rfl
@[simp] theorem State.setWge_stc (s : State) x : (s.setWge x).stc = s.stc := rfl
@[simp] theorem State.setWge_mpt (s : State) x : (s.setWge x).mpt = s.mpt := rfl
@[simp] theorem State.setWge_sched (s : State) x : (s.setWge x).sched = s.sched := rfl
@[simp] theorem State.setWge_pending (s : State) x : (s.setWge x).pending = s.pending := rfl
@[simp] theorem State.setWge_self (s : State) : s.setWge s.wge = s := rfl
@[simp] theorem State.setWge_setWge (s : State) x y : (s.setWge x).setWge y = s.setWge y := rfl

/-! ### State.setTlu -/

@[simp] theorem State.setTlu_powered (s : State) x : (s.setTlu x).powered = s.powered := rfl
@[simp] theorem State.setTlu_now (s : State) x : (s.setTlu x).now = s.now := rfl
@[simp] theorem State.setTlu_sbc (s : State) x : (s.setTlu x).sbc = s.sbc := rfl
@[simp] theorem State.setTlu_pos (s : State) x : (s.setTlu x).pos = s.pos := rfl
@[simp] theorem State.setTlu_wge (s : State) x : (s.setTlu x).wge = s.wge := rfl
@[simp] theorem State.setTlu_tlu (s : State) x : (s.setTlu x).tlu = x := rfl
@[simp] theorem State.setTlu_cpm (s : State) x : (s.setTlu x).cpm = s.cpm := rfl
@[simp] theorem State.setTlu_wt (s : State) x : (s.setTlu x).wt = s.wt := rfl
@[simp] theorem State.setTlu_hls (s : State) x : (s.setTlu x).hls = s.hls := rfl
@[simp] theorem State.setTlu_stc (s : State) x : (s.setTlu x).stc = s.stc := rfl
@[simp] theorem State.setTlu_mpt (s : State) x : (s.setTlu x).mpt = s.mpt := rfl
@[simp] theorem State.setTlu_sched (s : State) x : (s.setTlu x).sched = s.sched := rfl
@[simp] theorem State.setTlu_pending (s : State) x : (s.setTlu x).pending = s.pending := rfl
@[simp] theorem State.setTlu_self (s : State) : s.setTlu s.tlu = s := rfl
@[simp] theorem State.setTlu_setTlu (s : State) x y : (s.setTlu x).setTlu y = s.setTlu y := rfl

/-! ### State.setCpm -/

@[simp] theorem State.setCpm_powered (s : State) x : (s.setCpm x).powered = s.powered := rfl
@[simp] theorem State.setCpm_now (s : State) x : (s.setCpm x).now = s.now := rfl
@[simp] theorem State.setCpm_sbc (s : State) x : (s.setCpm x).sbc = s.sbc := rfl
@[simp] theorem State.setCpm_pos (s : State) x : (s.setCpm x).pos = s.pos := rfl
@[simp] theorem State.setCpm_wge (s : State) x : (s.setCpm x).wge = s.wge := rfl
@[simp] theorem State.setCpm_tlu (s : State) x : (s.setCpm x).tlu = s.tlu := rfl
@[simp] theorem State.setCpm_cpm (s : State) x : (s.setCpm x).cpm = x := rfl
@[simp] theorem State.setCpm_wt (s : State) x : (s.setCpm x).wt = s.wt := rfl
@[simp] theorem State.setCpm_hls (s : State) x : (s.setCpm x).hls = s.hls := rfl
@[simp] theorem State.setCpm_stc (s : State) x : (s.setCpm x).stc = s.stc := rfl
@[simp] theorem State.setCpm_mpt (s : State) x : (s.setCpm x).mpt = s.mpt := rfl
@[simp] theorem State.setCpm_sched (s : State) x : (s.setCpm x).sched = s.sched := rfl
@[simp] theorem State.setCpm_pending (s : State) x : (s.setCpm x).pending = s.pending := rfl
@[simp] theorem State.setCpm_self (s : State) : s.setCpm s.cpm = s := rfl
@[simp] theorem State.setCpm_setCpm (s : State) x y : (s.setCpm x).setCpm y = s.setCpm y := rfl

/-! ### State.setWt -/

@[simp] theorem State.setWt_powered (s : State) x : (s.setWt x).powered = s.powered := rfl
@[simp] theorem State.setWt_now (s : State) x : (s.setWt x).now = s.now := rfl
@[simp] theorem State.setWt_sbc (s : State) x : (s.setWt x).sbc = s.sbc := rfl
@[simp] theorem State.setWt_pos (s : State) x : (s.setWt x).pos = s.pos := rfl
@[simp] theorem State.setWt_wge (s : State) x : (s.setWt x).wge = s.wge := rfl
@[simp] theorem State.setWt_tlu (s : State) x : (s.setWt x).tlu = s.tlu := rfl
@[simp] theorem State.setWt_cpm (s : State) x : (s.setWt x).cpm = s.cpm := rfl
@[simp] theorem State.setWt_wt (s : State) x : (s.setWt x).wt = x := rfl
@[simp] theorem State.setWt_hls (s : State) x : (s.setWt x).hls = s.hls := rfl
@[simp] theorem State.setWt_stc (s : State) x : (s.setWt x).stc = s.stc := rfl
@[simp] theorem State.setWt_mpt (s : State) x : (s.setWt x).mpt = s.mpt := rfl
@[simp] theorem State.setWt_sched (s : State) x : (s.setWt x).sched = s.sched := rfl
@[simp] theorem State.setWt_pending (s : State) x : (s.setWt x).pending = s.pending := rfl
@[simp] theorem State.setWt_self (s : State) : s.setWt s.wt = s := rfl
@[simp] theorem State.setWt_setWt (s : State) x y : (s.setWt x).setWt y = s.setWt y := rfl

/-! ### State.setHls -/

@[simp] theorem State.setHls_powered (s : State) x : (s.setHls x).powered = s.powered := rfl
@[simp] theorem State.setHls_now (s : State) x : (s.setHls x).now = s.now := rfl
@[simp] theorem State.setHls_sbc (s : State) x : (s.setHls x).sbc = s.sbc := rfl
@[simp] theorem State.setHls_pos (s : State) x : (s.setHls x).pos = s.pos := rfl
@[simp] theorem State.setHls_wge (s : State) x : (s.setHls x).wge = s.wge := rfl
@[simp] theorem State.setHls_tlu (s : State) x : (s.setHls x).tlu = s.tlu := rfl
@[simp] theorem State.setHls_cpm (s : State) x : (s.setHls x).cpm = s.cpm := rfl
@[simp] theorem State.setHls_wt (s : State) x : (s.setHls x).wt = s.wt := rfl
@[simp] theorem State.setHls_hls (s : State) x : (s.setHls x).hls = x := rfl
@[simp] theorem State.setHls_stc (s : State) x : (s.setHls x).stc = s.stc := rfl
@[simp] theorem State.setHls_mpt (s : State) x : (s.setHls x).mpt = s.mpt := rfl
@[simp] theorem State.setHls_sched (s : State) x : (s.setHls x).sched = s.sched := rfl
@[simp] theorem State.setHls_pending (s : State) x : (s.setHls x).pending = s.pending := rfl
@[simp] theorem State.setHls_self (s : State) : s.setHls s.hls = s := rfl
@[simp] theorem State.setHls_setHls (s : State) x y : (s.setHls x).setHls y = s.setHls y := rfl

/-! ### State.setStc -/

@[simp] theorem State.setStc_powered (s : State) x : (s.setStc x).powered = s.powered := rfl
@[simp] theorem State.setStc_now (s : State) x : (s.setStc x).now = s.now := rfl
@[simp] theorem State.setStc_sbc (s : State) x : (s.setStc x).sbc = s.sbc := rfl
@[simp] theorem State.setStc_pos (s : State) x : (s.setStc x).pos = s.pos := rfl
@[simp] theorem State.setStc_wge (s : State) x : (s.setStc x).wge = s.wge := rfl
@[simp] theorem State.setStc_tlu (s : State) x : (s.setStc x).tlu = s.tlu := rfl
@[simp] theorem State.setStc_cpm (s : State) x : (s.setStc x).cpm = s.cpm := rfl
@[simp] theorem State.setStc_wt (s : State) x : (s.setStc x).wt = s.wt := rfl
@[simp] theorem State.setStc_hls (s : State) x : (s.setStc x).hls = s.hls := rfl
@[simp] theorem State.setStc_stc (s : State) x : (s.setStc x).stc = x := rfl
@[simp] theorem State.setStc_mpt (s : State) x : (s.setStc x).mpt = s.mpt := rfl
@[simp] theorem State.setStc_sched (s : State) x : (s.setStc x).sched = s.sched := rfl
@[simp] theorem State.setStc_pending (s : State) x : (s.setStc x).pending = s.pending := rfl
@[simp] theorem State.setStc_self (s : State) : s.setStc s.stc = s := rfl
@[simp] theorem State.setStc_setStc (s : State) x y : (s.setStc x).setStc y = s.setStc y := rfl

/-! ### State.setMpt -/

@[simp] theorem State.setMpt_powered (s : State) x : (s.setMpt x).powered = s.powered := rfl
@[simp] theorem State.setMpt_now (s : State) x : (s.setMpt x).now = s.now := rfl
@[simp] theorem State.setMpt_sbc (s : State) x : (s.setMpt x).sbc = s.sbc := rfl
@[simp] theorem State.setMpt_pos (s : State) x : (s.setMpt x).pos = s.pos := rfl
@[simp] theorem State.setMpt_wge (s : State) x : (s.setMpt x).wge = s.wge := rfl
@[simp] theorem State.setMpt_tlu (s : State) x : (s.setMpt x).tlu = s.tlu := rfl
@[simp] theorem State.setMpt_cpm (s : State) x : (s.setMpt x).cpm = s.cpm := rfl
@[simp] theorem State.setMpt_wt (s : State) x : (s.setMpt x).wt = s.wt := rfl
@[simp] theorem State.setMpt_hls (s : State) x : (s.setMpt x).hls = s.hls := rfl
@[simp] theorem State.setMpt_stc (s : State) x : (s.setMpt x).stc = s.stc := rfl
@[simp] theorem State.setMpt_mpt (s : State) x : (s.setMpt x).mpt = x := rfl
@[simp] theorem State.setMpt_sched (s : State) x : (s.setMpt x).sched = s.sched := rfl
@[simp] theorem State.setMpt_pending (s : State) x : (s.setMpt x).pending = s.pending := rfl
@[simp] theorem State.setMpt_self (s : State) : s.setMpt s.mpt = s := rfl
@[simp] theorem State.setMpt_setMpt (s : State) x y : (s.setMpt x).setMpt y = s.setMpt y := rfl

/-! ### State.setSched -/

@[simp] theorem State.setSched_powered (s : State) x : (s.setSched x).powered = s.powered := rfl
@[simp] theorem State.setSched_now (s : State) x : (s.setSched x).now = s.now := rfl
@[simp] theorem State.setSched_sbc (s : State) x : (s.setSched x).sbc = s.sbc := rfl
@[simp] theorem State.setSched_pos (s : State) x : (s.setSched x).pos = s.pos := rfl
@[simp] theorem State.setSched_wge (s : State) x : (s.setSched x).wge = s.wge := rfl
@[simp] theorem State.setSched_tlu (s : State) x : (s.setSched x).tlu = s.tlu := rfl
@[simp] theorem State.setSched_cpm (s : State) x : (s.setSched x).cpm = s.cpm := rfl
@[simp] theorem State.setSched_wt (s : State) x : (s.setSched x).wt = s.wt := rfl
@[simp] theorem State.setSched_hls (s : State) x : (s.setSched x).hls = s.hls := rfl
@[simp] theorem State.setSched_stc (s : State) x : (s.setSched x).stc = s.stc := rfl
@[simp] theorem State.setSched_mpt (s : State) x : (s.setSched x).mpt = s.mpt := rfl
@[simp] theorem State.setSched_sched (s : State) x : (s.setSched x).sched = x := rfl
@[simp] theorem State.setSched_pending (s : State) x : (s.setSched x).pending = s.pending := rfl
@[simp] theorem State.setSched_self (s : State) : s.setSched s.sched = s := rfl
@[simp] theorem State.setSched_setSched (s : State) x y : (s.setSched x).setSched y = s.setSched y := rfl

/-! ### State.setPending -/

@[simp] theorem State.setPending_powered (s : State) x : (s.setPending x).powered = s.powered := rfl
@[simp] theorem State.setPending_now (s : State) x : (s.setPending x).now = s.now := rfl
@[simp] theorem State.setPending_sbc (s : State) x : (s.setPending x).sbc = s.sbc := rfl
@[simp] theorem State.setPending_pos (s : State) x : (s.setPending x).pos = s.pos := rfl
@[simp] theorem State.setPending_wge (s : State) x : (s.setPending x).wge = s.wge := rfl
@[simp] theorem State.setPending_tlu (s : State) x : (s.setPending x).tlu = s.tlu := rfl
@[simp] theorem State.setPending_cpm (s : State) x : (s.setPending x).cpm = s.cpm := rfl
@[simp] theorem State.setPending_wt (s : State) x : (s.setPending x).wt = s.wt := rfl
@[simp] theorem State.setPending_hls (s : State) x : (s.setPending x).hls = s.hls := rfl
@[simp] theorem State.setPending_stc (s : State) x : (s.setPending x).stc = s.stc := rfl
@[simp] theorem State.setPending_mpt (s : State) x : (s.setPending x).mpt = s.mpt := rfl
@[simp] theorem State.setPending_sched (s : State) x : (s.setPending x).sched = s.sched := rfl
@[simp] theorem State.setPending_pending (s : State) x : (s.setPending x).pending = x := rfl
@[simp] theorem State.setPending_self (s : State) : s.setPending s.pending = s := rfl
@[simp] theorem State.setPending_setPending (s : State) x y : (s.setPending x).setPending y = s.setPending y := rfl

/-! ### The working settings -/

@[simp] theorem State.setCfg_powered (s : State) c : (s.setCfg c).powered = s.powered := rfl
@[simp] theorem State.setCfg_now (s : State) c : (s.setCfg c).now = s.now := rfl
@[simp] theorem State.setCfg_sbc (s : State) c : (s.setCfg c).sbc = s.sbc := rfl
@[simp] theorem State.setCfg_pos (s : State) c : (s.setCfg c).pos = s.pos := rfl
@[simp] theorem State.setCfg_wge (s : State) c : (s.setCfg c).wge = s.wge := rfl
@[simp] theorem State.setCfg_tlu (s : State) c : (s.setCfg c).tlu = s.tlu := rfl
@[simp] theorem State.setCfg_cpm (s : State) c : (s.setCfg c).cpm = s.cpm := rfl
@[simp] theorem State.setCfg_wt (s : State) c : (s.setCfg c).wt = s.wt := rfl
@[simp] theorem State.setCfg_hls (s : State) c : (s.setCfg c).hls = s.hls := rfl
@[simp] theorem State.setCfg_mpt (s : State) c : (s.setCfg c).mpt = s.mpt := rfl
@[simp] theorem State.setCfg_sched (s : State) c : (s.setCfg c).sched = s.sched := rfl
@[simp] theorem State.setCfg_pending (s : State) c : (s.setCfg c).pending = s.pending := rfl
@[simp] theorem State.setCfg_stc (s : State) c : (s.setCfg c).stc = { s.stc with settings := c } := rfl
@[simp] theorem State.setCfg_cfg (s : State) c : (s.setCfg c).cfg = c := rfl
@[simp] theorem State.setPowered_cfg (s : State) x : (s.setPowered x).cfg = s.cfg := rfl
@[simp] theorem State.setNow_cfg (s : State) x : (s.setNow x).cfg = s.cfg := rfl
@[simp] theorem State.setSbc_cfg (s : State) x : (s.setSbc x).cfg = s.cfg := rfl
@[simp] theorem State.setPos_cfg (s : State) x : (s.setPos x).cfg = s.cfg := rfl
@[simp] theorem State.setWge_cfg (s : State) x : (s.setWge x).cfg = s.cfg := rfl
@[simp] theorem State.setTlu_cfg (s : State) x : (s.setTlu x).cfg = s.cfg := rfl
@[simp] theorem State.setCpm_cfg (s : State) x : (s.setCpm x).cfg = s.cfg := rfl
@[simp] theorem State.setWt_cfg (s : State) x : (s.setWt x).cfg = s.cfg := rfl
@[simp] theorem State.setHls_cfg (s : State) x : (s.setHls x).cfg = s.cfg := rfl
@[simp] theorem State.setMpt_cfg (s : State) x : (s.setMpt x).cfg = s.cfg := rfl
@[simp] theorem State.setSched_cfg (s : State) x : (s.setSched x).cfg = s.cfg := rfl
@[simp] theorem State.setPending_cfg (s : State) x : (s.setPending x).cfg = s.cfg := rfl
@[simp] theorem State.setStc_cfg (s : State) x : (s.setStc x).cfg = x.settings := rfl

/-! ### The ports -/

@[simp] theorem Mpt.port_setPort_same (m : Mpt) (p : Port) (q : PortState) : (m.setPort p q).port p = q := by
  cases p <;> rfl
theorem Mpt.port_setPort_other (m : Mpt) {p r : Port} (q : PortState) (h : r ≠ p) : (m.setPort p q).port r = m.port r := by
  cases p <;> cases r <;> first | rfl | exact absurd rfl h
@[simp] theorem Mpt.setPort_slots (m : Mpt) (p : Port) (q : PortState) : (m.setPort p q).slots = m.slots := by
  cases p <;> rfl
@[simp] theorem Mpt.setPort_setPort (m : Mpt) (p : Port) (q r : PortState) : (m.setPort p q).setPort p r = m.setPort p r := by
  cases p <;> rfl
@[simp] theorem Mpt.setPort_self (m : Mpt) (p : Port) : m.setPort p (m.port p) = m := by
  cases p <;> rfl
@[simp] theorem State.port_setPort_same (s : State) (p : Port) (q : PortState) : (s.setPort p q).port p = q := by
  cases p <;> rfl
theorem State.port_setPort_other (s : State) {p r : Port} (q : PortState) (h : r ≠ p) : (s.setPort p q).port r = s.port r := by
  cases p <;> cases r <;> first | rfl | exact absurd rfl h
@[simp] theorem State.setPort_setPort (s : State) (p : Port) (q r : PortState) : (s.setPort p q).setPort p r = s.setPort p r := by
  cases p <;> rfl
@[simp] theorem State.setPort_slots (s : State) (p : Port) (q : PortState) : (s.setPort p q).mpt.slots = s.mpt.slots := by
  cases p <;> rfl
@[simp] theorem State.setPort_cfg (s : State) (p : Port) (q : PortState) : (s.setPort p q).cfg = s.cfg := rfl
@[simp] theorem State.setPort_powered (s : State) p q : (s.setPort p q).powered = s.powered := rfl
@[simp] theorem State.setPort_now (s : State) p q : (s.setPort p q).now = s.now := rfl
@[simp] theorem State.setPort_sbc (s : State) p q : (s.setPort p q).sbc = s.sbc := rfl
@[simp] theorem State.setPort_pos (s : State) p q : (s.setPort p q).pos = s.pos := rfl
@[simp] theorem State.setPort_wge (s : State) p q : (s.setPort p q).wge = s.wge := rfl
@[simp] theorem State.setPort_tlu (s : State) p q : (s.setPort p q).tlu = s.tlu := rfl
@[simp] theorem State.setPort_cpm (s : State) p q : (s.setPort p q).cpm = s.cpm := rfl
@[simp] theorem State.setPort_wt (s : State) p q : (s.setPort p q).wt = s.wt := rfl
@[simp] theorem State.setPort_hls (s : State) p q : (s.setPort p q).hls = s.hls := rfl
@[simp] theorem State.setPort_stc (s : State) p q : (s.setPort p q).stc = s.stc := rfl
@[simp] theorem State.setPort_sched (s : State) p q : (s.setPort p q).sched = s.sched := rfl
@[simp] theorem State.setPort_pending (s : State) p q : (s.setPort p q).pending = s.pending := rfl
@[simp] theorem State.setPowered_port (s : State) x p : (s.setPowered x).port p = s.port p := rfl
@[simp] theorem State.setNow_port (s : State) x p : (s.setNow x).port p = s.port p := rfl
@[simp] theorem State.setSbc_port (s : State) x p : (s.setSbc x).port p = s.port p := rfl
@[simp] theorem State.setPos_port (s : State) x p : (s.setPos x).port p = s.port p := rfl
@[simp] theorem State.setWge_port (s : State) x p : (s.setWge x).port p = s.port p := rfl
@[simp] theorem State.setTlu_port (s : State) x p : (s.setTlu x).port p = s.port p := rfl
@[simp] theorem State.setCpm_port (s : State) x p : (s.setCpm x).port p = s.port p := rfl
@[simp] theorem State.setWt_port (s : State) x p : (s.setWt x).port p = s.port p := rfl
@[simp] theorem State.setHls_port (s : State) x p : (s.setHls x).port p = s.port p := rfl
@[simp] theorem State.setStc_port (s : State) x p : (s.setStc x).port p = s.port p := rfl
@[simp] theorem State.setSched_port (s : State) x p : (s.setSched x).port p = s.port p := rfl
@[simp] theorem State.setPending_port (s : State) x p : (s.setPending x).port p = s.port p := rfl
@[simp] theorem State.setMpt_port (s : State) x p : (s.setMpt x).port p = x.port p := rfl

end Sys2Proof.Machine
end

