-- ==== Sys2Proof/Laws/HandedOn.lean ====
section
/-! SUPPORT. What the hand-overs between blocks can change: reports on the queues, the peak of a lift in progress, CPM, WT, and
the CAP and WATCH masks. `HandedOn` says it once; every shared operation made of hand-overs has one lemma. -/

namespace Sys2Proof.Machine

/-! ### What stays -/

/-- A port as a queued report leaves it: its queue and its gap flag aside. -/
def PortState.besideQueue (q : PortState) : PortState := { q with queue := [], gap := false }

/-- A lift as an evaluation leaves it: its peak aside. -/
def Lift.besidePeak (l : Lift) : Lift := { l with peakU := 0 }

/-- WGE as an evaluation leaves it: the peak of its lift aside. -/
def Wge.besidePeak (w : Wge) : Wge := { w with lift := w.lift.map Lift.besidePeak }

/-- The hold lines as hand-overs leave them: the CAP and WATCH masks aside. -/
def Hls.besideMasks (h : Hls) : Hls :=
  { h with masks := { h.masks with cap := 0#6, watch := Vector.replicate 8 0#6 } }

/-- All that a hand-over leaves as it was. -/
structure HandedOn (s t : State) : Prop where
  powered : t.powered = s.powered
  now : t.now = s.now
  sbc : t.sbc = s.sbc
  pos : t.pos = s.pos
  tlu : t.tlu = s.tlu
  stc : t.stc = s.stc
  pending : t.pending = s.pending
  wge : t.wge.besidePeak = s.wge.besidePeak
  hls : t.hls.besideMasks = s.hls.besideMasks
  slots : t.mpt.slots = s.mpt.slots
  ports : ∀ p, (t.port p).besideQueue = (s.port p).besideQueue

theorem HandedOn.refl (s : State) : HandedOn s s := by constructor <;> intros <;> rfl

theorem HandedOn.trans {s t u : State} (h : HandedOn s t) (k : HandedOn t u) : HandedOn s u where
  powered := k.powered.trans h.powered
  now := k.now.trans h.now
  sbc := k.sbc.trans h.sbc
  pos := k.pos.trans h.pos
  tlu := k.tlu.trans h.tlu
  stc := k.stc.trans h.stc
  pending := k.pending.trans h.pending
  wge := k.wge.trans h.wge
  hls := k.hls.trans h.hls
  slots := k.slots.trans h.slots
  ports := fun p => (k.ports p).trans (h.ports p)

/-! ### Its readings -/

section readings
variable {s t : State} (h : HandedOn s t)
include h

theorem HandedOn.cfg : t.cfg = s.cfg := by simp [State.cfg, h.stc]
theorem HandedOn.z : t.wge.z = s.wge.z := by simpa [Wge.besidePeak] using congrArg Wge.z h.wge
theorem HandedOn.span : t.wge.span = s.wge.span := by simpa [Wge.besidePeak] using congrArg Wge.span h.wge
theorem HandedOn.zeroSuspect : t.wge.zeroSuspect = s.wge.zeroSuspect := by
  simpa [Wge.besidePeak] using congrArg Wge.zeroSuspect h.wge
theorem HandedOn.prev : t.wge.prev = s.wge.prev := by simpa [Wge.besidePeak] using congrArg Wge.prev h.wge
theorem HandedOn.live : t.wge.live = s.wge.live := by simpa [Wge.besidePeak] using congrArg Wge.live h.wge
theorem HandedOn.liveVal : t.wge.liveVal = s.wge.liveVal := by simpa [Wge.besidePeak] using congrArg Wge.liveVal h.wge
theorem HandedOn.az : t.wge.az = s.wge.az := by simpa [Wge.besidePeak] using congrArg Wge.az h.wge
theorem HandedOn.tare : t.wge.tare = s.wge.tare := by simpa [Wge.besidePeak] using congrArg Wge.tare h.wge
theorem HandedOn.cal : t.wge.cal = s.wge.cal := by simpa [Wge.besidePeak] using congrArg Wge.cal h.wge
theorem HandedOn.lift : t.wge.lift.map Lift.besidePeak = s.wge.lift.map Lift.besidePeak := by
  simpa [Wge.besidePeak] using congrArg Wge.lift h.wge
theorem HandedOn.senses : t.hls.sense = s.hls.sense := by simpa [Hls.besideMasks] using congrArg Hls.sense h.hls
theorem HandedOn.senseTimer : t.hls.senseTimer = s.hls.senseTimer := by
  simpa [Hls.besideMasks] using congrArg Hls.senseTimer h.hls
theorem HandedOn.stateMask : t.hls.masks.state = s.hls.masks.state := by
  simpa [Hls.besideMasks] using congrArg (fun x => x.masks.state) h.hls
theorem HandedOn.faultMask : t.hls.masks.fault = s.hls.masks.fault := by
  simpa [Hls.besideMasks] using congrArg (fun x => x.masks.fault) h.hls
theorem HandedOn.manualMask : t.hls.masks.manual = s.hls.masks.manual := by
  simpa [Hls.besideMasks] using congrArg (fun x => x.masks.manual) h.hls

/-- A lift in progress stays one, of the same stage. -/
theorem HandedOn.liftState : t.wge.liftState = s.wge.liftState := by
  have e := h.lift
  unfold Wge.liftState
  cases ht : t.wge.lift <;> cases hs : s.wge.lift <;> simp [ht, hs, Lift.besidePeak] at e ⊢
  exact congrArg Stage.state e.1

theorem HandedOn.rx (p : Port) : (t.port p).rx = (s.port p).rx := by
  simpa [PortState.besideQueue] using congrArg PortState.rx (h.ports p)
theorem HandedOn.held (p : Port) : (t.port p).held = (s.port p).held := by
  simpa [PortState.besideQueue] using congrArg PortState.held (h.ports p)
theorem HandedOn.reply (p : Port) : (t.port p).reply = (s.port p).reply := by
  simpa [PortState.besideQueue] using congrArg PortState.reply (h.ports p)
theorem HandedOn.tx (p : Port) : (t.port p).tx = (s.port p).tx := by
  simpa [PortState.besideQueue] using congrArg PortState.tx (h.ports p)
theorem HandedOn.enable (p : Port) : (t.port p).enable = (s.port p).enable := by
  simpa [PortState.besideQueue] using congrArg PortState.enable (h.ports p)
theorem HandedOn.breakOn (p : Port) : (t.port p).breakOn = (s.port p).breakOn := by
  simpa [PortState.besideQueue] using congrArg PortState.breakOn (h.ports p)

end readings

/-! ### Hand-overs in an open order -/

theorem State.pick_eq (s : State) (n : Nat) : ∃ i l, s.pick n = (i, s.setSched l) ∧ (0 < n → i < n) := by
  unfold State.pick
  cases h : s.sched with
  | nil => exact ⟨0, s.sched, by simp, id⟩
  | cons k rest => exact ⟨k % n, rest, rfl, fun hn => Nat.mod_lt _ hn⟩

/-- Whatever a list of hand-overs is run in, a relation that each of them keeps, and that the schedule has no part in, holds
from before to after. -/
theorem runAny_rel (R : State → State → Prop) (refl : ∀ s, R s s) (trans : ∀ s t u, R s t → R t u → R s u)
    (sched : ∀ s l, R s (s.setSched l)) {fs : List (State → State)} (each : ∀ f ∈ fs, ∀ s, R s (f s)) (s : State) :
    R s (runAny fs s) := by
  suffices h : ∀ k (fs : List (State → State)), (∀ f ∈ fs, ∀ s, R s (f s)) → ∀ s, R s (runAnyFuel k fs s) from h _ fs each s
  intro k
  induction k with
  | zero => intro fs _ s; exact refl s
  | succ k ih =>
    intro fs each s
    match fs with
    | [] => exact refl s
    | [f] => exact each f (by simp) s
    | f :: g :: fs =>
      obtain ⟨i, l, hp, hi⟩ := s.pick_eq (f :: g :: fs).length
      have hi := hi (by simp)
      simp only [runAnyFuel, hp]
      refine trans _ _ _ (sched s l) (trans _ _ _ ?_ (ih _ ?_ _))
      · rw [List.getD_eq_getElem _ _ hi]; exact each _ (List.getElem_mem hi) _
      · intro x hx; exact each x (List.mem_of_mem_eraseIdx hx)

/-- A property that every hand-over keeps holds after them all. -/
theorem runAny_keeps (P : State → Prop) (sched : ∀ s l, P s → P (s.setSched l)) {fs : List (State → State)}
    (each : ∀ f ∈ fs, ∀ s, P s → P (f s)) {s : State} (h : P s) : P (runAny fs s) :=
  runAny_rel (fun s t => P s → P t) (fun _ h => h) (fun _ _ _ h k p => k (h p)) (fun s l => sched s l)
    (fun f hf s => each f hf s) s h

/-- A property that one hand-over brings about and every other keeps holds after them all. -/
theorem runAny_brings (P : State → Prop) (sched : ∀ s l, P s → P (s.setSched l)) {fs : List (State → State)}
    (keeps : ∀ f ∈ fs, ∀ s, P s → P (f s)) (brings : ∃ f ∈ fs, ∀ s, P (f s)) (s : State) : P (runAny fs s) := by
  suffices h : ∀ k (fs : List (State → State)), fs.length ≤ k → (∀ f ∈ fs, ∀ s, P s → P (f s)) →
      (∃ f ∈ fs, ∀ s, P (f s)) → ∀ s, P (runAnyFuel k fs s) from h _ fs (Nat.le_refl _) keeps brings s
  have done : ∀ k (fs : List (State → State)), (∀ f ∈ fs, ∀ s, P s → P (f s)) → ∀ s, P s → P (runAnyFuel k fs s) := by
    intro k
    induction k with
    | zero => intro fs _ s h; exact h
    | succ k ih =>
      intro fs keeps s h
      match fs with
      | [] => exact h
      | [f] => exact keeps f (by simp) s h
      | f :: g :: fs =>
        obtain ⟨i, l, hp, hi⟩ := s.pick_eq (f :: g :: fs).length
        have hi := hi (by simp)
        simp only [runAnyFuel, hp]
        refine ih _ (fun x hx => keeps x (List.mem_of_mem_eraseIdx hx)) _ ?_
        rw [List.getD_eq_getElem _ _ hi]
        exact keeps _ (List.getElem_mem hi) _ (sched _ _ h)
  intro k
  induction k with
  | zero => intro fs hl _ hb; obtain ⟨f, hf, _⟩ := hb; cases fs <;> simp at hl hf
  | succ k ih =>
    intro fs hl keeps hb s
    match fs with
    | [] => obtain ⟨f, hf, _⟩ := hb; simp at hf
    | [f] => obtain ⟨f', hf, hp⟩ := hb; simp at hf; subst hf; exact hp s
    | f :: g :: fs =>
      obtain ⟨i, l, hp, hi⟩ := s.pick_eq (f :: g :: fs).length
      have hi := hi (by simp)
      simp only [runAnyFuel, hp]
      obtain ⟨f', hf, hb⟩ := hb
      obtain ⟨j, hj, rfl⟩ := List.getElem_of_mem hf
      have keeps' : ∀ x ∈ (f :: g :: fs).eraseIdx i, ∀ s, P s → P (x s) := fun x hx => keeps x (List.mem_of_mem_eraseIdx hx)
      by_cases e : j = i
      · subst e
        refine done _ _ keeps' _ ?_
        rw [List.getD_eq_getElem _ _ hi]; exact hb _
      · refine ih _ ?_ keeps' ⟨_, ?_, hb⟩ _
        · rw [List.length_eraseIdx_of_lt hi]; simp at hl ⊢; omega
        · exact List.mem_eraseIdx_iff_getElem.2 ⟨j, hj, e, rfl⟩

theorem HandedOn.setSched (s : State) (l : List Nat) : HandedOn s (s.setSched l) := by constructor <;> intros <;> rfl

/-- Hand-overs taken in any order are a hand-over. -/
theorem runAny_handedOn {fs : List (State → State)} (each : ∀ f ∈ fs, ∀ s, HandedOn s (f s)) (s : State) :
    HandedOn s (runAny fs s) :=
  runAny_rel HandedOn .refl (fun _ _ _ => .trans) .setSched each s

/-- A fold of hand-overs is a hand-over. -/
theorem foldl_handedOn {α : Type} (f : State → α → State) (each : ∀ s a, HandedOn s (f s a)) (l : List α) (s : State) :
    HandedOn s (l.foldl f s) := by
  induction l generalizing s with
  | nil => exact .refl s
  | cons a l ih => exact (each s a).trans (ih _)

/-! ### Reports and presentations -/

@[simp] theorem PortState.queueReport_besideQueue (q : PortState) (r : Report) (body : List Byte) :
    (q.queueReport r body).besideQueue = q.besideQueue := by
  unfold PortState.queueReport; split <;> [split; skip] <;> rfl

theorem queueReport_handedOn (s : State) (r : Report) (body : List Byte) : HandedOn s (s.queueReport r body) := by
  constructor <;> intros <;> try rfl
  rename_i p; cases p <;> simp [State.queueReport, State.setMpt, Mpt.queueReport, State.port, Mpt.port]

theorem queueAll_handedOn (s : State) (r : Report) (bodies : List (List Byte)) : HandedOn s (s.queueAll r bodies) :=
  foldl_handedOn _ (fun s b => queueReport_handedOn s r b) bodies s

/-- A report changes the queues of the ports and nothing else. -/
theorem queueReport_rest (s : State) (r : Report) (body : List Byte) :
    s.queueReport r body = s.setMpt (s.mpt.queueReport r body) := rfl

theorem queueAll_rest (s : State) (r : Report) (bodies : List (List Byte)) :
    ∃ m, s.queueAll r bodies = s.setMpt m ∧ m.slots = s.mpt.slots := by
  unfold State.queueAll
  induction bodies generalizing s with
  | nil => exact ⟨s.mpt, rfl, rfl⟩
  | cons b l ih =>
    obtain ⟨m, h, e⟩ := ih (s.queueReport r b)
    exact ⟨m, by simpa [State.queueReport] using h, by simpa [State.queueReport, Mpt.queueReport] using e⟩

/-- All a presentation does: the source's mask is replaced whole, and reports may be queued (R178, R184). -/
theorem present_rest (src : HoldSource) (mask : LineMask) (s : State) :
    ∃ m, present src mask s = (s.setHls { s.hls with masks := s.hls.masks.put src mask }).setMpt m ∧ m.slots = s.mpt.slots :=
  queueAll_rest _ _ _

theorem present_cap_handedOn (mask : LineMask) (s : State) : HandedOn s (present .cap mask s) :=
  .trans (by constructor <;> intros <;> rfl) (queueAll_handedOn _ _ _)

theorem present_watch_handedOn (k : Fin 8) (mask : LineMask) (s : State) : HandedOn s (present (.watch k) mask s) :=
  .trans (by constructor <;> intros <;> rfl) (queueAll_handedOn _ _ _)

@[simp] theorem HoldMasks.get_put_same (m : HoldMasks) (src : HoldSource) (mask : LineMask) :
    (m.put src mask).get src = mask := by
  cases src <;> simp [HoldMasks.put, HoldMasks.get]

theorem HoldMasks.get_put_other (m : HoldMasks) {src other : HoldSource} (mask : LineMask) (h : other ≠ src) :
    (m.put src mask).get other = m.get other := by
  cases src <;> cases other <;> simp [HoldMasks.put, HoldMasks.get] at h ⊢
  rename_i k j
  exact Vector.getElem_set_ne _ _ (fun e => h (Fin.ext e.symm))

/-- What each source asks for after a presentation (R178). -/
theorem present_get (src : HoldSource) (mask : LineMask) (s : State) (other : HoldSource) :
    (present src mask s).hls.masks.get other = if other = src then mask else s.hls.masks.get other := by
  obtain ⟨m, h, _⟩ := present_rest src mask s
  simp only [h, State.setMpt_hls, State.setHls_hls]
  split
  · subst_vars; simp
  · rename_i e; simp [HoldMasks.get_put_other _ _ e]

/-! ### The watch table's hand-overs -/

theorem setWt_handedOn (s : State) (w : Wt) : HandedOn s (s.setWt w) := by constructor <;> intros <;> rfl

theorem setCpm_handedOn (s : State) (c : Cpm) : HandedOn s (s.setCpm c) := by constructor <;> intros <;> rfl

theorem offerCapture_handedOn (k : Fin 8) (s : State) : HandedOn s (offerCapture k s) := by
  unfold offerCapture
  split
  · exact (setWt_handedOn _ _).trans (queueReport_handedOn _ _ _)
  · split
    · exact (setWt_handedOn _ _).trans (queueReport_handedOn _ _ _)
    · exact setWt_handedOn _ _

theorem fire_handedOn (ev : SourceEvent) (k : Fin 8) (p : Option (Fin 8)) (s : State) : HandedOn s (fire ev k p s) := by
  unfold fire
  split
  · exact (setWt_handedOn _ _).trans (queueReport_handedOn _ _ _)
  · exact (setWt_handedOn _ _).trans (offerCapture_handedOn _ _)
  · exact (setWt_handedOn _ _).trans (present_watch_handedOn _ _ _)

theorem withdraw_handedOn (k : Fin 8) (s : State) : HandedOn s (withdraw k s) := by
  unfold withdraw; split
  · exact present_watch_handedOn _ _ _
  · exact .refl s

theorem judgeEdge_handedOn (ev : SourceEvent) (k : Fin 8) (was : Bool) (s : State) : HandedOn s (judgeEdge ev k was s) := by
  unfold judgeEdge
  split
  · dsimp only
    split
    · exact (setWt_handedOn _ _).trans (fire_handedOn _ _ _ _)
    · split
      · exact (setWt_handedOn _ _).trans (withdraw_handedOn _ _)
      · exact setWt_handedOn _ _
  · dsimp only
    split
    · exact fire_handedOn _ _ _ _
    · split
      · exact withdraw_handedOn _ _
      · exact .refl s

theorem evalEntry_handedOn (ev : SourceEvent) (vals : Quantity → Option Marked) (s : State) (k : Fin 8) :
    HandedOn s (evalEntry ev vals s k) := by
  unfold evalEntry
  dsimp only
  split
  · split
    · exact .refl s
    · split
      · exact (setWt_handedOn _ _).trans (judgeEdge_handedOn _ _ _ _)
      · exact judgeEdge_handedOn _ _ _ _
  · exact .refl s

theorem watchEvaluate_handedOn (ev : SourceEvent) (vals : Quantity → Option Marked) (s : State) :
    HandedOn s (watchEvaluate ev vals s) := by
  unfold watchEvaluate
  split
  · exact foldl_handedOn _ (evalEntry_handedOn ev vals) _ _
  · exact .refl s

theorem wtLive_handedOn (m : Marked) (s : State) : HandedOn s (wtLive m s) :=
  (setWt_handedOn _ _).trans (watchEvaluate_handedOn _ _ _)

theorem wtPose_handedOn (p : Pose) (s : State) : HandedOn s (wtPose p s) :=
  (setWt_handedOn _ _).trans (watchEvaluate_handedOn _ _ _)

theorem wtUtil_handedOn (u : Marked) (s : State) : HandedOn s (wtUtil u s) :=
  (setWt_handedOn _ _).trans (watchEvaluate_handedOn _ _ _)

theorem wtBunk_handedOn (n : Nat) (s : State) : HandedOn s (wtBunk n s) := watchEvaluate_handedOn _ _ _

theorem resetLiftMass_handedOn (s : State) (k : Fin 8) : HandedOn s (resetLiftMass s k) := by
  unfold resetLiftMass
  dsimp only
  split
  · exact (setWt_handedOn _ _).trans (judgeEdge_handedOn _ _ _ _)
  · exact .refl s

theorem wtLift_handedOn (old new : LiftState) (tag mass : Option Nat) (s : State) : HandedOn s (wtLift old new tag mass s) := by
  unfold wtLift
  dsimp only
  have h : HandedOn s (if old = .open_ ∧ new = .gripped then
      (List.finRange 8).foldl resetLiftMass (s.setWt { s.wt with lift := new, tag := tag })
      else s.setWt { s.wt with lift := new, tag := tag }) := by
    split
    · exact (setWt_handedOn _ _).trans (foldl_handedOn _ resetLiftMass_handedOn _ _)
    · exact setWt_handedOn _ _
  split
  · exact h.trans (watchEvaluate_handedOn _ _ _)
  · exact h

theorem makeEntries_handedOn (locked : Vector (Option WatchDef) 8) (s : State) : HandedOn s (makeEntries locked s) :=
  (setWt_handedOn _ _).trans (foldl_handedOn _ (fun s k => present_watch_handedOn k 0#6 s) _ _)

theorem takeWatchWrite_handedOn (k : Fin 8) (d : WatchDef) (s : State) : HandedOn s (takeWatchWrite k d s) := by
  have h1 : HandedOn s (present (.watch k) 0#6 (s.setWt (s.wt.setEntry k (.of d)))) :=
    (setWt_handedOn _ _).trans (present_watch_handedOn _ _ _)
  unfold takeWatchWrite
  dsimp only
  split
  · split <;> split
    · exact h1.trans ((setWt_handedOn _ _).trans ((present_watch_handedOn _ _ _).trans (setWt_handedOn _ _)))
    · exact h1.trans (setWt_handedOn _ _)
    · exact h1.trans ((setWt_handedOn _ _).trans (present_watch_handedOn _ _ _))
    · exact h1
  · split
    · exact h1.trans (setWt_handedOn _ _)
    · exact h1

/-! ### The capacity monitor's hand-overs -/

theorem wgeUtil_handedOn (u : Nat) (s : State) : HandedOn s (wgeUtil u s) := by
  unfold wgeUtil
  split
  · split
    · exact .refl s
    · rename_i l hl _
      constructor <;> intros <;> try rfl
      simp [Wge.besidePeak, hl, Lift.besidePeak]
  · exact .refl s

theorem evalReports_handedOn (old new : Cpm) (s : State) : HandedOn s (evalReports old new s) := by
  unfold evalReports
  dsimp only
  split <;> split
  · exact (queueReport_handedOn _ _ _).trans (queueReport_handedOn _ _ _)
  · exact queueReport_handedOn _ _ _
  · exact queueReport_handedOn _ _ _
  · exact .refl s

theorem presentCap_handedOn (old new : Cpm) (s : State) : HandedOn s (presentCap old new s) := by
  unfold presentCap; split
  · exact present_cap_handedOn _ _
  · exact .refl s

theorem handOnEvaluation_handedOn (old new : Cpm) (s : State) : HandedOn s (handOnEvaluation old new s) := by
  refine runAny_handedOn (fun f hf => ?_) s
  simp only [List.mem_cons, List.not_mem_nil, or_false] at hf
  rcases hf with rfl | rfl | rfl | rfl
  · exact wgeUtil_handedOn _
  · exact wtUtil_handedOn _
  · exact evalReports_handedOn _ _
  · exact presentCap_handedOn _ _

/-- All that an evaluation can change outside CPM (R149). -/
theorem cpmEvaluate_handedOn (s : State) : HandedOn s (cpmEvaluate s) :=
  (setCpm_handedOn _ _).trans (handOnEvaluation_handedOn _ _ _)

theorem cpmTake_handedOn (change : Cpm → Cpm) (s : State) : HandedOn s (cpmTake change s) :=
  (setCpm_handedOn _ _).trans (cpmEvaluate_handedOn _)

theorem startPermit_handedOn (s : State) : HandedOn s (startPermit s) :=
  (setCpm_handedOn _ _).trans (presentCap_handedOn _ _ _)

theorem expirePermit_handedOn (s : State) : HandedOn s (expirePermit s) := by
  refine (setCpm_handedOn _ _).trans (runAny_handedOn (fun f hf => ?_) _)
  simp only [List.mem_cons, List.not_mem_nil, or_false] at hf
  rcases hf with rfl | rfl
  · exact fun s => queueReport_handedOn s _ _
  · exact presentCap_handedOn _ _

/-! ### CPM after an evaluation -/

/-- The hand-overs of an evaluation leave CPM alone. -/
theorem watchEvaluate_cpm (ev : SourceEvent) (vals : Quantity → Option Marked) (s : State) :
    (watchEvaluate ev vals s).cpm = s.cpm := by
  have fire_cpm : ∀ ev k p s, (fire ev k p s).cpm = s.cpm := by
    intro ev k p s
    unfold fire offerCapture
    split
    · rfl
    · dsimp only; split
      · rfl
      · split <;> rfl
    · obtain ⟨m, h, _⟩ := present_rest (.watch k) s.wt.entries[k].d.holdMask (s.setWt (s.wt.setHits k p)); simp only [h]; rfl
  have withdraw_cpm : ∀ k s, (withdraw k s).cpm = s.cpm := by
    intro k s
    unfold withdraw
    split
    · obtain ⟨m, h, _⟩ := present_rest (.watch k) 0#6 s; simp only [h]; rfl
    · rfl
  have edge : ∀ ev k was s, (judgeEdge ev k was s).cpm = s.cpm := by
    intro ev k was s
    unfold judgeEdge
    split <;> dsimp only <;> split <;> try split
    all_goals simp [fire_cpm, withdraw_cpm]
  have entry : ∀ s k, (evalEntry ev vals s k).cpm = s.cpm := by
    intro s k
    unfold evalEntry
    dsimp only
    split <;> [split; skip] <;> [skip; split; skip] <;> simp [edge]
  unfold watchEvaluate
  split
  · rename_i hm
    clear hm
    generalize List.finRange 8 = l
    induction l generalizing s with
    | nil => rfl
    | cons k l ih => exact (ih _).trans (entry s k)
  · rfl

/-- CPM after an evaluation is what R143 to R147 form of it. -/
theorem cpmEvaluate_cpm (s : State) : (cpmEvaluate s).cpm = s.cpm.evaluated s.cfg := by
  refine runAny_rel (fun s t => t.cpm = s.cpm) (fun _ => rfl) (fun _ _ _ h k => k.trans h) (fun _ _ => rfl)
    (fun f hf s => ?_) _
  simp only [List.mem_cons, List.not_mem_nil, or_false] at hf
  rcases hf with rfl | rfl | rfl | rfl
  · unfold wgeUtil; split <;> [split; skip] <;> rfl
  · exact watchEvaluate_cpm _ _ _
  · unfold evalReports; dsimp only; split <;> split <;> rfl
  · unfold presentCap; split
    · obtain ⟨m, h, _⟩ := present_rest .cap _ s
      rw [h]; rfl
    · rfl

end Sys2Proof.Machine
end

