-- ==== Sys2Proof/Laws/Delivered.lean ====
section
/-! SUPPORT. What the delivery of a sample, of a stale event, or of a completed lift can change: POS, WGE and TLU besides what
hand-overs change, and the slots of the works that end. `Delivered` says it once, for every delivery. -/

namespace Sys2Proof.Machine

/-- All that a delivery leaves as it was. -/
structure Delivered (s t : State) : Prop where
  powered : t.powered = s.powered
  now : t.now = s.now
  sbc : t.sbc = s.sbc
  stc : t.stc = s.stc
  pending : t.pending = s.pending
  hls : t.hls.besideMasks = s.hls.besideMasks
  ports : ∀ p, (t.port p).besideQueue = (s.port p).besideQueue

theorem HandedOn.delivered {s t : State} (h : HandedOn s t) : Delivered s t :=
  ⟨h.powered, h.now, h.sbc, h.stc, h.pending, h.hls, h.ports⟩

theorem Delivered.refl (s : State) : Delivered s s := (HandedOn.refl s).delivered

theorem Delivered.trans {s t u : State} (h : Delivered s t) (k : Delivered t u) : Delivered s u :=
  ⟨k.powered.trans h.powered, k.now.trans h.now, k.sbc.trans h.sbc, k.stc.trans h.stc, k.pending.trans h.pending,
    k.hls.trans h.hls, fun p => (k.ports p).trans (h.ports p)⟩

theorem Delivered.cfg {s t : State} (h : Delivered s t) : t.cfg = s.cfg := by simp [State.cfg, h.stc]

theorem runAny_delivered {fs : List (State → State)} (each : ∀ f ∈ fs, ∀ s, Delivered s (f s)) (s : State) :
    Delivered s (runAny fs s) :=
  runAny_rel Delivered .refl (fun _ _ _ => .trans) (fun s l => (HandedOn.setSched s l).delivered) each s

theorem setPos_delivered (s : State) (p : Pos) : Delivered s (s.setPos p) := by constructor <;> intros <;> rfl
theorem setWge_delivered (s : State) (w : Wge) : Delivered s (s.setWge w) := by constructor <;> intros <;> rfl
theorem setTlu_delivered (s : State) (t : Tlu) : Delivered s (s.setTlu t) := by constructor <;> intros <;> rfl

/-- A work's end changes the slots and nothing else (R215). -/
theorem finishWork_rest (s : State) (k : DelayedKind) (result : List Byte) :
    s.finishWork k result =
      s.setMpt { s.mpt with slots := s.mpt.slots.map (fun o => o.map (fun d => d.finish k result s.now)) } := rfl

@[simp] theorem finishWork_powered (s : State) k r : (s.finishWork k r).powered = s.powered := rfl
@[simp] theorem finishWork_now (s : State) k r : (s.finishWork k r).now = s.now := rfl
@[simp] theorem finishWork_sbc (s : State) k r : (s.finishWork k r).sbc = s.sbc := rfl
@[simp] theorem finishWork_pos (s : State) k r : (s.finishWork k r).pos = s.pos := rfl
@[simp] theorem finishWork_wge (s : State) k r : (s.finishWork k r).wge = s.wge := rfl
@[simp] theorem finishWork_tlu (s : State) k r : (s.finishWork k r).tlu = s.tlu := rfl
@[simp] theorem finishWork_cpm (s : State) k r : (s.finishWork k r).cpm = s.cpm := rfl
@[simp] theorem finishWork_wt (s : State) k r : (s.finishWork k r).wt = s.wt := rfl
@[simp] theorem finishWork_hls (s : State) k r : (s.finishWork k r).hls = s.hls := rfl
@[simp] theorem finishWork_stc (s : State) k r : (s.finishWork k r).stc = s.stc := rfl
@[simp] theorem finishWork_sched (s : State) k r : (s.finishWork k r).sched = s.sched := rfl
@[simp] theorem finishWork_pending (s : State) k r : (s.finishWork k r).pending = s.pending := rfl
@[simp] theorem finishWork_port (s : State) k r (p : Port) : (s.finishWork k r).port p = s.port p := by cases p <;> rfl

theorem finishWork_delivered (s : State) (k : DelayedKind) (result : List Byte) : Delivered s (s.finishWork k result) := by
  constructor <;> intros <;> simp

/-! ### The pose -/

/-- A pose update is a hand-over (R43, R149). -/
theorem poseUpdate_handedOn (s : State) : HandedOn s (poseUpdate s) := by
  refine runAny_handedOn (fun f hf => ?_) s
  simp only [List.mem_cons, List.not_mem_nil, or_false] at hf
  rcases hf with rfl | rfl
  · exact cpmTake_handedOn _
  · exact wtPose_handedOn _

/-- All a recomputation does: the pose record is formed, and the update handed on (R44). -/
theorem recompute_handedOn (s : State) :
    HandedOn (s.setPos { s.pos with pose := s.pos.formPose s.sbc s.cfg }) (recompute s) := poseUpdate_handedOn _

theorem recompute_delivered (s : State) : Delivered s (recompute s) :=
  (setPos_delivered _ _).trans (recompute_handedOn s).delivered

theorem poseArrival_handedOn (r : Role) (returning : Bool) (x : Sample) (s : State) :
    ∃ p, HandedOn (s.setPos p) (poseArrival r returning x s) :=
  ⟨_, recompute_handedOn (s.setPos (s.pos.takeSample r returning x))⟩

theorem poseStale_handedOn (r : Role) (s : State) : ∃ p, HandedOn (s.setPos p) (poseStale r s) :=
  ⟨_, recompute_handedOn (s.setPos (s.pos.takeStale r))⟩

/-! ### Works that end -/

/-- The end of a TARE leaves z and the span as they stand (R101). -/
theorem endTare_wge (c : WorkCode) (s : State) :
    (endTare c s).wge = if s.wge.tare.isSome then { s.wge with tare := none, az := .empty } else s.wge := by
  unfold endTare; split <;> simp [*]

/-- The end of a CAL_SPAN leaves z and the span as they stand (R106). -/
theorem endCal_wge (c : WorkCode) (s : State) : (endCal c s).wge = { s.wge with cal := none } := by
  unfold endCal
  cases h : s.wge.cal with
  | none => simp [← h]
  | some _ => simp

@[simp] theorem endTare_powered (c : WorkCode) (s : State) : (endTare c s).powered = s.powered := by unfold endTare; split <;> rfl
@[simp] theorem endTare_now (c : WorkCode) (s : State) : (endTare c s).now = s.now := by unfold endTare; split <;> rfl
@[simp] theorem endTare_sbc (c : WorkCode) (s : State) : (endTare c s).sbc = s.sbc := by unfold endTare; split <;> rfl
@[simp] theorem endTare_pos (c : WorkCode) (s : State) : (endTare c s).pos = s.pos := by unfold endTare; split <;> rfl
@[simp] theorem endTare_tlu (c : WorkCode) (s : State) : (endTare c s).tlu = s.tlu := by unfold endTare; split <;> rfl
@[simp] theorem endTare_cpm (c : WorkCode) (s : State) : (endTare c s).cpm = s.cpm := by unfold endTare; split <;> rfl
@[simp] theorem endTare_wt (c : WorkCode) (s : State) : (endTare c s).wt = s.wt := by unfold endTare; split <;> rfl
@[simp] theorem endTare_hls (c : WorkCode) (s : State) : (endTare c s).hls = s.hls := by unfold endTare; split <;> rfl
@[simp] theorem endTare_stc (c : WorkCode) (s : State) : (endTare c s).stc = s.stc := by unfold endTare; split <;> rfl
@[simp] theorem endTare_sched (c : WorkCode) (s : State) : (endTare c s).sched = s.sched := by unfold endTare; split <;> rfl
@[simp] theorem endTare_pending (c : WorkCode) (s : State) : (endTare c s).pending = s.pending := by unfold endTare; split <;> rfl
@[simp] theorem endTare_port (c : WorkCode) (s : State) (p : Port) : (endTare c s).port p = s.port p := by
  unfold endTare; split <;> simp

@[simp] theorem endCal_powered (c : WorkCode) (s : State) : (endCal c s).powered = s.powered := by unfold endCal; split <;> rfl
@[simp] theorem endCal_now (c : WorkCode) (s : State) : (endCal c s).now = s.now := by unfold endCal; split <;> rfl
@[simp] theorem endCal_sbc (c : WorkCode) (s : State) : (endCal c s).sbc = s.sbc := by unfold endCal; split <;> rfl
@[simp] theorem endCal_pos (c : WorkCode) (s : State) : (endCal c s).pos = s.pos := by unfold endCal; split <;> rfl
@[simp] theorem endCal_tlu (c : WorkCode) (s : State) : (endCal c s).tlu = s.tlu := by unfold endCal; split <;> rfl
@[simp] theorem endCal_cpm (c : WorkCode) (s : State) : (endCal c s).cpm = s.cpm := by unfold endCal; split <;> rfl
@[simp] theorem endCal_wt (c : WorkCode) (s : State) : (endCal c s).wt = s.wt := by unfold endCal; split <;> rfl
@[simp] theorem endCal_hls (c : WorkCode) (s : State) : (endCal c s).hls = s.hls := by unfold endCal; split <;> rfl
@[simp] theorem endCal_stc (c : WorkCode) (s : State) : (endCal c s).stc = s.stc := by unfold endCal; split <;> rfl
@[simp] theorem endCal_sched (c : WorkCode) (s : State) : (endCal c s).sched = s.sched := by unfold endCal; split <;> rfl
@[simp] theorem endCal_pending (c : WorkCode) (s : State) : (endCal c s).pending = s.pending := by unfold endCal; split <;> rfl
@[simp] theorem endCal_port (c : WorkCode) (s : State) (p : Port) : (endCal c s).port p = s.port p := by
  unfold endCal; split <;> simp

theorem endTare_delivered (c : WorkCode) (s : State) : Delivered s (endTare c s) := by
  unfold endTare; split
  · exact (setWge_delivered _ _).trans (finishWork_delivered _ _ _)
  · exact .refl s

theorem endCal_delivered (c : WorkCode) (s : State) : Delivered s (endCal c s) := by
  unfold endCal; split
  · exact (setWge_delivered _ _).trans (finishWork_delivered _ _ _)
  · exact .refl s

/-! ### LINK and GRIP -/

theorem liveHandOvers_handedOn (m : Marked) : ∀ f ∈ liveHandOvers m, ∀ s, HandedOn s (f s) := by
  intro f hf
  simp only [liveHandOvers, List.mem_cons, List.not_mem_nil, or_false] at hf
  rcases hf with rfl | rfl
  · exact cpmTake_handedOn _
  · exact wtLive_handedOn _

theorem liftHandOvers_handedOn (old new : LiftState) (tag mass : Option Nat) :
    ∀ f ∈ liftHandOvers old new tag mass, ∀ s, HandedOn s (f s) := by
  intro f hf
  unfold liftHandOvers at hf
  split at hf
  · simp at hf
  · simp only [List.mem_cons, List.not_mem_nil, or_false] at hf
    rcases hf with rfl | rfl
    · exact cpmTake_handedOn _
    · exact wtLift_handedOn _ _ _ _

theorem tareStep_delivered (cfg : Settings) (prev : Option Int) (c : Int) (x : Mass) (s : State) :
    Delivered s (tareStep cfg prev c x s) := by
  unfold tareStep; split
  · split
    · exact (setWge_delivered _ _).trans (finishWork_delivered _ _ _)
    · exact setWge_delivered _ _
  · exact .refl s

theorem calStep_delivered (cfg : Settings) (pose : Pose) (prev : Option Int) (c : Int) (x : Mass) (s : State) :
    Delivered s (calStep cfg pose prev c x s) := by
  unfold calStep; split
  · split
    · exact (setWge_delivered _ _).trans (finishWork_delivered _ _ _)
    · exact setWge_delivered _ _
  · exact .refl s

theorem workSample_delivered (cfg : Settings) (pose : Pose) (prev : Option Int) (c : Int) (x : Mass) (s : State) :
    Delivered s (workSample cfg pose prev c x s) := (tareStep_delivered _ _ _ _ _).trans (calStep_delivered _ _ _ _ _ _)

theorem dropEndsCal_delivered (before : LiftState) (s : State) : Delivered s (dropEndsCal before s) := by
  unfold dropEndsCal; split
  · exact endCal_delivered _ _
  · exact .refl s

theorem linkWork_delivered (c : Int) (o : Bool) (s : State) : Delivered s (linkWork c o s) := by
  unfold linkWork
  exact ((setWge_delivered _ _).trans (dropEndsCal_delivered _ _)).trans
    ((workSample_delivered _ _ _ _ _ _).trans (setWge_delivered _ _))

/-- All that a LINK arrival hands on, beside WGE's own work (R61). -/
theorem linkArrival_handedOn (c : Int) (o : Bool) (s : State) : HandedOn (linkWork c o s) (linkArrival c o s) := by
  refine runAny_handedOn (fun f hf => ?_) _
  rcases List.mem_append.1 hf with h | h
  · exact liftHandOvers_handedOn _ _ _ _ f h
  · exact liveHandOvers_handedOn _ f h

theorem linkArrival_delivered (c : Int) (o : Bool) (s : State) : Delivered s (linkArrival c o s) :=
  (linkWork_delivered c o s).trans (linkArrival_handedOn c o s).delivered

theorem linkStale_delivered (s : State) : Delivered s (linkStale s) := by
  unfold linkStale
  exact (setWge_delivered _ _).trans ((endTare_delivered _ _).trans ((endCal_delivered _ _).trans
    (runAny_handedOn (liveHandOvers_handedOn _) _).delivered))

theorem closeGrapple_delivered (s : State) : Delivered s (closeGrapple s) := by
  unfold closeGrapple
  exact (setWge_delivered _ _).trans ((endTare_delivered _ _).trans
    (runAny_handedOn (liftHandOvers_handedOn _ _ _ _) _).delivered)

theorem openUnlifted_delivered (s : State) : Delivered s (openUnlifted s) :=
  (setWge_delivered _ _).trans (runAny_handedOn (liftHandOvers_handedOn _ _ _ _) _).delivered

theorem reportTripClosed_handedOn (t : Trip) (s : State) : HandedOn s (reportTripClosed t s) := by
  unfold reportTripClosed
  dsimp only
  split
  · exact (queueReport_handedOn _ _ _).trans (queueReport_handedOn _ _ _)
  · exact queueReport_handedOn _ _ _

theorem handBunkTotal_handedOn (n : Nat) (s : State) : HandedOn s (handBunkTotal n s) := by
  unfold handBunkTotal; split
  · exact wtBunk_handedOn _ _
  · exact .refl s

/-- All that a completed lift changes outside TLU is by hand-overs (R114). -/
theorem takeCompletedLift_handedOn (c : CompletedLift) (s : State) :
    HandedOn (s.setTlu (s.tlu.handOver c).tlu) (takeCompletedLift c s) := by
  unfold takeCompletedLift
  dsimp only
  refine (queueReport_handedOn _ .liftDone (liftRecordBytes (s.tlu.handOver c).record)).trans (.trans ?_
    (handBunkTotal_handedOn _ _))
  split
  · exact reportTripClosed_handedOn _ _
  · exact .refl _

theorem release_delivered (l : Lift) (s : State) : Delivered s (release l s) := by
  unfold release
  exact (setWge_delivered _ _).trans ((endCal_delivered _ _).trans ((setTlu_delivered _ _).trans
    ((takeCompletedLift_handedOn _ _).delivered.trans (runAny_handedOn (liftHandOvers_handedOn _ _ _ _) _).delivered)))

theorem gripArrival_delivered (closed : Bool) (s : State) : Delivered s (gripArrival closed s) := by
  unfold gripArrival
  split
  · exact closeGrapple_delivered s
  · exact .refl s
  · exact .refl s
  · split
    · exact openUnlifted_delivered s
    · exact release_delivered _ s

/-! ### All deliveries -/

/-- The emptying before a sample that starts afresh, of any role (R54, R60). -/
theorem startAfresh_delivered (r : Role) (s : State) : Delivered s (startAfresh r s) := by
  cases r
  case link => exact setWge_delivered _ _
  case slew => exact setPos_delivered _ _
  case main => exact setPos_delivered _ _
  all_goals exact .refl s

/-- A sample's delivery, of any role (R27). -/
theorem deliverSample_delivered (r : Role) (returning : Bool) (x : Sample) (s : State) :
    Delivered s (deliverSample r returning x s) := by
  cases r
  case link => exact linkArrival_delivered _ _ _
  case grip => exact gripArrival_delivered _ _
  all_goals exact (setPos_delivered _ _).trans (recompute_delivered _)

/-- A stale event's delivery, of any role (R28). -/
theorem deliverStale_delivered (r : Role) (s : State) : Delivered s (deliverStale r s) := by
  cases r
  case link => exact linkStale_delivered _
  case grip => exact .refl s
  all_goals exact (setPos_delivered _ _).trans (recompute_delivered _)

/-- A stale event changes nothing of the tally, nor zero, span and lift state (R60, R77). -/
theorem deliverStale_keeps (r : Role) (s : State) :
    let t := deliverStale r s
    t.tlu = s.tlu ∧ t.wge.z = s.wge.z ∧ t.wge.span = s.wge.span ∧ t.wge.liftState = s.wge.liftState := by
  have pose : ∀ r, let t := poseStale r s
      t.tlu = s.tlu ∧ t.wge.z = s.wge.z ∧ t.wge.span = s.wge.span ∧ t.wge.liftState = s.wge.liftState := by
    intro r
    obtain ⟨p, h⟩ := poseStale_handedOn r s
    exact ⟨h.tlu, h.z, h.span, h.liftState⟩
  cases r
  case grip => exact ⟨rfl, rfl, rfl, rfl⟩
  case link =>
    have h := runAny_handedOn (liveHandOvers_handedOn (endCal .sensorLost (endTare .sensorLost
      (s.setWge s.wge.linkLost))).wge.liveMass) (endCal .sensorLost (endTare .sensorLost (s.setWge s.wge.linkLost)))
    have w : ∀ c d, let w := (endCal c (endTare d (s.setWge s.wge.linkLost))).wge
        w.z = s.wge.z ∧ w.span = s.wge.span ∧ w.lift = s.wge.lift.map Lift.linkLost := by
      intro c d
      simp only [endCal_wge, endTare_wge, State.setWge_wge]
      cases ht : s.wge.tare <;> simp [Wge.linkLost, ht]
    obtain ⟨wz, ws, wl⟩ := w .sensorLost .sensorLost
    refine ⟨h.tlu.trans (by simp), h.z.trans wz, h.span.trans ws, h.liftState.trans ?_⟩
    simp only [Wge.liftState, wl]
    cases s.wge.lift with
    | none => rfl
    | some l => cases hl : l.stage <;> simp [Lift.linkLost, hl]
  all_goals exact pose _

end Sys2Proof.Machine
end

