-- ==== Sys2Proof/Laws/HandOvers.lean ====
section
/-! SUPPORT. Hand-overs in an open order, and the delivery of a poll's sample: one lemma each. -/

namespace Sys2Proof.Machine

/-- Hand-overs run in an open order are each taken once, in some order (R142, R149; notes/assumptions/7.md). -/
theorem runAny_inSomeOrder (fs : List (State → State)) (s : State) : InSomeOrder fs s (runAny fs s) := by
  suffices h : ∀ k (fs : List (State → State)), fs.length ≤ k → ∀ s, InSomeOrder fs s (runAnyFuel k fs s) from h _ fs (Nat.le_refl _) s
  intro k
  induction k with
  | zero => intro fs hl s; obtain rfl := List.eq_nil_of_length_eq_zero (Nat.le_zero.1 hl); exact ⟨[], .nil, rfl⟩
  | succ k ih =>
    intro fs hl s
    match fs with
    | [] => exact ⟨[], .nil, rfl⟩
    | [f] => exact ⟨[(f, s.sched)], .refl _, rfl⟩
    | f :: g :: fs =>
      obtain ⟨i, l, hp, hi⟩ := s.pick_eq (f :: g :: fs).length
      have hi := hi (by simp)
      obtain ⟨gs, perm, e⟩ := ih ((f :: g :: fs).eraseIdx i) (by rw [List.length_eraseIdx_of_lt hi]; simp at hl ⊢; omega)
        ((f :: g :: fs)[i] (s.setSched l))
      refine ⟨((f :: g :: fs)[i], l) :: gs, ?_, ?_⟩
      · exact (perm.cons _).trans (List.getElem_cons_eraseIdx_perm hi)
      · simp only [runAnyFuel, hp, List.foldl_cons]
        rw [List.getD_eq_getElem _ _ hi]; exact e

/-- A poll that brought an enabled entry a good sample delivers it to the consumer of the entry's role, plain or returning (R27, R54,
R60). -/
theorem applyPoll_delivered (e : Entry) (st : Bool) (obs : PollObs) (s : State) (b : Sbc)
    (ho : judgePoll e.expectWaking st e.pd.role obs = .ok) (he : e.pd.enable = true) :
    SampleDelivered e { value := recordValue obs.record, mark := obs.record.status.getLsbD 1, time := s.now }
      (s.sbc.entries.map (fun y => if y.pd.role = e.pd.role then e.polled st obs s.now else y)) s
      ((applyPoll e st obs (s.setSbc s.sbc.clearTxn)).setSbc b).pump := by
  have hpol : e.polled st obs s.now = { e with
    expectWaking := false, last := .ok, failures := 0
    restarts := if countsRestart e.expectWaking st obs then min 255 (e.restarts + 1) else e.restarts
    slot := some { value := recordValue obs.record, mark := recordOver obs.record, time := s.now }
    stale := false, firstDue := false } := by simp [Entry.polled, ho, he, failuresAfter]
  have hret : e.returned (e.polled st obs s.now) = e.stale := by simp [Entry.returned, hpol]
  have hfresh : e.startsAfresh (e.polled st obs s.now) = (e.stale || e.firstDue) := by
    simp [Entry.startsAfresh, hret]; simp [hpol]
  unfold applyPoll
  simp only [State.setSbc_now, hret, hfresh]
  rw [hpol]
  simp only [he]
  rw [← hpol]
  have reported (P : Prop) [Decidable P] (t : State) :
      ∃ m, (if P then reportEntry (e.polled st obs s.now) t else t) = t.setMpt m ∧ m.slots = t.mpt.slots := by
    split <;> exact ⟨_, rfl, rfl⟩
  obtain ⟨m, hm, hslots⟩ := reported (((e.state = .missing) ≠ ((e.polled st obs s.now).state = .missing)) ∨ e.stale = true)
    ((s.setSbc s.sbc.clearTxn).setSbc ((s.setSbc s.sbc.clearTxn).sbc.mapRole e.pd.role fun _ => e.polled st obs s.now))
  rw [hm]
  generalize hs : State.setMpt _ m = s2
  rw [eq_comm] at hs
  refine ⟨if (e.stale || e.firstDue) = true then startAfresh e.pd.role s2 else s2, ?_, ?_, ?_, ?_⟩
  · subst hs; cases e.pd.role <;> (split <;> rfl)
  · subst hs; cases e.pd.role <;> (split <;> exact hslots)
  · subst hs
    cases h : e.pd.role <;> cases e.stale <;> cases e.firstDue <;> simp [startAfresh]
  · cases h : e.pd.role <;> simp [deliverSample, recordOver] <;> rfl

end Sys2Proof.Machine
end

