-- ==== Sys2Proof/Laws/PerInstr.lean ====
section
/-! SUPPORT. The statement made of every command as syntax, one lemma each: the table gives no row any bits, so no word spells a
command. -/

namespace Sys2Proof.Laws

/-- No word of the table spells the command. -/
def SpellsNoWord.Statement (i : Instr) : Prop := ∀ nbits w, decodeTableWord nbits w ≠ some i

theorem SpellsNoWord.powerOn : SpellsNoWord.Statement (.powerOn) := fun _ _ => (Option.some_ne_none _).symm
theorem SpellsNoWord.preloadDone a : SpellsNoWord.Statement (.preloadDone a) := fun _ _ => (Option.some_ne_none _).symm
theorem SpellsNoWord.roundTimerExpiry : SpellsNoWord.Statement (.roundTimerExpiry) := fun _ _ => (Option.some_ne_none _).symm
theorem SpellsNoWord.pollTransactionDone a : SpellsNoWord.Statement (.pollTransactionDone a) := fun _ _ => (Option.some_ne_none _).symm
theorem SpellsNoWord.stretchTimeout : SpellsNoWord.Statement (.stretchTimeout) := fun _ _ => (Option.some_ne_none _).symm
theorem SpellsNoWord.sensorStale a : SpellsNoWord.Statement (.sensorStale a) := fun _ _ => (Option.some_ne_none _).symm
theorem SpellsNoWord.busFreePulseEnd : SpellsNoWord.Statement (.busFreePulseEnd) := fun _ _ => (Option.some_ne_none _).symm
theorem SpellsNoWord.recoveryWaitEnd a : SpellsNoWord.Statement (.recoveryWaitEnd a) := fun _ _ => (Option.some_ne_none _).symm
theorem SpellsNoWord.recoveryAttempt : SpellsNoWord.Statement (.recoveryAttempt) := fun _ _ => (Option.some_ne_none _).symm
theorem SpellsNoWord.attemptWaitEnd a : SpellsNoWord.Statement (.attemptWaitEnd a) := fun _ _ => (Option.some_ne_none _).symm
theorem SpellsNoWord.passthroughDone a : SpellsNoWord.Statement (.passthroughDone a) := fun _ _ => (Option.some_ne_none _).symm
theorem SpellsNoWord.tareTimeout : SpellsNoWord.Statement (.tareTimeout) := fun _ _ => (Option.some_ne_none _).symm
theorem SpellsNoWord.permitExpiry : SpellsNoWord.Statement (.permitExpiry) := fun _ _ => (Option.some_ne_none _).symm
theorem SpellsNoWord.senseExpiry a : SpellsNoWord.Statement (.senseExpiry a) := fun _ _ => (Option.some_ne_none _).symm
theorem SpellsNoWord.discardExpiry a : SpellsNoWord.Statement (.discardExpiry a) := fun _ _ => (Option.some_ne_none _).symm
theorem SpellsNoWord.frameGapTimeout a : SpellsNoWord.Statement (.frameGapTimeout a) := fun _ _ => (Option.some_ne_none _).symm
theorem SpellsNoWord.frameBadCheck a : SpellsNoWord.Statement (.frameBadCheck a) := fun _ _ => (Option.some_ne_none _).symm
theorem SpellsNoWord.unknownKind a b c : SpellsNoWord.Statement (.unknownKind a b c) := fun _ _ => (Option.some_ne_none _).symm
theorem SpellsNoWord.frameHeld a b c : SpellsNoWord.Statement (.frameHeld a b c) := fun _ _ => (Option.some_ne_none _).symm
theorem SpellsNoWord.heldFrameHandled a : SpellsNoWord.Statement (.heldFrameHandled a) := fun _ _ => (Option.some_ne_none _).symm
theorem SpellsNoWord.frameSent a : SpellsNoWord.Statement (.frameSent a) := fun _ _ => (Option.some_ne_none _).symm
theorem SpellsNoWord.portBreak a : SpellsNoWord.Statement (.portBreak a) := fun _ _ => (Option.some_ne_none _).symm
theorem SpellsNoWord.standbyWake a b c : SpellsNoWord.Statement (.standbyWake a b c) := fun _ _ => (Option.some_ne_none _).symm
theorem SpellsNoWord.status a b : SpellsNoWord.Statement (.status a b) := fun _ _ => (Option.some_ne_none _).symm
theorem SpellsNoWord.pose a b : SpellsNoWord.Statement (.pose a b) := fun _ _ => (Option.some_ne_none _).symm
theorem SpellsNoWord.sensors a b : SpellsNoWord.Statement (.sensors a b) := fun _ _ => (Option.some_ne_none _).symm
theorem SpellsNoWord.pollRead a b : SpellsNoWord.Statement (.pollRead a b) := fun _ _ => (Option.some_ne_none _).symm
theorem SpellsNoWord.pollWrite a b : SpellsNoWord.Statement (.pollWrite a b) := fun _ _ => (Option.some_ne_none _).symm
theorem SpellsNoWord.sensorPass a b : SpellsNoWord.Statement (.sensorPass a b) := fun _ _ => (Option.some_ne_none _).symm
theorem SpellsNoWord.busRestart a b : SpellsNoWord.Statement (.busRestart a b) := fun _ _ => (Option.some_ne_none _).symm
theorem SpellsNoWord.setAssortment a b : SpellsNoWord.Statement (.setAssortment a b) := fun _ _ => (Option.some_ne_none _).symm
theorem SpellsNoWord.defineAssortment a b : SpellsNoWord.Statement (.defineAssortment a b) := fun _ _ => (Option.some_ne_none _).symm
theorem SpellsNoWord.deleteAssortment a b : SpellsNoWord.Statement (.deleteAssortment a b) := fun _ _ => (Option.some_ne_none _).symm
theorem SpellsNoWord.tallyRead a b : SpellsNoWord.Statement (.tallyRead a b) := fun _ _ => (Option.some_ne_none _).symm
theorem SpellsNoWord.logRead a b : SpellsNoWord.Statement (.logRead a b) := fun _ _ => (Option.some_ne_none _).symm
theorem SpellsNoWord.voidLift a b : SpellsNoWord.Statement (.voidLift a b) := fun _ _ => (Option.some_ne_none _).symm
theorem SpellsNoWord.assignLift a b : SpellsNoWord.Statement (.assignLift a b) := fun _ _ => (Option.some_ne_none _).symm
theorem SpellsNoWord.tripRead a b : SpellsNoWord.Statement (.tripRead a b) := fun _ _ => (Option.some_ne_none _).symm
theorem SpellsNoWord.tripClose a b : SpellsNoWord.Statement (.tripClose a b) := fun _ _ => (Option.some_ne_none _).symm
theorem SpellsNoWord.totalsReset a b : SpellsNoWord.Statement (.totalsReset a b) := fun _ _ => (Option.some_ne_none _).symm
theorem SpellsNoWord.tare a b : SpellsNoWord.Statement (.tare a b) := fun _ _ => (Option.some_ne_none _).symm
theorem SpellsNoWord.calSpan a b : SpellsNoWord.Statement (.calSpan a b) := fun _ _ => (Option.some_ne_none _).symm
theorem SpellsNoWord.chartRead a b : SpellsNoWord.Statement (.chartRead a b) := fun _ _ => (Option.some_ne_none _).symm
theorem SpellsNoWord.chartWrite a b : SpellsNoWord.Statement (.chartWrite a b) := fun _ _ => (Option.some_ne_none _).symm
theorem SpellsNoWord.overrideSet a b : SpellsNoWord.Statement (.overrideSet a b) := fun _ _ => (Option.some_ne_none _).symm
theorem SpellsNoWord.permit a b : SpellsNoWord.Statement (.permit a b) := fun _ _ => (Option.some_ne_none _).symm
theorem SpellsNoWord.watchRead a b : SpellsNoWord.Statement (.watchRead a b) := fun _ _ => (Option.some_ne_none _).symm
theorem SpellsNoWord.watchWrite a b : SpellsNoWord.Statement (.watchWrite a b) := fun _ _ => (Option.some_ne_none _).symm
theorem SpellsNoWord.hitClear a b : SpellsNoWord.Statement (.hitClear a b) := fun _ _ => (Option.some_ne_none _).symm
theorem SpellsNoWord.captureRead a b : SpellsNoWord.Statement (.captureRead a b) := fun _ _ => (Option.some_ne_none _).symm
theorem SpellsNoWord.holdManual a b : SpellsNoWord.Statement (.holdManual a b) := fun _ _ => (Option.some_ne_none _).symm
theorem SpellsNoWord.linesRead a b : SpellsNoWord.Statement (.linesRead a b) := fun _ _ => (Option.some_ne_none _).symm
theorem SpellsNoWord.lineFaultClear a b : SpellsNoWord.Statement (.lineFaultClear a b) := fun _ _ => (Option.some_ne_none _).symm
theorem SpellsNoWord.paramRead a b : SpellsNoWord.Statement (.paramRead a b) := fun _ _ => (Option.some_ne_none _).symm
theorem SpellsNoWord.paramWrite a b : SpellsNoWord.Statement (.paramWrite a b) := fun _ _ => (Option.some_ne_none _).symm
theorem SpellsNoWord.features a b : SpellsNoWord.Statement (.features a b) := fun _ _ => (Option.some_ne_none _).symm
theorem SpellsNoWord.enterService a b : SpellsNoWord.Statement (.enterService a b) := fun _ _ => (Option.some_ne_none _).symm
theorem SpellsNoWord.leaveService a b : SpellsNoWord.Statement (.leaveService a b) := fun _ _ => (Option.some_ne_none _).symm
theorem SpellsNoWord.standby a b : SpellsNoWord.Statement (.standby a b) := fun _ _ => (Option.some_ne_none _).symm
theorem SpellsNoWord.commit a b : SpellsNoWord.Statement (.commit a b) := fun _ _ => (Option.some_ne_none _).symm
theorem SpellsNoWord.commitDone a : SpellsNoWord.Statement (.commitDone a) := fun _ _ => (Option.some_ne_none _).symm
theorem SpellsNoWord.restart a b : SpellsNoWord.Statement (.restart a b) := fun _ _ => (Option.some_ne_none _).symm
theorem SpellsNoWord.restartReset : SpellsNoWord.Statement (.restartReset) := fun _ _ => (Option.some_ne_none _).symm
theorem SpellsNoWord.reportEnable a b : SpellsNoWord.Statement (.reportEnable a b) := fun _ _ => (Option.some_ne_none _).symm
theorem SpellsNoWord.byteArrival a b : SpellsNoWord.Statement (.byteArrival a b) := fun _ _ => (Option.some_ne_none _).symm
theorem SpellsNoWord.stopBitLow a : SpellsNoWord.Statement (.stopBitLow a) := fun _ _ => (Option.some_ne_none _).symm
theorem SpellsNoWord.lineReturnsToIdle a : SpellsNoWord.Statement (.lineReturnsToIdle a) := fun _ _ => (Option.some_ne_none _).symm
theorem SpellsNoWord.supplyLoss a : SpellsNoWord.Statement (.supplyLoss a) := fun _ _ => (Option.some_ne_none _).symm

end Sys2Proof.Laws
end

