-- ==== Sys2Proof/Laws/Queued.lean ====
section
/-! SUPPORT. What reports each shared operation queues: how `Queued` composes, and one lemma for each operation that queues none of
the kinds asked about. -/

namespace Sys2Proof.Machine

/-! ### How it composes -/

/-- A change that leaves queues, masks and gap flags alone queues nothing. -/
theorem Queued.same {kinds : List Report} {s t : State}
    (h : ∀ p, (t.port p).queue = (s.port p).queue ∧ (t.port p).enable = (s.port p).enable ∧ (t.port p).gap = (s.port p).gap) :
    Queued kinds [] s t :=
  fun p => ⟨[], by simp [(h p).1], (h p).2.1, fun g => (h p).2.2.trans g, fun _ => rfl⟩

theorem Queued.refl (kinds : List Report) (s : State) : Queued kinds [] s s := .same fun _ => ⟨rfl, rfl, rfl⟩

/-- Reports queued one after another join in that order (R217). -/
theorem Queued.trans {kinds : List Report} {l m : List (Report × List Byte)} {s t u : State} (h : Queued kinds l s t)
    (k : Queued kinds m t u) : Queued kinds (l ++ m) s u := by
  intro p
  obtain ⟨a, qa, ea, ga, fa⟩ := h p
  obtain ⟨b, qb, eb, gb, fb⟩ := k p
  refine ⟨a ++ b, by rw [qb, qa, List.append_assoc], eb.trans ea, gb ∘ ga, fun room => ?_⟩
  have room' : (t.port p).gap = false ∨ (t.port p).queue.length < 16 := by
    refine room.imp (fun g => ?_) (fun g => ?_)
    · cases ht : (t.port p).gap with
      | false => rfl
      | true => rw [gb ht] at g; exact g
    · rw [qb, List.length_append] at g; omega
  rw [List.filter_append, fa room', fb room, List.filter_append, List.map_append, ea]

/-- What queues nothing of the kinds may come before. -/
theorem Queued.after {kinds : List Report} {l : List (Report × List Byte)} {s t u : State} (h : Queued kinds [] s t)
    (k : Queued kinds l t u) : Queued kinds l s u := h.trans k

/-- What queues nothing of the kinds may come after. -/
theorem Queued.before {kinds : List Report} {l : List (Report × List Byte)} {s t u : State} (h : Queued kinds l s t)
    (k : Queued kinds [] t u) : Queued kinds l s u := by simpa using h.trans k

theorem Report.kind_inj {r q : Report} (h : r.kind = q.kind) : r = q := by revert h; cases r <;> cases q <;> decide

/-- A report is queued once, where its kind is asked about (R217). -/
theorem queueReport_queued (kinds : List Report) (r : Report) (body : List Byte) (s : State) :
    Queued kinds (if r ∈ kinds then [(r, body)] else []) s (s.queueReport r body) := by
  have hk : (kinds.any fun q => r.kind == q.kind) = decide (r ∈ kinds) := by
    rw [Bool.eq_iff_iff]
    simp only [List.any_eq_true, beq_iff_eq, decide_eq_true_eq]
    exact ⟨fun ⟨q, hq, e⟩ => Report.kind_inj e ▸ hq, fun h => ⟨r, h, rfl⟩⟩
  intro p
  have e : (s.queueReport r body).port p = (s.port p).queueReport r body := by cases p <;> rfl
  rw [e]
  unfold PortState.queueReport
  by_cases he : (s.port p).enable.getLsbD r.bit
  · by_cases hq : (s.port p).queue.length < 16
    · refine ⟨[{ kind := r.kind, status := 0#8, body := body }], by simp [he, hq], by simp [he, hq], by simp [he, hq], fun _ => ?_⟩
      by_cases hr : r ∈ kinds <;> simp [hk, hr, he]
    · exact ⟨[], by simp [he, hq], by simp [he, hq], fun _ => by simp [he, hq], fun room => by simp [he, hq] at room⟩
  · refine ⟨[], by simp [he], by simp [he], by simp [he], fun _ => ?_⟩
    by_cases hr : r ∈ kinds <;> simp [hr, he]

theorem queueReport_quiet {kinds : List Report} {r : Report} (h : r ∉ kinds) (body : List Byte) (s : State) :
    Queued kinds [] s (s.queueReport r body) := by simpa [h] using queueReport_queued kinds r body s

theorem queueAll_quiet {kinds : List Report} {r : Report} (h : r ∉ kinds) (bodies : List (List Byte)) (s : State) :
    Queued kinds [] s (s.queueAll r bodies) := by
  unfold State.queueAll
  induction bodies generalizing s with
  | nil => exact .refl _ _
  | cons b l ih => exact (queueReport_quiet h b s).after (ih _)

/-- Reports of one kind join in the order listed. -/
theorem queueAll_queued {kinds : List Report} {r : Report} (h : r ∈ kinds) (bodies : List (List Byte)) (s : State) :
    Queued kinds (bodies.map (fun b => (r, b))) s (s.queueAll r bodies) := by
  unfold State.queueAll
  induction bodies generalizing s with
  | nil => exact .refl _ _
  | cons b l ih =>
    have k := queueReport_queued kinds r b s
    rw [if_pos h] at k
    exact k.trans (ih _)

theorem foldl_quiet {α : Type} {kinds : List Report} (f : State → α → State) (each : ∀ s a, Queued kinds [] s (f s a)) (l : List α)
    (s : State) : Queued kinds [] s (l.foldl f s) := by
  induction l generalizing s with
  | nil => exact .refl _ _
  | cons a l ih => exact (each s a).after (ih _)

theorem runAny_quiet {kinds : List Report} {fs : List (State → State)} (each : ∀ f ∈ fs, ∀ s, Queued kinds [] s (f s)) (s : State) :
    Queued kinds [] s (runAny fs s) :=
  runAny_rel (Queued kinds []) (.refl kinds) (fun _ _ _ => .after) (fun _ _ => .same fun _ => ⟨rfl, rfl, rfl⟩) each s

/-- Hand-overs run in an open order queue what each of them queues, in some order (R149, R217). -/
theorem runAny_queued {kinds : List Report} (fs : List ((State → State) × List (Report × List Byte)))
    (each : ∀ f ∈ fs, ∀ s, Queued kinds f.2 s (f.1 s)) (s : State) :
    ∃ items, items.Perm (fs.flatMap Prod.snd) ∧ Queued kinds items s (runAny (fs.map Prod.fst) s) := by
  suffices h : ∀ k (fs : List ((State → State) × List (Report × List Byte))), fs.length ≤ k →
      (∀ f ∈ fs, ∀ s, Queued kinds f.2 s (f.1 s)) → ∀ s,
      ∃ items, items.Perm (fs.flatMap Prod.snd) ∧ Queued kinds items s (runAnyFuel k (fs.map Prod.fst) s) by
    have := h (fs.map Prod.fst).length fs (by simp) each s
    exact this
  intro k
  induction k with
  | zero => intro fs hl _ s; obtain rfl := List.eq_nil_of_length_eq_zero (Nat.le_zero.1 hl); exact ⟨[], .nil, .refl _ _⟩
  | succ k ih =>
    intro fs hl each s
    match fs with
    | [] => exact ⟨[], .nil, .refl _ _⟩
    | [f] => exact ⟨f.2, by simp, each f (by simp) s⟩
    | f :: g :: fs =>
      obtain ⟨i, l, hp, hi⟩ := s.pick_eq ((f :: g :: fs).map Prod.fst).length
      have hi := hi (by simp)
      have hi' : i < (f :: g :: fs).length := by simpa using hi
      obtain ⟨items, perm, q⟩ := ih ((f :: g :: fs).eraseIdx i)
        (by rw [List.length_eraseIdx_of_lt hi']; simp at hl ⊢; omega)
        (fun x hx => each x (List.mem_of_mem_eraseIdx hx)) ((f :: g :: fs)[i].1 (s.setSched l))
      have k : Queued kinds [] s (s.setSched l) := .same fun _ => ⟨rfl, rfl, rfl⟩
      refine ⟨(f :: g :: fs)[i].2 ++ items, ?_, k.after ((each _ (List.getElem_mem hi') _).trans ?_)⟩
      · have e := (List.getElem_cons_eraseIdx_perm hi').flatMap_right Prod.snd
        refine .trans ?_ e
        simpa using perm.append_left _
      · have e : ∀ m, runAnyFuel (m + 1) ((f :: g :: fs).map Prod.fst) s = (let (i, s') := s.pick ((f :: g :: fs).map Prod.fst).length
            runAnyFuel m (((f :: g :: fs).map Prod.fst).eraseIdx i) ((((f :: g :: fs).map Prod.fst).getD i id) s')) := fun _ => rfl
        rw [e, hp]
        dsimp only
        rw [List.getD_eq_getElem _ _ hi, List.getElem_map, List.eraseIdx_map]
        exact q

/-! ### Presentations -/

/-- A presentation queues a HOLD_CHANGE report for each line whose level it changed (R184). -/
theorem present_queued (src : HoldSource) (mask : LineMask) (s : State) :
    Queued [.holdChange] (holdReports s.hls.masks (s.hls.masks.put src mask)) s (present src mask s) := by
  have h := queueAll_queued (kinds := [.holdChange]) (r := .holdChange) (by simp)
    (holdChanges s.hls.masks (s.hls.masks.put src mask)) (s.setHls { s.hls with masks := s.hls.masks.put src mask })
  have e : (holdChanges s.hls.masks (s.hls.masks.put src mask)).map (fun b => (Report.holdChange, b)) =
      holdReports s.hls.masks (s.hls.masks.put src mask) := by
    simp only [holdChanges, holdReports, List.map_map]
    refine List.map_congr_left (fun l _ => ?_)
    cases hl : (s.hls.masks.put src mask).level l <;> simp [holdChangeBody, levelNum, hl]
  rw [← e]
  have k : Queued [.holdChange] [] s (s.setHls { s.hls with masks := s.hls.masks.put src mask }) := .same fun _ => ⟨rfl, rfl, rfl⟩
  exact k.after h

theorem present_quiet {kinds : List Report} (h : .holdChange ∉ kinds) (src : HoldSource) (mask : LineMask) (s : State) :
    Queued kinds [] s (present src mask s) := by
  have k : Queued kinds [] s (s.setHls { s.hls with masks := s.hls.masks.put src mask }) := .same fun _ => ⟨rfl, rfl, rfl⟩
  exact k.after (queueAll_quiet h _ _)

/-! ### The watch table -/

/-- The kinds that WT's judgements queue, HOLD_CHANGE by their presentations (R163, R169, R184). -/
def Report.ofWatch : List Report := [.watch, .captureReady, .holdChange]

/-- None of some kinds is asked about. -/
def Avoids (kinds l : List Report) : Prop := ∀ r ∈ l, r ∉ kinds

theorem setWt_quiet (kinds : List Report) (s : State) (w : Wt) : Queued kinds [] s (s.setWt w) := .same fun _ => ⟨rfl, rfl, rfl⟩
theorem setCpm_quiet (kinds : List Report) (s : State) (c : Cpm) : Queued kinds [] s (s.setCpm c) := .same fun _ => ⟨rfl, rfl, rfl⟩
theorem setWge_quiet (kinds : List Report) (s : State) (w : Wge) : Queued kinds [] s (s.setWge w) := .same fun _ => ⟨rfl, rfl, rfl⟩
theorem setPos_quiet (kinds : List Report) (s : State) (p : Pos) : Queued kinds [] s (s.setPos p) := .same fun _ => ⟨rfl, rfl, rfl⟩
theorem setSbc_quiet (kinds : List Report) (s : State) (b : Sbc) : Queued kinds [] s (s.setSbc b) := .same fun _ => ⟨rfl, rfl, rfl⟩
theorem setTlu_quiet (kinds : List Report) (s : State) (t : Tlu) : Queued kinds [] s (s.setTlu t) := .same fun _ => ⟨rfl, rfl, rfl⟩
theorem setStc_quiet (kinds : List Report) (s : State) (c : Stc) : Queued kinds [] s (s.setStc c) := .same fun _ => ⟨rfl, rfl, rfl⟩
theorem finishWork_quiet (kinds : List Report) (s : State) (k : DelayedKind) (r : List Byte) :
    Queued kinds [] s (s.finishWork k r) := .same fun p => by simp

section watch
variable {kinds : List Report} (h : Avoids kinds Report.ofWatch)
include h

theorem offerCapture_quiet (k : Fin 8) (s : State) : Queued kinds [] s (offerCapture k s) := by
  have hc : Report.captureReady ∉ kinds := h _ (by decide)
  unfold offerCapture
  split
  · exact (setWt_quiet _ _ _).after (queueReport_quiet hc _ _)
  · split
    · exact (setWt_quiet _ _ _).after (queueReport_quiet hc _ _)
    · exact setWt_quiet _ _ _

theorem fire_quiet (ev : SourceEvent) (k : Fin 8) (p : Option (Fin 8)) (s : State) : Queued kinds [] s (fire ev k p s) := by
  unfold fire
  split
  · exact (setWt_quiet _ _ _).after (queueReport_quiet (h _ (by decide)) _ _)
  · exact (setWt_quiet _ _ _).after (offerCapture_quiet h _ _)
  · exact (setWt_quiet _ _ _).after (present_quiet (h _ (by decide)) _ _ _)

theorem withdraw_quiet (k : Fin 8) (s : State) : Queued kinds [] s (withdraw k s) := by
  unfold withdraw
  split
  · exact present_quiet (h _ (by decide)) _ _ _
  · exact .refl _ _

theorem judgeEdge_quiet (ev : SourceEvent) (k : Fin 8) (was : Bool) (s : State) : Queued kinds [] s (judgeEdge ev k was s) := by
  unfold judgeEdge
  split <;> dsimp only
  · split
    · exact (setWt_quiet _ _ _).after (fire_quiet h _ _ _ _)
    · split
      · exact (setWt_quiet _ _ _).after (withdraw_quiet h _ _)
      · exact setWt_quiet _ _ _
  · split
    · exact fire_quiet h _ _ _ _
    · split
      · exact withdraw_quiet h _ _
      · exact .refl _ _

theorem watchEvaluate_quiet (ev : SourceEvent) (vals : Quantity → Option Marked) (s : State) :
    Queued kinds [] s (watchEvaluate ev vals s) := by
  unfold watchEvaluate
  split
  · refine foldl_quiet _ (fun s k => ?_) _ _
    unfold evalEntry
    dsimp only
    split
    · split
      · exact .refl _ _
      · split
        · exact (setWt_quiet _ _ _).after (judgeEdge_quiet h _ _ _ _)
        · exact judgeEdge_quiet h _ _ _ _
    · exact .refl _ _
  · exact .refl _ _

theorem wtLive_quiet (m : Marked) (s : State) : Queued kinds [] s (wtLive m s) :=
  (setWt_quiet _ _ _).after (watchEvaluate_quiet h _ _ _)

theorem wtPose_quiet (p : Pose) (s : State) : Queued kinds [] s (wtPose p s) :=
  (setWt_quiet _ _ _).after (watchEvaluate_quiet h _ _ _)

theorem wtUtil_quiet (u : Marked) (s : State) : Queued kinds [] s (wtUtil u s) :=
  (setWt_quiet _ _ _).after (watchEvaluate_quiet h _ _ _)

theorem wtLift_quiet (old new : LiftState) (tag mass : Option Nat) (s : State) : Queued kinds [] s (wtLift old new tag mass s) := by
  have reset : ∀ s k, Queued kinds [] s (resetLiftMass s k) := by
    intro s k
    unfold resetLiftMass
    dsimp only
    split
    · exact (setWt_quiet _ _ _).after (judgeEdge_quiet h _ _ _ _)
    · exact .refl _ _
  unfold wtLift
  dsimp only
  have k : Queued kinds [] s (if old = .open_ ∧ new = .gripped then
      (List.finRange 8).foldl resetLiftMass (s.setWt { s.wt with lift := new, tag := tag })
      else s.setWt { s.wt with lift := new, tag := tag }) := by
    split
    · exact (setWt_quiet _ _ _).after (foldl_quiet _ reset _ _)
    · exact setWt_quiet _ _ _
  split
  · exact k.after (watchEvaluate_quiet h _ _ _)
  · exact k

theorem handBunkTotal_quiet (n : Nat) (s : State) : Queued kinds [] s (handBunkTotal n s) := by
  unfold handBunkTotal
  split
  · exact watchEvaluate_quiet h _ _ _
  · exact .refl _ _

theorem makeEntries_quiet (locked : Vector (Option WatchDef) 8) (s : State) : Queued kinds [] s (makeEntries locked s) :=
  (setWt_quiet _ _ _).after (foldl_quiet _ (fun s k => present_quiet (h _ (by decide)) (.watch k) 0#6 s) _ _)

end watch

/-! ### The capacity monitor, the pose and the weighing -/

theorem wgeUtil_quiet (kinds : List Report) (u : Nat) (s : State) : Queued kinds [] s (wgeUtil u s) := by
  unfold wgeUtil
  split
  · split
    · exact .refl _ _
    · exact setWge_quiet _ _ _
  · exact .refl _ _

/-- The kinds that an evaluation, and all that leads to one, queues (R149). -/
def Report.ofEvaluation : List Report := [.capacity, .permitEnd, .watch, .captureReady, .holdChange]

section evaluation
variable {kinds : List Report} (h : Avoids kinds Report.ofEvaluation)
include h

theorem Avoids.watch : Avoids kinds Report.ofWatch := fun r hr => h r (by revert hr; cases r <;> decide)

theorem cpmEvaluate_quiet (s : State) : Queued kinds [] s (cpmEvaluate s) := by
  refine (setCpm_quiet _ _ _).after (runAny_quiet (fun f hf => ?_) _)
  simp only [List.mem_cons, List.not_mem_nil, or_false] at hf
  rcases hf with rfl | rfl | rfl | rfl
  · exact wgeUtil_quiet _ _
  · exact wtUtil_quiet h.watch _
  · intro s
    unfold evalReports
    dsimp only
    split <;> split
    · exact (queueReport_quiet (h _ (by decide)) _ _).after (queueReport_quiet (h _ (by decide)) _ _)
    · exact queueReport_quiet (h _ (by decide)) _ _
    · exact queueReport_quiet (h _ (by decide)) _ _
    · exact .refl _ _
  · intro s
    unfold presentCap
    split
    · exact present_quiet (h _ (by decide)) _ _ _
    · exact .refl _ _

theorem cpmTake_quiet (change : Cpm → Cpm) (s : State) : Queued kinds [] s (cpmTake change s) :=
  (setCpm_quiet _ _ _).after (cpmEvaluate_quiet h _)

theorem recompute_quiet (s : State) : Queued kinds [] s (recompute s) := by
  refine (setPos_quiet _ _ _).after (runAny_quiet (fun f hf => ?_) _)
  simp only [List.mem_cons, List.not_mem_nil, or_false] at hf
  rcases hf with rfl | rfl
  · exact cpmTake_quiet h _
  · exact wtPose_quiet h.watch _

theorem liveHandOvers_quiet (m : Marked) : ∀ f ∈ liveHandOvers m, ∀ s, Queued kinds [] s (f s) := by
  intro f hf
  simp only [liveHandOvers, List.mem_cons, List.not_mem_nil, or_false] at hf
  rcases hf with rfl | rfl
  · exact cpmTake_quiet h _
  · exact wtLive_quiet h.watch _

theorem liftHandOvers_quiet (old new : LiftState) (tag mass : Option Nat) :
    ∀ f ∈ liftHandOvers old new tag mass, ∀ s, Queued kinds [] s (f s) := by
  intro f hf
  unfold liftHandOvers at hf
  split at hf
  · simp at hf
  · simp only [List.mem_cons, List.not_mem_nil, or_false] at hf
    rcases hf with rfl | rfl
    · exact cpmTake_quiet h _
    · exact wtLift_quiet h.watch _ _ _ _

omit h in
theorem endTare_quiet (c : WorkCode) (s : State) : Queued kinds [] s (endTare c s) := .same fun p => by simp

omit h in
theorem endCal_quiet (c : WorkCode) (s : State) : Queued kinds [] s (endCal c s) := .same fun p => by simp

omit h in
/-- WGE's own work for a LINK arrival queues no report (R61). -/
theorem linkWork_quiet (c : Int) (o : Bool) (s : State) : Queued kinds [] s (linkWork c o s) := by
  have finish : ∀ (k : DelayedKind) (r : List Byte) (w : Wge) (s : State), Queued kinds [] s ((s.setWge w).finishWork k r) :=
    fun k r w s => (setWge_quiet _ _ _).after (finishWork_quiet _ _ _ _)
  have tare : ∀ cfg prev x s, Queued kinds [] s (tareStep cfg prev c x s) := by
    intro cfg prev x s; unfold tareStep; split
    · split
      · exact finish _ _ _ _
      · exact setWge_quiet _ _ _
    · exact .refl _ _
  have cal : ∀ cfg pose prev x s, Queued kinds [] s (calStep cfg pose prev c x s) := by
    intro cfg pose prev x s; unfold calStep; split
    · split
      · exact finish _ _ _ _
      · exact setWge_quiet _ _ _
    · exact .refl _ _
  have drop : ∀ b s, Queued kinds [] s (dropEndsCal b s) := by
    intro b s; unfold dropEndsCal; split
    · exact endCal_quiet _ _
    · exact .refl _ _
  unfold linkWork
  exact ((setWge_quiet _ _ _).after (drop _ _)).after (((tare _ _ _ _).after (cal _ _ _ _ _)).after (setWge_quiet _ _ _))

theorem linkArrival_quiet (c : Int) (o : Bool) (s : State) : Queued kinds [] s (linkArrival c o s) := by
  refine (linkWork_quiet c o s).after (runAny_quiet (fun f hf => ?_) _)
  rcases List.mem_append.1 hf with hf | hf
  · exact liftHandOvers_quiet h _ _ _ _ f hf
  · exact liveHandOvers_quiet h _ f hf

theorem linkStale_quiet (s : State) : Queued kinds [] s (linkStale s) :=
  (setWge_quiet _ _ _).after ((endTare_quiet _ _).after ((endCal_quiet _ _).after (runAny_quiet (liveHandOvers_quiet h _) _)))

/-- A stale event, of any role, queues none but an evaluation's reports (R28). -/
theorem deliverStale_quiet (r : Role) (s : State) : Queued kinds [] s (deliverStale r s) := by
  cases r
  case link => exact linkStale_quiet h _
  case grip => exact .refl _ s
  all_goals exact (setPos_quiet _ _ _).after (recompute_quiet h _)

end evaluation

/-! ### Completed lifts -/

/-- The reports of a completed lift: LIFT_DONE, then TRIP_CLOSED when it closed the trip (R114, R120, R125). -/
theorem takeCompletedLift_queued (c : CompletedLift) (s : State) :
    let o := s.tlu.handOver c
    Queued [.liftDone, .tripClosed]
      ((.liftDone, liftRecordBytes o.record) :: if o.closed = true then closedReports o.tlu.trip else []) s (takeCompletedLift c s) := by
  intro o
  have done (s : State) (b : List Byte) : Queued [.liftDone, .tripClosed] [(.liftDone, b)] s (s.queueReport .liftDone b) := by
    simpa using queueReport_queued [.liftDone, .tripClosed] .liftDone b s
  have part (s : State) (b : List Byte) : Queued [.liftDone, .tripClosed] [(.tripClosed, b)] s (s.queueReport .tripClosed b) := by
    simpa using queueReport_queued [.liftDone, .tripClosed] .tripClosed b s
  have closed (t : Trip) (s : State) : Queued [.liftDone, .tripClosed] (closedReports t) s (reportTripClosed t s) := by
    unfold closedReports reportTripClosed Trip.parts
    by_cases hl : t.list.length ≤ 8
    · simpa [hl] using part _ _
    · simpa [hl] using (part s _).trans (part _ _)
  have first : Queued [.liftDone, .tripClosed] [(.liftDone, liftRecordBytes o.record)] s
      ((s.setTlu o.tlu).queueReport .liftDone (liftRecordBytes o.record)) := (setTlu_quiet _ _ _).after (done _ _)
  unfold takeCompletedLift
  dsimp only
  refine Queued.before ?_ (handBunkTotal_quiet (by unfold Avoids; decide) _ _)
  by_cases hc : o.closed = true
  · simpa only [o, hc, if_true, List.singleton_append] using first.trans (closed o.tlu.trip _)
  · simpa only [o, hc, if_false, Bool.false_eq_true, reduceIte] using first

theorem takeCompletedLift_quiet {kinds : List Report}
    (h : Avoids kinds [.liftDone, .tripClosed, .watch, .captureReady, .holdChange]) (c : CompletedLift) (s : State) :
    Queued kinds [] s (takeCompletedLift c s) := by
  unfold takeCompletedLift
  dsimp only
  have done : Queued kinds [] s ((s.setTlu (s.tlu.handOver c).tlu).queueReport .liftDone (liftRecordBytes (s.tlu.handOver c).record)) :=
    (setTlu_quiet _ _ _).after (queueReport_quiet (h .liftDone (by decide)) _ _)
  refine Queued.before ?_ (handBunkTotal_quiet (fun r hr => h r (by revert hr; cases r <;> decide)) _ _)
  split
  · refine done.after ?_
    unfold reportTripClosed
    dsimp only
    have part (b : List Byte) (s : State) := queueReport_quiet (h .tripClosed (by decide)) b s
    split
    · exact (part _ _).after (part _ _)
    · exact part _ _
  · exact done

/-! ### All deliveries -/

/-- The kinds that a delivery queues. -/
def Report.ofDelivery : List Report := [.liftDone, .tripClosed, .capacity, .permitEnd, .watch, .captureReady, .holdChange]

section delivery
variable {kinds : List Report} (h : Avoids kinds Report.ofDelivery)
include h

theorem Avoids.evaluation : Avoids kinds Report.ofEvaluation := fun r hr => h r (by revert hr; cases r <;> decide)

theorem gripArrival_quiet (closed : Bool) (s : State) : Queued kinds [] s (gripArrival closed s) := by
  have hand (old new : LiftState) (tag mass : Option Nat) (s : State) : Queued kinds [] s (runAny (liftHandOvers old new tag mass) s) :=
    runAny_quiet (liftHandOvers_quiet h.evaluation _ _ _ _) _
  unfold gripArrival
  split
  · exact (setWge_quiet _ _ _).after ((endTare_quiet _ _).after (hand _ _ _ _ _))
  · exact .refl _ s
  · exact .refl _ s
  · split
    · exact (setWge_quiet _ _ _).after (hand _ _ _ _ _)
    · exact (setWge_quiet _ _ _).after ((endCal_quiet _ _).after
        ((takeCompletedLift_quiet (fun r hr => h r (by revert hr; cases r <;> decide)) _ _).after (hand _ _ _ _ _)))

/-- A sample's delivery, of any role, queues none but these (R27). -/
theorem deliverSample_quiet (r : Role) (returning : Bool) (x : Sample) (s : State) :
    Queued kinds [] s (deliverSample r returning x s) := by
  cases r
  case link => exact linkArrival_quiet h.evaluation _ _ _
  case grip => exact gripArrival_quiet h _ _
  all_goals exact (setPos_quiet _ _ _).after (recompute_quiet h.evaluation _)

end delivery

/-- The emptying before a sample that starts afresh queues nothing (R54, R60). -/
theorem startAfresh_quiet (kinds : List Report) (r : Role) (s : State) : Queued kinds [] s (startAfresh r s) := by
  cases r
  case link => exact setWge_quiet _ _ _
  case slew => exact setPos_quiet _ _ _
  case main => exact setPos_quiet _ _ _
  all_goals exact .refl _ s

end Sys2Proof.Machine
end

