-- ==== Sys2Proof/Laws/Requests.lean ====
section
/-! SUPPORT. What the end of an event, a judged frame and an admitted request come to: one lemma each, over all requests. -/

namespace Sys2Proof.Machine

/-! ### The end of an event -/

/-- Beginning a frame changes the ports alone, and no slot. -/
theorem pump_rest (s : State) :
    s.pump = s.setMpt { s.mpt with cab := s.mpt.cab.pump, service := s.mpt.service.pump } := rfl

@[simp] theorem pump_powered (s : State) : s.pump.powered = s.powered := rfl
@[simp] theorem pump_now (s : State) : s.pump.now = s.now := rfl
@[simp] theorem pump_sbc (s : State) : s.pump.sbc = s.sbc := rfl
@[simp] theorem pump_pos (s : State) : s.pump.pos = s.pos := rfl
@[simp] theorem pump_wge (s : State) : s.pump.wge = s.wge := rfl
@[simp] theorem pump_tlu (s : State) : s.pump.tlu = s.tlu := rfl
@[simp] theorem pump_cpm (s : State) : s.pump.cpm = s.cpm := rfl
@[simp] theorem pump_wt (s : State) : s.pump.wt = s.wt := rfl
@[simp] theorem pump_hls (s : State) : s.pump.hls = s.hls := rfl
@[simp] theorem pump_stc (s : State) : s.pump.stc = s.stc := rfl
@[simp] theorem pump_sched (s : State) : s.pump.sched = s.sched := rfl
@[simp] theorem pump_pending (s : State) : s.pump.pending = s.pending := rfl
@[simp] theorem pump_cfg (s : State) : s.pump.cfg = s.cfg := rfl
@[simp] theorem pump_slots (s : State) : s.pump.mpt.slots = s.mpt.slots := rfl
@[simp] theorem pump_port (s : State) (p : Port) : s.pump.port p = (s.port p).pump := by cases p <;> rfl

/-- Beginning a frame leaves the receiver, the held frame, the break and the enable mask as they were. -/
theorem pump_receiving (q : PortState) :
    q.pump.rx = q.rx ∧ q.pump.lastByte = q.lastByte ∧ q.pump.held = q.held ∧ q.pump.breakOn = q.breakOn ∧
      q.pump.enable = q.enable := by
  unfold PortState.pump
  repeat' split
  all_goals simp

@[simp] theorem heard_powered (s : State) (p : Port) : (s.heard p).powered = s.powered := rfl
@[simp] theorem heard_now (s : State) (p : Port) : (s.heard p).now = s.now := rfl
@[simp] theorem heard_sbc (s : State) (p : Port) : (s.heard p).sbc = s.sbc := rfl
@[simp] theorem heard_pos (s : State) (p : Port) : (s.heard p).pos = s.pos := rfl
@[simp] theorem heard_wge (s : State) (p : Port) : (s.heard p).wge = s.wge := rfl
@[simp] theorem heard_tlu (s : State) (p : Port) : (s.heard p).tlu = s.tlu := rfl
@[simp] theorem heard_cpm (s : State) (p : Port) : (s.heard p).cpm = s.cpm := rfl
@[simp] theorem heard_wt (s : State) (p : Port) : (s.heard p).wt = s.wt := rfl
@[simp] theorem heard_hls (s : State) (p : Port) : (s.heard p).hls = s.hls := rfl
@[simp] theorem heard_stc (s : State) (p : Port) : (s.heard p).stc = s.stc := rfl
@[simp] theorem heard_sched (s : State) (p : Port) : (s.heard p).sched = s.sched := rfl
@[simp] theorem heard_pending (s : State) (p : Port) : (s.heard p).pending = s.pending := rfl
@[simp] theorem heard_cfg (s : State) (p : Port) : (s.heard p).cfg = s.cfg := rfl
@[simp] theorem heard_slots (s : State) (p : Port) : (s.heard p).mpt.slots = s.mpt.slots := State.setPort_slots _ _ _
@[simp] theorem heard_port (s : State) (p : Port) : (s.heard p).port p = { s.port p with rx := .hunt } :=
  State.port_setPort_same _ _ _

section answered
variable (s : State) (p : Port) (kind : Byte) (c : Code) (body : List Byte)
@[simp] theorem answered_powered : (s.answered p kind c body).powered = s.powered := rfl
@[simp] theorem answered_now : (s.answered p kind c body).now = s.now := rfl
@[simp] theorem answered_sbc : (s.answered p kind c body).sbc = s.sbc := rfl
@[simp] theorem answered_pos : (s.answered p kind c body).pos = s.pos := rfl
@[simp] theorem answered_wge : (s.answered p kind c body).wge = s.wge := rfl
@[simp] theorem answered_tlu : (s.answered p kind c body).tlu = s.tlu := rfl
@[simp] theorem answered_cpm : (s.answered p kind c body).cpm = s.cpm := rfl
@[simp] theorem answered_wt : (s.answered p kind c body).wt = s.wt := rfl
@[simp] theorem answered_hls : (s.answered p kind c body).hls = s.hls := rfl
@[simp] theorem answered_stc : (s.answered p kind c body).stc = s.stc := rfl
@[simp] theorem answered_sched : (s.answered p kind c body).sched = s.sched := rfl
@[simp] theorem answered_pending : (s.answered p kind c body).pending = s.pending := rfl
@[simp] theorem answered_cfg : (s.answered p kind c body).cfg = s.cfg := rfl
@[simp] theorem answered_slots : (s.answered p kind c body).mpt.slots = s.mpt.slots := by
  simp [State.answered]
end answered

/-! ### Frames -/

/-- Every request's command takes its frame and ends the event. -/
theorem exec_frame (r : Req) (p : Port) (body : List Byte) (s : State) :
    exec (r.frame p body) s = completes (takeRequest r (serve r) p body) s := by
  cases r <;> rfl

/-- On a port that is ready, a frame is judged at once, and its reply waits (R207, R208). -/
theorem takeFrame_ready {p : Port} {s : State} (h : Ready p s) (kind : Byte) (body : List Byte)
    (judge : State → Answer × State) :
    takeFrame p kind body judge s =
      (judge (s.heard p)).2.setPort p (((judge (s.heard p)).2.port p).putReply kind (judge (s.heard p)).1) := by
  obtain ⟨_, hb, hh, hr⟩ := h
  simp [takeFrame, hb, hh, hr, handle, State.heard]

/-- The event of a frame on a port that is ready. -/
theorem completes_takeFrame {p : Port} {s : State} (h : Ready p s) (kind : Byte) (body : List Byte)
    (judge : State → Answer × State) :
    completes (takeFrame p kind body judge) s =
      .next ((judge (s.heard p)).2.answered p kind (judge (s.heard p)).1.code (judge (s.heard p)).1.body) := by
  simp [completes, h.1, takeFrame_ready h, State.answered, PortState.putReply]

/-- Rows 4 to 6 of R207 give an admitted request no refusal. -/
theorem refusal_none {p : Port} {op : OpState} {r : Req} {body : List Byte} (ha : admits p op r = true)
    (hb : bodyFits r body = true) : refusal p op r body = none := by
  simp [refusal, lockedOut, ha, hb]

/-- An admitted request is judged by its owner alone (R207, row 8). -/
theorem judgeKnown_admitted {p : Port} {r : Req} {body : List Byte} {s : State} (h : Admitted p r body s) :
    judgeKnown r (serve r) p body (s.heard p) = serve r p body (s.heard p) := by
  obtain ⟨_, ho, ha, hb⟩ := h
  unfold judgeKnown
  rcases ho with ho | ho <;> simp [ho] at ha ⊢ <;> simp [refusal_none ha hb]

/-- The event of an admitted request: the owner's answer, and the part as the owner leaves it (R207, row 8). -/
theorem exec_admitted {p : Port} {r : Req} {body : List Byte} {s : State} (h : Admitted p r body s) :
    exec (r.frame p body) s =
      .next ((serve r p body (s.heard p)).2.answered p r.code (serve r p body (s.heard p)).1.code
        (serve r p body (s.heard p)).1.body) := by
  rw [exec_frame]
  exact (completes_takeFrame h.1 _ _ _).trans (by rw [judgeKnown_admitted h])

/-- The event of an admitted request that its owner refuses. -/
theorem exec_refused {p : Port} {r : Req} {body : List Byte} {s : State} {c : Code} (h : Admitted p r body s)
    (hs : serve r p body (s.heard p) = (.refuse c, s.heard p)) :
    exec (r.frame p body) s = .next ((s.heard p).answered p r.code c []) := by
  rw [exec_admitted h, hs]; rfl

/-- A command that is not a frame ends its event the same way. -/
theorem completes_powered {f : State → State} {s : State} (h : s.powered = true) : completes f s = .next (f s).pump := by
  simp [completes, h]

theorem completes_off {f : State → State} {s : State} (h : s.powered = false) : completes f s = .next s := by
  simp [completes, h]

end Sys2Proof.Machine
end

