-- ==== Sys2Proof/WellFormed.lean ====
section
/-! DEFINITION. Well-formed commands: what the outside can really send (R206, R211, R222). The meanings do not rest on it:
every command has an effect in every state. -/

namespace Sys2Proof

/-- The longest body of a request frame: LEN is at most 250 and counts KIND (R211). -/
def maxBody : Nat := 249

/-- A body fits in a request frame. -/
def bodyWellFormed (body : List Byte) : Bool := body.length ≤ maxBody

/-- A kind is none of the request kinds of R212, as UNKNOWN_KIND needs. -/
def kindUnknown (kind : Byte) : Bool := (Machine.Req.ofCode kind).isNone

/-- The checks on a command: the body of a frame fits in one, and an UNKNOWN_KIND frame's kind is no request kind. -/
def Instr.wellFormed : Instr → Bool
  | .powerOn => true
  | .preloadDone _ => true
  | .roundTimerExpiry => true
  | .pollTransactionDone _ => true
  | .stretchTimeout => true
  | .sensorStale _ => true
  | .busFreePulseEnd => true
  | .recoveryWaitEnd _ => true
  | .recoveryAttempt => true
  | .attemptWaitEnd _ => true
  | .passthroughDone _ => true
  | .tareTimeout => true
  | .permitExpiry => true
  | .senseExpiry _ => true
  | .discardExpiry _ => true
  | .frameGapTimeout _ => true
  | .frameBadCheck _ => true
  | .unknownKind _ kind body => kindUnknown kind && bodyWellFormed body
  | .frameHeld _ _ body => bodyWellFormed body
  | .heldFrameHandled _ => true
  | .frameSent _ => true
  | .portBreak _ => true
  | .standbyWake _ _ body => bodyWellFormed body
  | .status _ body => bodyWellFormed body
  | .pose _ body => bodyWellFormed body
  | .sensors _ body => bodyWellFormed body
  | .pollRead _ body => bodyWellFormed body
  | .pollWrite _ body => bodyWellFormed body
  | .sensorPass _ body => bodyWellFormed body
  | .busRestart _ body => bodyWellFormed body
  | .setAssortment _ body => bodyWellFormed body
  | .defineAssortment _ body => bodyWellFormed body
  | .deleteAssortment _ body => bodyWellFormed body
  | .tallyRead _ body => bodyWellFormed body
  | .logRead _ body => bodyWellFormed body
  | .voidLift _ body => bodyWellFormed body
  | .assignLift _ body => bodyWellFormed body
  | .tripRead _ body => bodyWellFormed body
  | .tripClose _ body => bodyWellFormed body
  | .totalsReset _ body => bodyWellFormed body
  | .tare _ body => bodyWellFormed body
  | .calSpan _ body => bodyWellFormed body
  | .chartRead _ body => bodyWellFormed body
  | .chartWrite _ body => bodyWellFormed body
  | .overrideSet _ body => bodyWellFormed body
  | .permit _ body => bodyWellFormed body
  | .watchRead _ body => bodyWellFormed body
  | .watchWrite _ body => bodyWellFormed body
  | .hitClear _ body => bodyWellFormed body
  | .captureRead _ body => bodyWellFormed body
  | .holdManual _ body => bodyWellFormed body
  | .linesRead _ body => bodyWellFormed body
  | .lineFaultClear _ body => bodyWellFormed body
  | .paramRead _ body => bodyWellFormed body
  | .paramWrite _ body => bodyWellFormed body
  | .features _ body => bodyWellFormed body
  | .enterService _ body => bodyWellFormed body
  | .leaveService _ body => bodyWellFormed body
  | .standby _ body => bodyWellFormed body
  | .commit _ body => bodyWellFormed body
  | .commitDone _ => true
  | .restart _ body => bodyWellFormed body
  | .restartReset => true
  | .reportEnable _ body => bodyWellFormed body
  | .byteArrival _ _ => true
  | .stopBitLow _ => true
  | .lineReturnsToIdle _ => true
  | .supplyLoss _ => true

end Sys2Proof
end

