-- ==== Sys2Proof/Tests/Slice0.lean ====
section
/-! SUPPORT. Named tests: the smoke tests of well-formedness, the manual's worked cases and rows taken one step at a time, and a
witness for the hypotheses of every statement of Certificates/Slice0/Obligations.lean. Each comment names where the expected
result stands. -/

namespace Sys2Proof.Tests

-- One after another: each theorem checked at the same time would hold a thread of its own.
set_option Elab.async false

open Sys2Proof.Machine

/-! ### Small states -/

/-- The state of an outcome that goes on. -/
def after (o : Host.Outcome State Fault Refusal) : Option State :=
  match o with
  | .next t => some t
  | _ => none

/-- What a command leaves, read through `f`. -/
def sees {α : Type} (c : Instr) (s : State) (f : State → α) : Option α := (after (exec c s)).map f

/-- The STATUS byte and body of the frame a port is sending. -/
def sent (p : Port) (s : State) : Option (Byte × List Byte) := (s.port p).tx.map (fun f => (f.status, f.body))

/-- RUN with the bus RUNNING, nothing polled, and 100 ms gone. -/
def inRun : State :=
  { State.reset with
    now := 100
    sbc := { Sbc.reset with bus := .running, busFreeLow := false, roundTimer := some 110 }
    stc := { Stc.reset with op := .run, preloading := false, marker := true }
    hls := { Hls.reset with masks := { Hls.reset.masks with state := 0#6 }, senseTimer := 110 } }

def inService : State := inRun.setStc { inRun.stc with op := .service }

def inStandby : State :=
  { State.reset with stc := { Stc.reset with op := .standby, preloading := false, marker := true } }

/-- A lift in a stage, from the field, of assortment 0. -/
def liftIn (stage : Stage) : Lift := { Lift.begin .field_ 0 false with stage := stage }

/-- An entry of a role with a held value. -/
def entryOf (r : Role) (addr : Nat) (v : Int) (t : Nat) : Entry :=
  { Entry.fresh { role := r, addr := addr, period := 1, enable := true } with
    failures := 0, expectWaking := false, last := .ok, slot := some { value := v, mark := false, time := t }, stale := false }

/-- RUN with one entry on the bus, its poll in progress. -/
def polling (e : Entry) : State :=
  inRun.setSbc { inRun.sbc with
    entries := [e], roundActive := true
    txn := some { kind := .poll e.pd.role e.pd.addr, stretched := false, discarded := false } }

/-- A record with its check byte right. -/
def record (status value2 value1 value0 : Byte) : SensorRecord where
  status := status
  value2 := value2
  value1 := value1
  value0 := value0
  check := BitVec.ofNat 8 (255 - (status.toNat + value2.toNat + value1.toNat + value0.toNat) % 256)

/-- A transaction in which nothing failed on the bus. -/
def heardRecord (x : SensorRecord) : PollObs where
  lowAtStart := false
  acked := true
  record := x
  lowAtStop := false

/-- A transaction that found the data line low. -/
def lineLow : PollObs where
  lowAtStart := true
  acked := false
  record := record 0#8 0#8 0#8 0#8
  lowAtStop := true

/-! ### Well-formedness -/

/-- R211: LEN is at most 250, so no body is longer than 249 bytes. -/
theorem test_wf_refuses_long_request_bodies :
    Req.all.all (fun r => !(r.frame .cab (List.replicate 250 0#8)).wellFormed) = true := by decide +kernel

theorem test_wf_refuses_long_bodies_of_other_frames :
    (Instr.unknownKind .cab 0x3E#8 (List.replicate 250 0#8)).wellFormed = false ∧
    (Instr.frameHeld .cab 0x01#8 (List.replicate 250 0#8)).wellFormed = false ∧
    (Instr.standbyWake .cab 0x01#8 (List.replicate 250 0#8)).wellFormed = false := by decide +kernel

/-- R212: 0x01 is STATUS. -/
theorem test_wf_refuses_known_kind_as_unknown : (Instr.unknownKind .cab 0x01#8 []).wellFormed = false := by decide +kernel

theorem test_wf_admits :
    (Instr.unknownKind .cab 0x3E#8 []).wellFormed = true ∧ (Instr.status .cab (List.replicate 249 0#8)).wellFormed = true ∧
    Instr.powerOn.wellFormed = true := by decide +kernel

theorem test_no_word_spells_a_command : decodeTableWord 8 0x01 = none := by decide +kernel

/-! ### Arithmetic: the tables of 01_quantities_and_arithmetic, Worked cases -/

theorem test_sine_fold_and_interpolation :
    sinT 543 = 13304 ∧ cosT 350 = 13421 ∧ cosT (-200) = 15396 ∧ sinT (-200) = -5604 ∧ sinT 2457 = -14932 ∧
    cosT 3555 = 16333 ∧ sinT (-5) = -143 ∧ cosT 1800 = -16384 ∧ sinT 1800 = 0 := by decide +kernel

theorem test_rounding :
    roundDiv (1202000 * 1024) 100000 = 12308 ∧ roundDiv 787745 64 = 12309 ∧ meanOf (-25) 2 = -13 ∧ meanOf 25 2 = 13 := by
  decide +kernel

/-! ### The step and the time base -/

theorem test_idle_step_counts_a_millisecond : (after (step inRun)).map (·.now) = some 101 := by decide +kernel

theorem test_time_waits_for_an_expiry :
    (after (step (inRun.setNow 110))).map (·.now) = some 110 := by decide +kernel

/-! ### Start and supply -/

/-- 10, Worked sequence: a bad image found at start: SERVICE, settings-bad. -/
theorem test_preload_bad_image :
    sees (.preloadDone false) State.reset (fun t => (t.stc.op, t.stc.settingsBad, t.hls.masks.state)) =
      some (.service, true, 0#6) := by decide +kernel

/-- R195: with the marker intact the start is warm. -/
theorem test_power_on_warm :
    sees .powerOn (inRun.setWge { Wge.reset with z := 52300, span := 1024 }) (fun t => (t.wge.z, t.wge.span, t.stc.startWarm)) =
      some (52300, 1024, true) := by decide +kernel

theorem test_power_on_cold :
    sees .powerOn ((inRun.setWge { Wge.reset with z := 52300 }).setStc { inRun.stc with marker := false })
      (fun t => (t.wge.z, t.stc.startWarm, t.stc.op)) = some (0, false, .start) := by decide +kernel

/-- R195: the marker is lost with the backup. -/
theorem test_supply_loss :
    sees (.supplyLoss true) inRun (fun t => (t.powered, t.stc.marker, t.outputs)) = some (false, false, 0#6) := by decide +kernel

/-- R195: the marker of a cold start stands once z and s have their cold values, so supply lost before that starts cold again. -/
theorem test_marker_of_a_cold_start :
    sees (.supplyLoss false) State.reset (·.stc.marker) = some false ∧
    sees (.preloadDone false) State.reset (·.stc.marker) = some true := by decide +kernel

theorem test_restart_reset :
    sees .restartReset (inRun.setStc { inRun.stc with restart := .due }) (fun t => (t.stc.op, t.stc.startWarm)) =
      some (.start, true) := by decide +kernel

/-! ### The sensor bus -/

/-- R21, R23: 0x01 READY, value 900, check 255 − (1 + 3 + 132) = 119. -/
theorem test_record_check : (record 0x01#8 0x00#8 0x03#8 0x84#8).check = 119#8 ∧ recordValue (record 1#8 0#8 3#8 0x84#8) = 900 := by
  decide +kernel

theorem test_poll_ok_holds_the_value :
    sees (.pollTransactionDone (heardRecord (record 0x01#8 0x00#8 0x00#8 0x01#8)))
      (polling { entryOf .grip 0x26 0 90 with failures := 3, stale := true, slot := none })
      (fun t => (t.sbc.entries.map (fun e => (e.failures, e.slot.map (·.value), e.stale)), t.wge.liftState)) =
      some ([(0, some 1, false)], .gripped) := by decide +kernel

/-- R31: a STUCK outcome takes RUNNING to RECOVERING with the bus-free line low. -/
theorem test_poll_stuck_recovers :
    sees (.pollTransactionDone lineLow) (polling (entryOf .slew 0x21 0 90))
      (fun t => (t.sbc.bus, t.sbc.busFreeLow, t.sbc.phase, t.sbc.stuckTimes)) =
      some (.recovering, true, .pulse 101, [100]) := by decide +kernel

/-- R54, R58: after a standby, however short, the first sample of SLEW starts its rate from 0. -/
theorem test_first_sample_after_a_short_standby :
    sees (.pollTransactionDone (heardRecord (record 0x01#8 0x00#8 0x03#8 0x84#8)))
      ((polling { entryOf .slew 0x21 0 90 with firstDue := true }).setPos
        { Pos.reset with slewMem := some { value := 0, time := 90, rate := 5 } })
      (fun t => (t.pos.slewMem, t.sbc.entries.map (·.firstDue))) =
      some (some { value := 900, time := 100, rate := 0 }, [false]) := by decide +kernel

/-- R27, R30: a sample that comes while its entry is fresh is plain and queues no SENSOR_STATE report, first after a standby or not; one
that comes while the entry is stale is returning and queues one. -/
theorem test_plain_and_returning_reports :
    let kinds (e : Entry) := sees (.pollTransactionDone (heardRecord (record 0x01#8 0x00#8 0x03#8 0x84#8))) (polling e)
      (fun t => t.mpt.cab.tx.map (·.kind))
    (kinds { entryOf .slew 0x21 0 90 with firstDue := true }, kinds { entryOf .slew 0x21 0 90 with stale := true }) =
      (some none, some (some 0xC7#8)) := by decide +kernel

/-- R34: a BUS_RESTART that waited starts the recovery when the poll completes. -/
theorem test_waiting_bus_restart :
    sees (.pollTransactionDone (heardRecord (record 0x01#8 0x00#8 0x00#8 0x01#8)))
      (let s := polling (entryOf .slew 0x21 0 90)
       s.setSbc { s.sbc with restartPending := true, roundActive := false })
      (fun t => (t.sbc.bus, t.sbc.phase, t.sbc.restartPending)) = some (.recovering, .pulse 101, false) := by decide +kernel

/-- R34: a second BUS_RESTART finds the bus RUNNING, so it is OK too, and the bus still recovers when the poll completes. -/
theorem test_second_bus_restart :
    let s := polling (entryOf .slew 0x21 0 90)
    let t := s.setSbc { s.sbc with restartPending := true, roundActive := false }
    sees (.busRestart .service []) t (fun u => (sent .service u, u.sbc == t.sbc)) = some (some (0x00#8, []), true) := by decide +kernel

theorem test_stretch_timeout :
    sees .stretchTimeout (polling (entryOf .slew 0x21 0 90)) (fun t => t.sbc.txn.map (·.stretched)) = some (some true) := by
  decide +kernel

/-- R19: round 1 polls the entries of period 1, the first at once. -/
theorem test_round_begins :
    sees .roundTimerExpiry ((inRun.setSbc { inRun.sbc with entries := [entryOf .link 0x20 0 0, entryOf .slew 0x21 0 0] }).setNow 110)
      (fun t => (t.sbc.roundNo, t.sbc.txn.map (·.kind), t.sbc.due, t.sbc.roundTimer)) =
      some (1, some (.poll .link 0x20), [.slew], some 120) := by decide +kernel

/-- R28: LINK is stale at its arrival time plus 41 ms, not at plus 40. -/
theorem test_link_stale_at_41 :
    sees (.sensorStale .link) ((polling (entryOf .link 0x20 0 59))) (fun t => t.sbc.entries.map (·.stale)) = some [true] ∧
    sees (.sensorStale .link) ((polling (entryOf .link 0x20 0 60))) (fun t => t.sbc.entries.map (·.stale)) = some [false] := by
  decide +kernel

theorem test_pulse_end :
    sees .busFreePulseEnd (inRun.setSbc { inRun.sbc with bus := .recovering, busFreeLow := true, phase := .pulse 100 })
      (fun t => (t.sbc.busFreeLow, t.sbc.phase)) = some (false, .wait 120) := by decide +kernel

/-- R31, R32: high returns to RUNNING; low with two kept times within 1,000 ms enters DOWN. -/
theorem test_recovery_wait_end :
    sees (.recoveryWaitEnd true) (inRun.setSbc { inRun.sbc with bus := .recovering, phase := .wait 100 }) (fun t => t.sbc.bus) =
      some .running ∧
    sees (.recoveryWaitEnd false)
      (inRun.setSbc { inRun.sbc with bus := .recovering, phase := .wait 100, stuckTimes := [40, 70] })
      (fun t => (t.sbc.bus, t.sbc.attemptTimer)) = some (.down, some 1100) := by decide +kernel

theorem test_recovery_attempt :
    sees .recoveryAttempt (inRun.setSbc { inRun.sbc with bus := .down, attemptTimer := some 100 })
      (fun t => (t.sbc.phase, t.sbc.attemptTimer)) = some (.pulse 101, some 1100) := by decide +kernel

theorem test_attempt_wait_end :
    sees (.attemptWaitEnd true)
      (inRun.setSbc { inRun.sbc with
        bus := .down, phase := .wait 100, attemptTimer := some 900, entries := [entryOf .link 0x20 0 0] })
      (fun t => t.sbc.txn.map (·.kind)) = some (some (.attempt .link 0x20)) := by decide +kernel

/-- R37: a passthrough that failed on its address carries NAK_ADDR, 0x10, and no byte. -/
theorem test_passthrough_nak :
    sees (.passthroughDone { stuck := false, addrAcked := false, dataAcked := true, bytes := Vector.replicate 8 7#8 })
      ((inRun.setSbc { inRun.sbc with
        txn := some { kind := .pass, stretched := false, discarded := false }
        pass := some { addr := 0x40, count := 2, writes := [] } }).setMpt { inRun.mpt with
        slots := inRun.mpt.slots.set 0 (some { port := .service, kind := .sensorPass, body := [0x40#8, 2#8], state := .working }) })
      (fun t => t.mpt.slots[0].map (·.state)) = some (some (.done [0x10#8, 0#8] 5100)) := by decide +kernel

/-- R16: LINK's period 5 is clamped to 2. -/
theorem test_poll_write_clamps :
    sees (.pollWrite .service [0#8, 0x20#8, 5#8, 1#8]) inService (sent .service) =
      some (some (0x01#8, [1#8, 0#8, 0x20#8, 2#8, 1#8])) := by decide +kernel

theorem test_poll_write_two_of_one_role :
    sees (.pollWrite .service [0#8, 0x20#8, 1#8, 1#8, 0#8, 0x21#8, 1#8, 1#8]) inService
      (fun t => (sent .service t, t.sbc.entries)) = some (some (0x23#8, []), []) := by decide +kernel

theorem test_bus_restart : sees (.busRestart .service []) inRun (fun t => (sent .service t, t.sbc.bus)) =
    some (some (0#8, []), .recovering) := by decide +kernel

theorem test_sensor_pass : sees (.sensorPass .service [0x07#8, 1#8]) inService (sent .service) = some (some (0x20#8, [])) := by
  decide +kernel

/-! ### The pose: 03, Worked case -/

/-- The pose at 20,000 ms of the worked case, with the machine's default geometry and zones. -/
def posed : Pose :=
  (({ Pos.reset with fresh := { slew := true, main := true, outer := true, tele := true, tilt := true } } : Pos)).formPose
    { Sbc.reset with entries := [entryOf .slew 0x21 900 20000, entryOf .main 0x22 350 20000, entryOf .outer 0x23 1250 20000,
        entryOf .tele 0x24 1200 20000, entryOf .tilt 0x25 (40 * 4096 + 4011) 20000] }
    defaultSettings

theorem test_pose_reach_height_slope :
    (posed.r.val, posed.h.val, posed.t.val, posed.zone, posed.sector, posed.valid) = (7951, 3567, 85, .field_, .left, true) := by
  decide +kernel

/-- R42, R47, R52: a role that is absent counts as stale whatever mark was last delivered; without TELE the extension is 0. -/
theorem test_absent_roles_make_the_pose_invalid :
    let q := ({ Pos.reset with fresh := { slew := true, main := true, outer := true, tele := true, tilt := true } } : Pos).formPose
      { Sbc.reset with entries := [entryOf .slew 0x21 900 20000] } defaultSettings
    (q.s.ok, q.alpha.ok, q.pitch.ok, q.roll.ok, q.t.ok, q.valid, q.e) = (true, false, false, false, false, false, { val := 0, ok := true }) := by
  decide +kernel

/-! ### Weighing: 04, 05 -/

/-- 05, Worked cases: auto-zero. -/
theorem test_auto_zero :
    ({ Wge.reset with z := 52300 }.azComplete 150 3354880 79).z = 52330 ∧
    ({ Wge.reset with z := 52300 }.azComplete 150 0 11597).z = 52300 ∧
    ({ Wge.reset with z := 52300 }.azComplete 150 0 11597).zeroSuspect = true := by decide +kernel

/-- 05, Worked cases: the 64th steady sample in OPEN moves z by (52,420 − 52,300) / 4. -/
theorem test_auto_zero_in_a_link_arrival :
    let s := inRun.setWge { inRun.wge with z := 52300, prev := some 1, az := { count := 63, sumC := 63 * 52420, sumM := 78 } }
    ((linkArrival 52420 false s).wge.z, (linkArrival 52420 true s).wge.z) = (52330, 52300) := by decide +kernel

/-- R62: the live mass is the mean of the newest 8, here 1 to 8 and then 1,009. -/
theorem test_live_mass_in_a_link_arrival :
    let t := linkArrival 100900 false (inRun.setWge { inRun.wge with live := [1, 2, 3, 4, 5, 6, 7, 8] })
    (t.wge.live, t.cpm.liveCopy.val, t.wt.live.val) = ([2, 3, 4, 5, 6, 7, 8, 1009], 131, 131) := by decide +kernel

/-- 05, Worked cases: CAL_SPAN. -/
theorem test_cal_span_judged : spanJudged 52300 1000 10000 (128 * 1028863) = (.ok, 976563, 1024) := by decide +kernel

theorem test_tare_pending :
    sees (.tare .cab []) (inRun.setSbc { inRun.sbc with entries := [entryOf .link 0x20 0 90] })
      (fun t => (sent .cab t, t.wge.tare.map (·.deadline))) = some (some (0x02#8, []), some 10100) := by decide +kernel

theorem test_tare_in_a_lift :
    sees (.tare .cab []) (inRun.setWge { inRun.wge with lift := some (liftIn .gripped) }) (sent .cab) = some (some (0x14#8, [])) := by
  decide +kernel

theorem test_tare_timeout :
    sees .tareTimeout (inRun.setWge { inRun.wge with tare := some { port := .cab, count := 3, sumC := 0, deadline := 100 } })
      (fun t => t.wge.tare) = some none := by decide +kernel

/-- R103: Mref below 500. -/
theorem test_cal_span_mref : sees (.calSpan .service [0x01#8, 0xF3#8]) inService (sent .service) = some (some (0x20#8, [])) := by
  decide +kernel

/-! ### The tally: 06 -/

/-- The table of 06's worked trip after lift 1,202. -/
def loadedTlu : Tlu :=
  { Tlu.reset with
    table := ((Tlu.reset.table.set 1 (some { AsnSlot.fresh 3 with
        loadedCount := 2, loadedMass := 22157, bunkCount := 2, bunkMass := 22157 })).set 2 (some { AsnSlot.fresh 7 with
        loadedCount := 1, loadedMass := 6420, bunkCount := 1, bunkMass := 6420 }))
    trip := { Trip.reset with number := 42, state := .loading, lifts := some (1200, 1202), list :=
      [{ id := 3, loadedCount := 2, loadedMass := 22157, removedCount := 0, removedMass := 0 },
       { id := 7, loadedCount := 1, loadedMass := 6420, removedCount := 0, removedMass := 0 }] } }

/-- 06, A remove beyond the bunk. -/
theorem test_remove_beyond_the_bunk :
    let a := loadedTlu.applyRemove 7 7000 1204
    (a.split.taken, a.split.excess, a.closed, a.tlu.bunkTotal, a.tlu.trip.state) = (6420, 580, false, 22157, .unloading) := by
  decide +kernel

theorem test_set_assortment :
    sees (.setAssortment .cab [9#8]) inRun (sent .cab) = some (some (0x22#8, [])) ∧
    sees (.setAssortment .cab [7#8]) (inRun.setTlu loadedTlu) (fun t => (sent .cab t, t.tlu.current)) =
      some (some (0#8, []), 7) := by decide +kernel

theorem test_define_assortment :
    sees (.defineAssortment .cab [9#8]) (inRun.setTlu loadedTlu) (fun t => (sent .cab t, t.tlu.table[3].map (·.id))) =
      some (some (0#8, []), some 9) := by decide +kernel

theorem test_delete_with_a_bunk :
    sees (.deleteAssortment .cab [7#8]) (inRun.setTlu loadedTlu) (sent .cab) = some (some (0x23#8, [])) := by decide +kernel

theorem test_totals_reset :
    sees (.totalsReset .cab []) (inRun.setTlu { loadedTlu with table := loadedTlu.table.set 2 (some { AsnSlot.fresh 7 with
        loadedCount := 3, loadedMass := 900, bunkCount := 1, bunkMass := 400, removedCount := 2, removedMass := 500 }) })
      (fun t => t.tlu.table[2].map (fun x => (x.loadedCount, x.loadedMass, x.removedMass))) = some (some (1, 400, 0)) := by decide +kernel

/-- R126: 22,157 + 6,420 = 28,577 written off. -/
theorem test_trip_close :
    sees (.tripClose .cab []) (inRun.setTlu loadedTlu) (fun t => (sent .cab t, t.tlu.trip.state, t.tlu.bunkTotal)) =
      some (some (0#8, [0#8, 0#8, 0x6F#8, 0xA1#8]), .empty, 0) := by decide +kernel

/-- A record of lift n with a mass. -/
def logged (n : Nat) (o : LiftOutcome) (m : Nat) : LogRecord :=
  recordOf { tag := 0, origin := .field_, dest := .bunk, outcome := o, mass := some m, n := 64, flags := (liftIn .gripped).flags
             peakU := 0, reach := .none_, slew := .none_ } n 7 loadedTlu.applyNothing

/-- R128, R129: the void of the ADD of 6,420. -/
theorem test_void_lift :
    sees (.voidLift .cab [0x04#8, 0xB2#8]) (inRun.setTlu { loadedTlu with log := [logged 1202 .add 6420] })
      (fun t => (t.tlu.table[2].map (fun x => (x.loadedMass, x.bunkMass)), t.tlu.log.map (·.voided), t.tlu.bunkTotal)) =
      some (some (0, 0), [true], 22157) := by decide +kernel

theorem test_void_lift_unknown : sees (.voidLift .cab [0#8, 5#8]) inRun (sent .cab) = some (some (0x22#8, [])) := by decide +kernel

/-- R130: lift 1,203, UNZONED 5,110, assigned ADD: 28,577 + 5,110 = 33,687. -/
theorem test_assign_lift :
    sees (.assignLift .cab [0x04#8, 0xB3#8, 0#8]) (inRun.setTlu { loadedTlu with log := [logged 1203 .unzoned 5110] })
      (fun t => (t.tlu.table[2].map (·.bunkMass), t.tlu.log.map (fun r => (r.assigned, r.outcome)), t.tlu.bunkTotal)) =
      some (some 11530, [(true, .add)], 33687) := by decide +kernel

theorem test_reads_of_the_tally :
    sees (.tallyRead .cab [5#8]) inRun (sent .cab) = some (some (0x20#8, [])) ∧
    sees (.logRead .cab [0#8, 0#8, 9#8]) inRun (sent .cab) = some (some (0x22#8, [])) ∧
    sees (.tripRead .cab [1#8, 1#8, 1#8]) inRun (sent .cab) = some (some (0x22#8, [])) := by decide +kernel

/-! ### Capacity: 07, Worked sequence -/

/-- The chart and the lift of 07's worked sequence. -/
def onTheSlope : State :=
  (inRun.setCfg { inRun.cfg with cap := { defaultCap with
    chart := ((defaultCap.chart.set 31 { cap := 9800, valid := true, derate := true }).set 32
      { cap := 9400, valid := true, derate := true }) } }).setCpm
    { inRun.cpm with liftCopy := .carrying, poseCopy := posed }

theorem test_slope_into_warn :
    let t := cpmLive { val := 7450, ok := true } onTheSlope
    (t.cpm.page, t.cpm.f, t.cpm.cEff, t.cpm.u, t.cpm.monitor, t.hls.masks.cap) = (31, 854, 8173, 912, .warn, 0b100000#6) := by
  decide +kernel

theorem test_slope_into_hold :
    let t := cpmLive { val := 7880, ok := true } (cpmPose { posed with r := { val := 8010, ok := true } } onTheSlope)
    (t.cpm.page, t.cpm.cEff, t.cpm.u, t.cpm.monitor, t.hls.masks.cap) = (32, 7839, 1006, .hold, 0b100111#6) := by decide +kernel

/-- R146, with the defaults: WARN from 900, kept down to 850; HOLD from 1,000, left for WARN at 950. -/
theorem test_monitor_rows :
    ([899, 900, 999, 1000].map (nextMonitor defaultCap .normal) = [.normal, .warn, .warn, .hold]) ∧
    ([849, 850, 999, 1000].map (nextMonitor defaultCap .warn) = [.normal, .warn, .warn, .hold]) ∧
    ([849, 850, 950, 951].map (nextMonitor defaultCap .hold) = [.normal, .warn, .warn, .hold]) := by decide +kernel

/-- HOLD with U = 1,006, as the worked sequence leaves it. -/
def inHold : State :=
  (inRun.setCpm { inRun.cpm with monitor := .hold, u := 1006 }).setHls
    { inRun.hls with masks := { inRun.hls.masks with cap := 0b100111#6 } }

theorem test_permit :
    sees (.permit .cab []) inHold (fun t => (sent .cab t, t.hls.masks.cap, t.cpm.permit)) =
      some (some (0#8, [20#8]), 0b100011#6, some 20100) := by decide +kernel

theorem test_permit_at_1200 :
    sees (.permit .cab []) (inHold.setCpm { inHold.cpm with u := 1200 }) (sent .cab) = some (some (0x14#8, [])) := by decide +kernel

theorem test_permit_expiry :
    sees .permitExpiry ((inHold.setCpm { inHold.cpm with permit := some 100 }).setHls
      { inHold.hls with masks := { inHold.hls.masks with cap := 0b100011#6 } }) (fun t => (t.cpm.permit, t.hls.masks.cap)) =
      some (none, 0b100111#6) := by decide +kernel

theorem test_chart_write :
    sees (.chartWrite .service [31#8, 1#8, 0x26#8, 0x48#8, 3#8]) inService (fun t => (sent .service t, t.cfg.cap.chart[31])) =
      some (some (0#8, []), { cap := 9800, valid := true, derate := true }) := by decide +kernel

theorem test_chart_read_beyond : sees (.chartRead .cab [63#8, 2#8]) inRun (sent .cab) = some (some (0x20#8, [])) := by decide +kernel

theorem test_override_set :
    sees (.overrideSet .service [2#8, 31#8, 0x23#8, 0x28#8, 1#8]) inService (fun t => t.cpm.overrides[2]) =
      some { page := 31, value := 9000, enable := true } := by decide +kernel

/-! ### The watch table: 08 -/

/-- Entry 5 of 08's slope pair, unchained here: DOWNHILL ABOVE 60, HOLD, BOOM_OUT and ALERT. -/
def slopeWatch : WatchDef where
  enable := true
  quantity := .downhill
  mode := .above
  a := 60
  b := 0
  action := .hold
  holdMask := 0b100001#6
  chain := false
  owner := .open_

/-- R160: an INSIDE pair with A > B wraps for SLEW: 350.0° to 10.0°. -/
theorem test_slew_pair_wraps :
    let d := { slopeWatch with quantity := .slew, mode := .inside, a := 3500, b := 100 }
    ([3499, 3500, 0, 100, 101].map (watchHolds d) = [false, true, true, true, false]) ∧
    ([3499, 3500, 0, 100, 101].map (watchHolds { d with mode := .outside }) = [true, false, false, false, true]) := by decide +kernel

def watching : State := inRun.setWt { inRun.wt with made := true, entries := inRun.wt.entries.set 5 (.of slopeWatch) }

theorem test_watch_fires_and_withdraws :
    (wtPose posed watching).hls.masks.watch[5] = 0b100001#6 ∧ (wtPose posed watching).wt.entries[5].hit = true ∧
    (wtPose { posed with t := { val := -40, ok := true } } (wtPose posed watching)).hls.masks.watch[5] = 0#6 := by decide +kernel

/-- Entry 4, LIVE_MASS ABOVE 1 and chained, before entry 5. -/
def pairing : State :=
  inRun.setWt { inRun.wt with
    made := true
    entries := (inRun.wt.entries.set 5 (.of slopeWatch)).set 4 (.of { slopeWatch with quantity := .liveMass, a := 1, chain := true }) }

/-- R165, R166: with the even member matching, the odd one's match raises the pair: both hit flags, the HOLD of the odd index. -/
theorem test_chained_pair_rises :
    let t := wtPose posed (wtLive { val := 2, ok := true } pairing)
    (t.wt.pairs[(2 : Fin 4)], t.wt.entries[(4 : Fin 8)].hit, t.wt.entries[(5 : Fin 8)].hit) = (true, true, true) ∧
    (t.hls.masks.watch[(5 : Fin 8)], t.hls.masks.watch[(4 : Fin 8)]) = (0b100001#6, 0#6) := by decide +kernel

/-- R163, R221, R222: entry 5 unchained, DOWNHILL (6) ABOVE (0), fires REPORT on 85 at a pose update (2). -/
theorem test_unchained_report :
    let s := watching.setWt (watching.wt.setEntry 5 (.of { slopeWatch with action := .report }))
    (wtPose posed s).mpt.cab.queue.map (fun f => (f.kind, f.body)) =
      [(0xC2#8, [5#8, 0xFF#8, 6#8, 0#8, 0#8, 0#8, 0#8, 85#8, 2#8])] ∧
    (wtPose posed (s.setWt { s.wt with made := false })).mpt.cab.queue = [] := by decide +kernel

/-- Entry 4, LIFT_MASS and matching, alone or chained before entry 5 in a pair that matches; a HOLD of each stands. -/
def weighedDown (chain : Bool) : State :=
  (inRun.setWt { inRun.wt with
    made := true, pairs := inRun.wt.pairs.set 2 chain
    entries := (inRun.wt.entries.set 5 { WatchEntry.of slopeWatch with matching := true }).set 4
      { WatchEntry.of { slopeWatch with quantity := .liftMass, chain := chain } with matching := true } }).setHls
    { inRun.hls with masks := { inRun.hls.masks with watch := (inRun.hls.masks.watch.set 5 0b100001#6).set 4 0b100001#6 } }

/-- R162: the closing of the grapple withdraws the entry's own HOLD, or its pair's. -/
theorem test_lift_mass_reset :
    let t (chain : Bool) := wtLift .open_ .gripped (some 0) none (weighedDown chain)
    ((t false).wt.entries[(4 : Fin 8)].matching, (t false).hls.masks.watch[(4 : Fin 8)], (t false).hls.masks.watch[(5 : Fin 8)]) =
      (false, 0#6, 0b100001#6) ∧
    ((t true).wt.entries[(4 : Fin 8)].matching, (t true).wt.pairs[(2 : Fin 4)], (t true).hls.masks.watch[(5 : Fin 8)]) =
      (false, false, 0#6) := by decide +kernel

/-- R171, R172: the cab may not write a LOCKED entry. -/
theorem test_watch_write_locked :
    sees (.watchWrite .cab [5#8, 1#8, 6#8, 0#8, 0#8, 0#8, 0#8, 60#8, 0#8, 0#8, 0#8, 0#8, 1#8, 0x21#8, 0#8, 1#8]) inRun (sent .cab) =
      some (some (0x13#8, [])) := by decide +kernel

theorem test_watch_write_taken :
    sees (.watchWrite .cab [5#8, 1#8, 6#8, 0#8, 0#8, 0#8, 0#8, 60#8, 0#8, 0#8, 0#8, 0#8, 1#8, 0x21#8, 0#8, 0#8]) inRun
      (fun t => t.wt.entries[5].d) = some slopeWatch := by decide +kernel

theorem test_watch_read_index : sees (.watchRead .cab [8#8]) inRun (sent .cab) = some (some (0x20#8, [])) := by decide +kernel

/-- R174: the hit of entry 5 is cleared; the reply carries no flag. -/
theorem test_hit_clear :
    sees (.hitClear .cab [0x20#8]) (wtPose posed watching) (fun t => (t.wt.entries[5].hit, t.hls.masks.watch[5])) =
      some (false, 0b100001#6) := by decide +kernel

theorem test_capture_read_empty : sees (.captureRead .cab []) inRun (sent .cab) = some (some (0x22#8, [])) := by decide +kernel

/-! ### The hold lines: 09 -/

theorem test_hold_manual :
    sees (.holdManual .cab [0x08#8]) inRun (fun t => (sent .cab t, t.hls.masks.levels)) =
      some (some (0#8, [8#8, 8#8]), 0b001000#6) := by decide +kernel

theorem test_hold_manual_unknown_line : sees (.holdManual .cab [0x40#8]) inRun (sent .cab) = some (some (0x20#8, [])) := by decide +kernel

/-- 09, Worked sequence, at 70,004: HOLD_CHANGE for BOOM_OUT, TELE_OUT, LOWER and ALERT, each ACTIVE by CAP. -/
theorem test_hold_changes :
    (present .cap 0b100111#6 inRun).mpt.cab.queue.map (fun f => (f.kind, f.body)) =
      [0#8, 1#8, 2#8, 5#8].map (fun l => (0xC4#8, [l, 1#8, 3#8, 0#8, 4#8])) := by decide +kernel

/-- 09, Worked sequence: a broken LOWER lead: the third mismatch sets FAULT and ALERT. -/
theorem test_third_mismatch :
    sees (.senseExpiry 0#6) ((inHold.setHls { inHold.hls with
        sense := inHold.hls.sense.set 2 { observed := some false, mismatches := 2, fault := false }, senseTimer := 100 }))
      (fun t => (t.hls.sense[2].fault, t.hls.sense[2].mismatches, t.hls.masks.fault, t.hls.sense[5].mismatches)) =
      some (true, 3, 0b100000#6, 1) := by decide +kernel

theorem test_line_fault_clear :
    sees (.lineFaultClear .service [0x04#8]) (inRun.setHls { inRun.hls with
        sense := inRun.hls.sense.set 2 { observed := some false, mismatches := 3, fault := true }
        masks := { inRun.hls.masks with fault := 0b100000#6 } }) (fun t => (t.hls.sense[2].fault, t.hls.masks.fault)) =
      some (false, 0#6) := by decide +kernel

theorem test_lines_read : sees (.linesRead .cab []) inRun (fun t => (sent .cab t).map (·.1)) = some (some 0#8) := by decide +kernel

/-! ### Settings and states: 10 -/

/-- R202: U_hold lowered to 800 takes U_warn to 800 and U_rel to 790: CLAMPED. -/
theorem test_param_write_companions :
    sees (.paramWrite .service [0x34#8, 0#8, 0#8, 0x03#8, 0x20#8]) inService
      (fun t => ((sent .service t).map (·.1), t.cfg.cap.uHold, t.cfg.cap.uWarn, t.cfg.cap.uRel)) =
      some (some 0x01#8, 800, 800, 790) := by decide +kernel

theorem test_param_write_page_size :
    sees (.paramWrite .service [0x30#8, 0#8, 0#8, 0#8, 200#8]) inService (sent .service) = some (some (0x20#8, [])) := by decide +kernel

/-- R201, R202: L2 is 3,600 = 0x0E10. -/
theorem test_param_read :
    sees (.paramRead .cab [0x02#8]) inRun (sent .cab) = some (some (0#8, [2#8, 0#8, 0#8, 0x0E#8, 0x10#8])) := by decide +kernel

theorem test_features :
    sees (.features .service [0x05#8]) inService (fun t => (sent .service t, t.cfg.sw)) =
      some (some (0#8, [5#8]), { dynReject := true, autoZero := false, sectorDerate := true }) := by decide +kernel

theorem test_enter_service :
    sees (.enterService .service []) inRun (fun t => t.stc.op) = some .service ∧
    sees (.enterService .service []) (inRun.setWge { inRun.wge with lift := some (liftIn .carrying) }) (sent .service) =
      some (some (0x10#8, [])) := by decide +kernel

/-- R192, R222: SERVICE (2) from RUN (1). -/
theorem test_state_change_report :
    sees (.enterService .service []) inRun (fun t => t.mpt.cab.tx.map (fun f => (f.kind, f.body))) =
      some (some (0xC9#8, [2#8, 1#8, 0#8])) := by decide +kernel

theorem test_leave_service : sees (.leaveService .service []) inService (fun t => t.stc.op) = some .run := by decide +kernel

theorem test_standby :
    sees (.standby .cab []) inRun (fun t => (t.stc.op, t.hls.masks.levels, t.sbc.bus, t.sbc.busFreeLow)) =
      some (.standby, 0b011111#6, .stopped, true) := by decide +kernel

theorem test_standby_wake :
    sees (.standbyWake .cab 0x01#8 []) inStandby (fun t => (sent .cab t, t.stc.op, t.sbc.bus)) =
      some (some (0x12#8, []), .run, .running) := by decide +kernel

theorem test_commit :
    sees (.commit .service []) inService (fun t => (sent .service t, t.stc.image.invalid, t.stc.commit.isSome)) =
      some (some (0x02#8, []), true, true) := by decide +kernel

theorem test_commit_done_fails :
    sees (.commitDone false) (inService.setStc { inService.stc with commit := some inService.collect })
      (fun t => (t.stc.commit, t.stc.image.invalid)) = some (none, true) := by decide +kernel

/-- R98, R215: TARE with LINK stale is PENDING, and its slot is at once DONE, SENSOR_LOST (0x03) with z. -/
theorem test_tare_without_link :
    sees (.tare .cab []) inRun (fun t => (sent .cab t, t.mpt.slots[(0 : Fin 4)].map (·.state), t.wge.tare)) =
      some (some (0x02#8, []), some (.done [3#8, 0#8, 0#8, 0#8] 5100), none) := by decide +kernel

/-- R98, R103, R36: WRONG_STATE out of OPEN, WRONG_STATE in OPEN, and an address below 0x08. -/
theorem test_delayed_refusals :
    sees (.tare .cab []) (inRun.setWge { inRun.wge with lift := some (liftIn .carrying) }) (sent .cab) = some (some (0x14#8, [])) ∧
    sees (.calSpan .service [0x01#8, 0xF4#8]) inService (sent .service) = some (some (0x14#8, [])) ∧
    sees (.sensorPass .service [0x07#8, 0#8]) inService (sent .service) = some (some (0x20#8, [])) := by decide +kernel

theorem test_restart : sees (.restart .service []) inRun (fun t => (sent .service t, t.stc.restart)) =
    some (some (0#8, []), .replying) := by decide +kernel

/-! ### The ports: 11 -/

/-- R206: STATUS is KIND 0x01 with no body, so CHECK is 0xFFFF; R207: in START the reply is START_BUSY. -/
def startAt (rx : Rx) : State := State.reset.setPort .cab { State.reset.port .cab with rx := rx }

theorem test_bytes_of_a_frame :
    sees (.byteArrival .cab 0xA5#8) State.reset (fun t => (t.port .cab).rx) = some .length ∧
    sees (.byteArrival .cab 0x01#8) (startAt .length) (fun t => (t.port .cab).rx) = some (.content 1 []) ∧
    sees (.byteArrival .cab 0xFF#8) (startAt (.content 1 [0x01#8, 0xFF#8])) (fun t => (sent .cab t, (t.port .cab).rx)) =
      some (some (0x11#8, []), .hunt) ∧
    sees (.byteArrival .cab 0xFE#8) (startAt (.content 1 [0x01#8, 0xFF#8])) (fun t => (sent .cab t, (t.port .cab).rx)) =
      some (none, .hunt) := by decide +kernel

theorem test_gap_and_discards :
    sees (.frameGapTimeout .cab) ((startAt .length).setNow 21) (fun t => (t.port .cab).rx) = some .hunt ∧
    sees (.frameGapTimeout .cab) ((startAt .length).setNow 20) (fun t => (t.port .cab).rx) = some .length ∧
    sees (.frameBadCheck .cab) (startAt .length) (fun t => (t.port .cab).rx) = some .hunt ∧
    sees (.stopBitLow .cab) (startAt .length) (fun t => (t.port .cab).rx) = some .hunt := by decide +kernel

theorem test_unknown_kind : sees (.unknownKind .cab 0x3E#8 []) inRun (sent .cab) = some (some (0x21#8, [])) := by decide +kernel

/-- A port that is sending a reply. -/
def replying : State :=
  inRun.setPort .cab { inRun.port .cab with tx := some { kind := 0x81#8, status := 0#8, body := [] } }

theorem test_frame_held :
    sees (.frameHeld .cab 0x02#8 []) replying (fun t => (t.port .cab).held) = some (some (0x02#8, [])) := by decide +kernel

theorem test_held_frame_handled :
    sees (.heldFrameHandled .cab) (inRun.setPort .cab { inRun.port .cab with held := some (0x3E#8, []) })
      (fun t => (sent .cab t, (t.port .cab).held)) = some (some (0x21#8, []), none) := by decide +kernel

/-- R217: the first report after a loss carries GAP. -/
theorem test_frame_sent_then_report :
    sees (.frameSent .cab) (inRun.setPort .cab { inRun.port .cab with
        tx := some { kind := 0x81#8, status := 0#8, body := [] }, gap := true
        queue := [{ kind := 0xC4#8, status := 0#8, body := [] }] })
      (fun t => (sent .cab t, (t.port .cab).gap)) = some (some (0x01#8, []), false) := by decide +kernel

theorem test_port_break :
    sees (.portBreak .cab) (inRun.setPort .cab { inRun.port .cab with queue := [{ kind := 0xC4#8, status := 0#8, body := [] }] })
      (fun t => ((t.port .cab).queue, (t.port .cab).breakOn)) = some ([], true) := by decide +kernel

theorem test_line_returns :
    sees (.lineReturnsToIdle .cab) (inRun.setPort .cab { inRun.port .cab with breakOn := true })
      (fun t => (t.port .cab).breakOn) = some false := by decide +kernel

theorem test_report_enable :
    sees (.reportEnable .service [0x03#8, 0xFF#8]) inRun (fun t => (sent .service t, t.mpt.service.enable)) =
      some (some (0#8, [0x03#8, 0xFF#8]), 0x3FF#16) ∧
    sees (.reportEnable .service [0x04#8, 0#8]) inRun (sent .service) = some (some (0x20#8, [])) := by decide +kernel

theorem test_discard_expiry :
    sees (.discardExpiry 1) (inRun.setMpt { inRun.mpt with slots := inRun.mpt.slots.set 1 (some
      { port := .cab, kind := .tare, body := [], state := .done [0#8] 100 }) }) (fun t => t.mpt.slots[1].isSome) =
      some false := by decide +kernel

/-- R219: the STATUS body has 63 bytes. -/
theorem test_status_length : sees (.status .cab []) inRun (fun t => (sent .cab t).map (fun x => (x.1, x.2.length))) =
    some (some (0#8, 63)) := by decide +kernel

theorem test_pose_sensors_poll_read :
    sees (.pose .cab []) inRun (fun t => (sent .cab t).map (·.1)) = some (some 0#8) ∧
    sees (.sensors .cab []) inRun (fun t => (sent .cab t).map (·.1)) = some (some 0#8) ∧
    sees (.pollRead .cab []) inRun (sent .cab) = some (some (0#8, [0#8])) := by decide +kernel

/-- R197, R207: the cab lockout of SERVICE, and a request the port does not admit. -/
theorem test_lockout :
    sees (.standby .cab []) inService (sent .cab) = some (some (0x13#8, [])) ∧
    sees (.standby .service []) inService (sent .service) = some (some (0x14#8, [])) := by decide +kernel

/-! ### Witnesses: the hypotheses of each statement are met -/

/-- The queue's front command exists. -/
theorem witness_StepRunsFrontCommand : (inRun.setPending [.stretchTimeout]).pending = [.stretchTimeout] := rfl

theorem witness_CommandsLeaveTheQueue : ∃ t, exec .stretchTimeout (inRun.setPending [.powerOn]) = .next t := ⟨_, rfl⟩

/-- Powered with nothing that waits; with the round timer's expiry waiting; without the supply. -/
theorem witness_CommandsLeaveTheQueue_time :
    let come (s : State) (timer : Option Nat) := ∃ d, timer = some d ∧ d ≤ s.now
    (inRun.pending = [] ∧ inRun.powered = true ∧
      ¬(come inRun inRun.sbc.roundTimer ∨ come inRun inRun.sbc.attemptTimer ∨
        come inRun (inRun.wge.tare.map (fun t => t.deadline)) ∨ come inRun inRun.cpm.permit ∨
        inRun.hls.senseTimer ≤ inRun.now ∨ inRun.stc.restart = .due ∨
        (∃ d, (inRun.sbc.phase = .pulse d ∨ inRun.sbc.phase = .wait d) ∧ d ≤ inRun.now) ∨
        (∃ e ∈ inRun.sbc.entries, e.pd.enable = true ∧ e.stale = false ∧
          ∃ x, e.slot = some x ∧ x.time + staleLimit e.pd.role < inRun.now) ∨
        (∃ p, ((inRun.port p).rx ≠ .hunt ∧ (inRun.port p).lastByte + 20 < inRun.now) ∨
          ((inRun.port p).held.isSome = true ∧ (inRun.port p).replyBusy = false)) ∨
        (∃ (i : Fin 4) (d : DelayedSlot) (result : List Byte) (u : Nat), inRun.mpt.slots[i] = some d ∧
          d.state = .done result u ∧ u ≤ inRun.now))) ∧
    ((inRun.setNow 110).pending = [] ∧ come (inRun.setNow 110) (inRun.setNow 110).sbc.roundTimer) ∧
    ({ inRun with powered := false }.pending = [] ∧ { inRun with powered := false }.powered = false) := by
  have due {timer : Option Nat} (h : ∀ d ∈ timer, 100 < d) : ¬∃ d, timer = some d ∧ d ≤ inRun.now :=
    fun ⟨d, e, l⟩ => absurd (h d e) (Nat.not_lt.mpr l)
  refine ⟨⟨rfl, rfl, ?_⟩, ⟨rfl, 110, rfl, Nat.le_refl _⟩, rfl, rfl⟩
  rintro (h | h | h | h | h | h | ⟨d, h | h, -⟩ | ⟨e, h, -⟩ | ⟨p, h⟩ | ⟨i, d, _, _, h, -⟩)
  · exact due (by decide +kernel) h
  · exact due (by decide +kernel) h
  · exact due (by decide +kernel) h
  · exact due (by decide +kernel) h
  · exact absurd h (by decide +kernel)
  · exact RestartPhase.noConfusion h
  · exact BusPhase.noConfusion h
  · exact BusPhase.noConfusion h
  · exact absurd h List.not_mem_nil
  · cases p <;> exact absurd h (by decide +kernel)
  · match i with
    | 0 | 1 | 2 | 3 => exact absurd h (by decide +kernel +revert)

/-- Every clause: a marker intact, a marker lost, a reset due, a RESTART reply being sent. -/
theorem witness_ResetsAndSupply :
    inRun.stc.marker = true ∧ (inRun.setStc { inRun.stc with marker := false }).stc.marker = false ∧
    (inRun.setStc { inRun.stc with restart := .due }).stc.restart = .due ∧
    (let s := (inRun.setStc { inRun.stc with restart := .replying }).setPort .service
        { inRun.port .service with tx := some { kind := 0xBC#8, status := 0#8, body := [] } }
     s.powered = true ∧ s.stc.restart = .replying ∧ s.mpt.service.tx = some { kind := 0xBC#8, status := 0#8, body := [] }) := by
  decide +kernel

/-- Both clauses: an image that a COMMIT has stored, and one that carries the invalid mark. -/
theorem witness_PreloadInstalls :
    (let i := State.reset.stc.image
     State.reset.powered = true ∧ State.reset.stc.preloading = true ∧ State.reset.stc.op = .start ∧
       State.reset.sbc.bus = .stopped ∧ State.reset.sbc.stopping = false ∧
       ¬(i.invalid = false ∧ i.check = Config.settingsCheck i.contents)) ∧
    (let s := State.reset.setStc { Stc.reset with
        image := { contents := inRun.collect, check := Config.settingsCheck inRun.collect, invalid := false } }
     s.stc.preloading = true ∧ s.stc.op = .start ∧ s.stc.image.invalid = false ∧
       s.stc.image.check = Config.settingsCheck s.stc.image.contents) := by
  refine ⟨⟨rfl, rfl, rfl, rfl, rfl, fun h => ?_⟩, rfl, rfl, rfl, rfl⟩
  exact Bool.noConfusion h.1

/-- A tally with figures keeps both laws, and a step goes on from it. -/
theorem witness_TallyLawsKept :
    (∀ x ∈ loadedTlu.slots, x.inLimits ∧ x.balanced) ∧ loadedTlu.wellKept ∧
    ∃ t, step (inRun.setTlu loadedTlu) = .next t := by
  refine ⟨?_, ?_, ⟨_, rfl⟩⟩
  · unfold AsnSlot.inLimits AsnSlot.balanced; decide +kernel
  · unfold Tlu.wellKept; decide +kernel

theorem witness_StateAndFaultMasksKept : inRun.stateHeld ∧ inRun.faultHeld ∧ ∃ t, step inRun = .next t := by
  unfold State.stateHeld State.faultHeld
  exact ⟨by decide +kernel, by decide +kernel, _, rfl⟩

theorem witness_CapMaskKept : inHold.capHeld ∧ inHold.cpm.inRanges ∧ ∃ t, step inHold = .next t := by
  unfold State.capHeld Cpm.inRanges
  exact ⟨by decide +kernel, by decide +kernel, _, rfl⟩

/-- A HOLD entry that matches, and its mask presented. -/
theorem witness_WatchMasksKept :
    (wtPose posed watching).watchHeld ∧ (wtPose posed watching).hls.masks.watch[5] = 0b100001#6 ∧
    ∃ t, step (wtPose posed watching) = .next t := by
  unfold State.watchHeld
  exact ⟨by decide +kernel, by decide +kernel, _, rfl⟩

theorem witness_BusLawsKept : inRun.busLawful ∧ inRun.sbc.inRanges ∧ ∃ t, step inRun = .next t := by
  unfold State.busLawful Sbc.inRanges
  exact ⟨by decide +kernel, by decide +kernel, _, rfl⟩

theorem witness_PortLawsKept :
    inRun.mpt.cab.served ∧ inRun.mpt.service.served ∧ inRun.mpt.queuesFit ∧ ∃ t, step inRun = .next t := by
  unfold PortState.served Mpt.queuesFit
  exact ⟨by decide +kernel, by decide +kernel, by decide +kernel, _, rfl⟩

/-- RUN with a TARE working in slot 0. -/
def taring : State :=
  (inRun.setMpt { inRun.mpt with
    slots := inRun.mpt.slots.set 0 (some { port := .cab, kind := .tare, body := [], state := .working }) }).setWge
    { inRun.wge with tare := some { port := .cab, count := 3, sumC := 0, deadline := 100 } }

/-- A working CAL_SPAN with a lift in CARRYING. -/
theorem witness_DelayedSlotsKept_cal :
    let s := inRun.setWge { inRun.wge with cal := some { mref := 500, count := 0, sumC := 0 }, lift := some (liftIn .carrying) }
    s.calHeld ∧ s.wge.cal.isSome = true ∧ ∃ t, step s = .next t := by
  unfold State.calHeld
  exact ⟨by decide +kernel, by decide +kernel, _, rfl⟩

theorem witness_DelayedSlotsKept : taring.slotsLawful ∧ ∃ t, step taring = .next t := by
  refine ⟨⟨fun i j d e hij hi hj => ?_, fun i d hi => ?_⟩, _, rfl⟩
  · match i, j with
    | 0, 0 => exact absurd rfl hij
    | 0, 1 | 0, 2 | 0, 3 => exact absurd hj (by decide +kernel +revert)
    | 1, _ | 2, _ | 3, _ => exact absurd hi (by decide +kernel +revert)
  · match i with
    | 0 =>
      have h : d = { port := .cab, kind := .tare, body := [], state := .working } := (Option.some.inj hi).symm
      subst h
      exact ⟨fun _ => rfl, fun h => DelayedKind.noConfusion h⟩
    | 1 | 2 | 3 => exact absurd hi (by decide +kernel +revert)

theorem witness_SettingsStayOrdered : inRun.stc.ordered ∧ ∃ t, step inRun = .next t := by
  unfold Stc.ordered SettingsOrdered
  refine ⟨⟨by decide +kernel, by decide +kernel, fun x h => ?_⟩, _, rfl⟩
  exact absurd h (by decide +kernel +revert)

theorem witness_ZeroAndSpanWriters :
    carriesAnyFrame .tareTimeout = false ∧ isStart .tareTimeout = false ∧ ∃ t, exec .tareTimeout taring = .next t :=
  ⟨rfl, rfl, _, rfl⟩

theorem witness_OperatingStateChangers :
    carriesAnyFrame .tareTimeout = false ∧ isStart .tareTimeout = false ∧ taring.stc.op = .run ∧
    ∃ t, exec .tareTimeout taring = .next t := ⟨rfl, rfl, rfl, _, rfl⟩

/-- Row 1; LOCKED; WRONG_STATE on either port; BAD_FIELD; an unknown kind in each state. -/
theorem witness_RefusedFrames :
    (Ready .cab State.reset ∧ State.reset.stc.op = .start) ∧
    (Ready .cab inService ∧ admits .cab .service .standby = false) ∧
    (Ready .cab inRun ∧ admits .cab .run .commit = false) ∧
    (Ready .service inRun ∧ admits .service .run .commit = false) ∧
    (Ready .cab inRun ∧ admits .cab .run .status = true ∧ bodyFits .status [0#8] = false) ∧
    (Req.ofCode 0x3E#8 = none ∧ Ready .cab inStandby ∧ inStandby.stc.op = .standby) := by
  unfold Ready; decide +kernel

theorem witness_StandbyWakes :
    Ready .cab inStandby ∧ inStandby.stc.op = .standby ∧ inStandby.sbc.bus = .stopped ∧ inStandby.sbc.stopping = false := by
  unfold Ready; decide +kernel

/-- A reply being sent with no frame held; a frame held; a held frame whose turn has come. -/
theorem witness_HeldFrames :
    (replying.powered = true ∧ (replying.port .cab).breakOn = false ∧ (replying.port .cab).held = none ∧
      (replying.port .cab).replyBusy = true) ∧
    (let s := inRun.setPort .cab { inRun.port .cab with held := some (0x02#8, []) }
     s.powered = true ∧ (s.port .cab).breakOn = false ∧ (s.port .cab).rx = .hunt ∧
       (s.port .cab).held = some (Req.pose.code, []) ∧ (s.port .cab).replyBusy = false ∧ s.stc.restart ≠ .due) := by
  decide +kernel

/-- HUNT; LENGTH and CONTENT within 20 ms, and at 20; a gap of 21. -/
theorem witness_ReceiverTable :
    ((startAt .hunt).powered = true ∧ ((startAt .hunt).port .cab).breakOn = false ∧ ((startAt .hunt).port .cab).rx = .hunt) ∧
    (((startAt .length).port .cab).rx = .length ∧ ((startAt .length).setNow 20).now ≤ ((startAt .length).port .cab).lastByte + 20) ∧
    (((startAt (.content 1 [1#8])).port .cab).rx = .content 1 [1#8] ∧ [1#8].length + 1 < 1 + 2) ∧
    (((startAt .length).port .cab).rx ≠ .hunt ∧ ((startAt .length).port .cab).lastByte + 20 < ((startAt .length).setNow 21).now) := by
  decide +kernel

theorem witness_WireFramesAreReceived : ([1#8, 2#8] : List Byte).length ≤ 249 := by decide

/-- A kind that is not in the catalogue, with its CHECK. -/
theorem witness_CompletingByteIsTheFrame_unknown :
    let s := startAt (.content 1 [0x3E#8, 0xFF#8])
    Ready .cab s ∧ s.now ≤ (s.port .cab).lastByte + 20 ∧ checkPasses 1 [0x3E#8, 0xFF#8, 0xC2#8] = true ∧
      Req.ofCode (byteAt [0x3E#8, 0xFF#8, 0xC2#8] 0) = none := by
  unfold Ready; decide +kernel

/-- STATUS with CHECK 0xFFFF, complete with its last byte; and the same with a wrong last byte. -/
theorem witness_CompletingByteIsTheFrame :
    let s := startAt (.content 1 [0x01#8, 0xFF#8])
    Ready .cab s ∧ (s.port .cab).rx = .content 1 [0x01#8, 0xFF#8] ∧ [0x01#8, 0xFF#8].length = 1 + 1 ∧
      s.now ≤ (s.port .cab).lastByte + 20 ∧ checkPasses 1 [0x01#8, 0xFF#8, 0xFF#8] = true ∧
      Req.status.code = byteAt [0x01#8, 0xFF#8, 0xFF#8] 0 ∧ checkPasses 1 [0x01#8, 0xFF#8, 0xFE#8] = false := by
  unfold Ready; decide +kernel

/-- A reply waiting; a report waiting; nothing waiting. -/
theorem witness_TransmitterOrder :
    let f : OutFrame := { kind := 0x81#8, status := 0#8, body := [] }
    let q := { inRun.port .cab with tx := some f }
    let s (x : PortState) := inRun.setPort .cab x
    ((s { q with reply := some f }).powered = true ∧ (s q).stc.restart = .none_ ∧
      ((s { q with reply := some f }).port .cab).tx = some f ∧ ((s { q with reply := some f }).port .cab).reply = some f) ∧
    (((s { q with queue := [f] }).port .cab).reply = none ∧ ((s { q with queue := [f] }).port .cab).held = none ∧
      ((s { q with queue := [f] }).port .cab).queue = [f]) ∧
    (((s q).port .cab).reply = none ∧ ((s q).port .cab).queue = []) := by decide +kernel

theorem witness_PortBreak :
    (inRun.powered = true ∧ inRun.stc.restart = .none_ ∧ (inRun.port .cab).breakOn = false) ∧
    (let s := inRun.setPort .cab { inRun.port .cab with breakOn := true }
     s.powered = true ∧ (s.port .cab).breakOn = true) := by decide +kernel

theorem witness_ReportRules : Admitted .cab .reportEnable [0x03#8, 0xFF#8] inRun ∧ Admitted .service .reportEnable [0x04#8, 0#8] inRun := by
  unfold Admitted Ready; decide +kernel

theorem witness_StatusAndBusReads :
    Admitted .cab .status [] inRun ∧ Admitted .service .pose [] inService ∧ Admitted .cab .sensors [] inRun ∧
    Admitted .cab .pollRead [] inRun ∧ Admitted .cab .linesRead [] inService := by
  unfold Admitted Ready; decide +kernel

/-- Each clause at the ends of its range. -/
theorem witness_RecordAndTableReads :
    (Admitted .cab .tallyRead [1#8] inRun ∧ Admitted .cab .tallyRead [4#8] inRun ∧ Admitted .cab .tallyRead [5#8] inRun) ∧
    (Admitted .cab .logRead [0#8, 0#8, 1#8] inRun ∧ Admitted .cab .logRead [0#8, 0xFF#8, 0xFF#8] inRun) ∧
    (Admitted .cab .logRead [1#8, 0#8, 1#8] inRun ∧ Admitted .cab .logRead [1#8, 0#8, 8#8] inRun) := by
  unfold Admitted Ready; decide +kernel

theorem witness_RecordAndTableReads_trip :
    (Admitted .cab .tripRead [0#8, 0#8, 1#8] inRun ∧ Admitted .cab .tripRead [0#8, 0#8, 2#8] inRun) ∧
    (Admitted .cab .tripRead [1#8, 1#8, 1#8] inRun ∧ Admitted .cab .tripRead [1#8, 8#8, 2#8] inRun) := by
  unfold Admitted Ready; decide +kernel

/-- The fields that are out of their sets, at the ends of the ranges. -/
theorem witness_RecordAndTableReads_refused :
    (Admitted .cab .logRead [2#8, 0#8, 1#8] inRun ∧ Admitted .cab .logRead [0#8, 0#8, 0#8] inRun ∧
      Admitted .cab .logRead [1#8, 0#8, 0#8] inRun ∧ Admitted .cab .logRead [1#8, 0#8, 9#8] inRun) ∧
    (Admitted .cab .tripRead [2#8, 1#8, 1#8] inRun ∧ Admitted .cab .tripRead [0#8, 1#8, 0#8] inRun ∧
      Admitted .cab .tripRead [0#8, 1#8, 3#8] inRun ∧ Admitted .cab .tripRead [1#8, 0#8, 1#8] inRun ∧
      Admitted .cab .tripRead [1#8, 9#8, 1#8] inRun) := by
  unfold Admitted Ready; and_intros <;> decide +kernel

theorem witness_RecordAndTableReads_tables :
    (Admitted .cab .chartRead [63#8, 1#8] inRun ∧ Admitted .cab .chartRead [63#8, 2#8] inRun) ∧
    Admitted .cab .watchRead [] inRun ∧ Admitted .cab .watchRead [BitVec.ofNat 8 7] inRun ∧ Admitted .cab .watchRead [8#8] inRun ∧
    Admitted .cab .paramRead [1#8] inRun ∧ Admitted .cab .paramRead [6#8] inRun := by
  unfold Admitted Ready; decide +kernel

/-- Each row of R23 has an observation, and each role's range its ends. -/
theorem witness_PollOutcomeRows :
    (lineLow.lowAtStart = true ∨ lineLow.lowAtStop = true) ∧
    recordValue (record 1#8 0#8 0x0E#8 0x0F#8) = 3599 ∧ recordValue (record 1#8 0xFF#8 0xFE#8 0xD4#8) = -300 ∧
    recordValue (record 1#8 0#8 0x06#8 0xD6#8) = 1750 ∧ recordValue (record 1#8 0#8 0x0F#8 0xA0#8) = 4000 ∧
    judgePoll false false .slew (heardRecord (record 1#8 0#8 0x0E#8 0x0F#8)) = .ok ∧
    judgePoll false false .slew (heardRecord (record 1#8 0#8 0x0E#8 0x10#8)) = .badValue ∧
    judgePoll true false .slew { heardRecord (record 1#8 0#8 0#8 0#8) with acked := false } = .waking := by decide +kernel

/-- OK; WAKING; STUCK as the first, and as the third within 1,000 ms. -/
theorem witness_PollTransactionEnds :
    let e := { entryOf .slew 0x21 0 90 with expectWaking := true }
    let s := polling e
    let t : Txn := { kind := .poll .slew 0x21, stretched := false, discarded := false }
    s.powered = true ∧ s.sbc.bus = .running ∧ s.sbc.stopping = false ∧ s.sbc.restartPending = false ∧ s.sbc.txn = some t ∧
      s.sbc.entryOf .slew = some e ∧ judgePoll true false .slew (heardRecord (record 1#8 0#8 0#8 0#8)) = .ok ∧
      judgePoll true false .slew { heardRecord (record 1#8 0#8 0#8 0#8) with acked := false } = .waking ∧
      judgePoll true false .slew lineLow = .stuck ∧ s.sbc.thirdStuck s.now = false ∧
      { s.sbc with stuckTimes := [0, 50] }.thirdStuck 1000 = true ∧ { s.sbc with stuckTimes := [0, 50] }.thirdStuck 1001 = false := by
  decide +kernel

/-- A poll in progress whose entry a POLL_WRITE has taken away. -/
def discarding : State :=
  let s := polling (entryOf .slew 0x21 0 90)
  s.setSbc { s.sbc with txn := some { kind := .poll .slew 0x21, stretched := false, discarded := true } }

/-- STOPPED with a poll still in progress, a wake having come meanwhile or not. -/
def stopping (wake : Bool) : State :=
  let s := polling (entryOf .slew 0x21 0 90)
  (s.setStc { s.stc with op := if wake then .run else .standby }).setSbc { s.sbc with
    bus := .stopped, stopping := true, startPending := wake, roundTimer := none, roundActive := false }

/-- A first sample after a standby, of SLEW and of LINK; a discarded poll, the line high and low; a stopping bus, to stay so and to start again. -/
theorem witness_PollTransactionEnds_others :
    (let e := { entryOf .slew 0x21 0 90 with firstDue := true }
     (polling e).sbc.entryOf .slew = some e ∧ e.pd.enable = true ∧
       judgePoll e.expectWaking false .slew (heardRecord (record 1#8 0#8 0#8 0#8)) = .ok) ∧
    (let e := { entryOf .link 0x20 0 90 with firstDue := true }
     let s := polling e
     s.sbc.entryOf .link = some e ∧ e.pd.enable = true ∧ s.cfg.sw.autoZero = true ∧ s.wge.lift = none ∧ s.wge.tare = none ∧
       judgePoll e.expectWaking false .link (heardRecord (record 1#8 0#8 0#8 0#8)) = .ok) ∧
    (discarding.powered = true ∧ discarding.sbc.bus = .running ∧ discarding.sbc.stopping = false ∧
      discarding.sbc.restartPending = false ∧
      discarding.sbc.txn = some { kind := .poll .slew 0x21, stretched := false, discarded := true } ∧
      discarding.sbc.thirdStuck discarding.now = false ∧ { discarding.sbc with stuckTimes := [0, 50] }.thirdStuck 1000 = true ∧
      (heardRecord (record 1#8 0#8 0#8 0#8)).lowAtStart = false ∧ lineLow.lowAtStart = true) ∧
    (∀ wake, (stopping wake).powered = true ∧ (stopping wake).sbc.bus = .stopped ∧ (stopping wake).sbc.stopping = true ∧
      (stopping wake).sbc.startPending = wake ∧
      (stopping wake).sbc.txn = some { kind := .poll .slew 0x21, stretched := false, discarded := false } ∧
      (stopping wake).sbc.entryOf .slew = some (entryOf .slew 0x21 0 90)) := by decide +kernel

/-- RUN with a passthrough in progress. -/
def passing : State :=
  inRun.setSbc { inRun.sbc with
    txn := some { kind := .pass, stretched := false, discarded := false }
    pass := some { addr := 0x40, count := 2, writes := [] } }

theorem witness_StretchAndPassthrough :
    passing.powered = true ∧ passing.sbc.bus = .running ∧ passing.sbc.stopping = false ∧ passing.sbc.restartPending = false ∧
    passing.sbc.txn = some { kind := .pass, stretched := false, discarded := false } ∧
    passing.sbc.pass = some { addr := 0x40, count := 2, writes := [] } := by decide +kernel

/-- RUNNING with a due entry, with none, and with a transaction; and RECOVERING. -/
theorem witness_RoundTimerRules :
    let s := (inRun.setSbc { inRun.sbc with entries := [entryOf .link 0x20 0 0] }).setNow 110
    s.powered = true ∧ s.sbc.roundTimer = some 110 ∧ 110 ≤ s.now ∧ s.sbc.bus = .running ∧ s.sbc.restartPending = false ∧
      s.sbc.txn = none ∧ inRun.sbc.entries = [] ∧ (polling (entryOf .link 0x20 0 0)).sbc.txn.isSome = true ∧
      { s.sbc with bus := .recovering }.bus ≠ .running := by decide +kernel

/-- RUN with the pose roles held, as the worked case of 03 has them, and every role fresh. -/
def posing : State :=
  (inRun.setSbc { inRun.sbc with entries := [entryOf .slew 0x21 900 90, entryOf .main 0x22 350 90, entryOf .outer 0x23 1250 90,
      entryOf .tele 0x24 1200 90, entryOf .tilt 0x25 (40 * 4096 + 4011) 90] }).setPos
    { Pos.reset with fresh := { slew := true, main := true, outer := true, tele := true, tilt := true } }

/-- A role held fresh, marked stale, and absent; TELE in each row of R47; a pose valid and not; a rate at its first and a later sample. -/
theorem witness_StaleEvents_pose :
    (posing.pos.fresh.slew = true ∧ posing.sbc.heldValue .slew = some 900 ∧ inRun.pos.fresh.slew = false ∧
      inRun.sbc.heldValue .slew = none) ∧
    (inRun.sbc.listed .tele = false ∧ posing.sbc.listed .tele = true ∧ posing.pos.fresh.tele = true ∧
      posing.sbc.heldValue .tele = some 1200) ∧
    (let s := posing.setSbc { posing.sbc with entries := [{ entryOf .tele 0x24 0 0 with slot := none }] }
     s.sbc.listed .tele = true ∧ s.sbc.heldValue .tele = none) ∧
    ((recompute posing).pos.pose.valid = true ∧ (recompute inRun).pos.pose.valid = false ∧ (recompute posing).pos.pose.t.ok = true) ∧
    (let m : RateMem := { value := 3590, time := 90, rate := 0 }
     { posing.pos with slewMem := some m }.slewMem = some m ∧ posing.pos.mainMem = none ∧
       m.time ≤ ({ value := 10, mark := false, time := 90 } : Sample).time) := by decide +kernel

/-- LINK at 41 ms, GRIP at 101 ms, and a role of the pose. -/
theorem witness_StaleEvents :
    (let s := polling (entryOf .link 0x20 0 59)
     s.powered = true ∧ s.sbc.listedEntry .link = some (entryOf .link 0x20 0 59) ∧ 59 + staleLimit .link < s.now) ∧
    (let s := (polling (entryOf .grip 0x26 0 0)).setNow 101
     s.sbc.listedEntry .grip = some (entryOf .grip 0x26 0 0) ∧ 0 + staleLimit .grip < s.now) ∧
    (let s := (polling (entryOf .tilt 0x25 0 0)).setNow 501
     s.sbc.listedEntry .tilt = some (entryOf .tilt 0x25 0 0) ∧ 0 + staleLimit .tilt < s.now) ∧
    (let s := (polling (entryOf .slew 0x21 0 0)).setNow (staleLimit .slew + 1)
     s.sbc.listedEntry .slew = some (entryOf .slew 0x21 0 0) ∧ 0 + staleLimit .slew < s.now) := by decide +kernel

/-- Each clause has a bus that meets it, at the deadline. -/
theorem witness_RecoveryTimers :
    let b := inRun.sbc
    inRun.powered = true ∧ 100 ≤ inRun.now ∧ { b with phase := .pulse 100 }.phase = .pulse 100 ∧
      ({ b with phase := .wait 100, bus := .recovering }.bus = .recovering ∧
        { b with phase := .wait 100, bus := .recovering }.thirdStuck 100 = false ∧
        { b with phase := .wait 100, bus := .recovering, stuckTimes := [10, 20] }.thirdStuck 100 = true) ∧
      ({ b with attemptTimer := some 100, bus := .down }.attemptTimer = some 100 ∧
        { b with attemptTimer := some 100, bus := .down }.phase = .idle ∧
        { b with attemptTimer := some 100, bus := .down }.txn = none) ∧
      ({ b with entries := [entryOf .link 0x20 0 0] }.entries.find? (fun x => x.pd.enable) = some (entryOf .link 0x20 0 0) ∧
        ∀ x ∈ b.entries, x.pd.enable = false) := by decide +kernel

/-- DOWN with an attempt's poll in progress: OK, WAKING, another outcome; and a poll that is discarded. -/
theorem witness_RecoveryTimers_attempt :
    let e := { entryOf .slew 0x21 0 90 with failures := 3, expectWaking := true }
    let t (gone : Bool) : Txn := { kind := .attempt .slew 0x21, stretched := false, discarded := gone }
    let s (gone : Bool) := inRun.setSbc { inRun.sbc with
      bus := .down, attemptTimer := some 900, entries := [e], txn := some (t gone) }
    (∀ gone, (s gone).powered = true ∧ (s gone).sbc.bus = .down ∧ (s gone).sbc.stopping = false ∧ (s gone).sbc.txn = some (t gone)) ∧
    (s false).sbc.entryOf .slew = some e ∧
    judgePoll true false .slew (heardRecord (record 1#8 0#8 0#8 0#8)) = .ok ∧
    judgePoll true false .slew { heardRecord (record 1#8 0#8 0#8 0#8) with acked := false } = .waking ∧
    judgePoll true false .slew lineLow = .stuck := by decide +kernel

/-- A waiting BUS_RESTART with a poll, then with a passthrough, in progress, and a third STUCK within 1,000 ms or not. -/
theorem witness_BusRestartRows_waiting :
    (let s := (polling (entryOf .slew 0x21 0 90))
     let b := { s.sbc with restartPending := true, roundActive := false }
     (s.setSbc b).powered = true ∧ b.bus = .running ∧ b.stopping = false ∧
       b.txn = some { kind := .poll .slew 0x21, stretched := false, discarded := false } ∧
       b.entryOf .slew = some (entryOf .slew 0x21 0 90) ∧ b.thirdStuck 100 = false ∧
       judgePoll false false .slew (heardRecord (record 1#8 0#8 0#8 0#8)) = .ok ∧
       { b with stuckTimes := [10, 20] }.thirdStuck 100 = true) ∧
    (let b := { passing.sbc with restartPending := true }
     b.bus = .running ∧ b.stopping = false ∧ b.txn = some { kind := .pass, stretched := false, discarded := false } ∧
       b.pass = some { addr := 0x40, count := 2, writes := [] }) := by decide +kernel

theorem witness_BusRestartRows :
    Admitted .service .busRestart [] inRun ∧ Admitted .service .busRestart [] passing ∧
    Admitted .service .busRestart [] (passing.setSbc { passing.sbc with restartPending := true }) ∧
    Admitted .service .busRestart [] (inRun.setSbc { inRun.sbc with bus := .recovering }) ∧
    Admitted .service .busRestart [] (inRun.setSbc { inRun.sbc with bus := .down }) ∧
    Admitted .service .busRestart [] (inRun.setSbc { inRun.sbc with bus := .down, phase := .wait 110 }) := by
  unfold Admitted Ready; decide +kernel

/-- A list out of its sets, one that clashes, one while COMMIT works, and one taken. -/
theorem witness_PollWriteTakesTheList :
    (Admitted .service .pollWrite [7#8, 0x20#8, 1#8, 1#8] inService ∧ pollDefsOf [7#8, 0x20#8, 1#8, 1#8] = none ∧
      inService.committing = false) ∧
    (Admitted .service .pollWrite [0#8, 0x20#8, 1#8, 1#8, 1#8, 0x20#8, 1#8, 1#8] inService ∧
      (pollDefsOf [0#8, 0x20#8, 1#8, 1#8, 1#8, 0x20#8, 1#8, 1#8]).map pollClash = some true) ∧
    (let s := inService.setStc { inService.stc with commit := some inService.collect }
     Admitted .service .pollWrite [] s ∧ s.committing = true ∧ (pollDefsOf []).map pollClash = some false) ∧
    (Admitted .service .pollWrite [0#8, 0x08#8, 5#8, 1#8, 1#8, 0x77#8, 10#8, 0#8] inService ∧
      (pollDefsOf [0#8, 0x08#8, 5#8, 1#8, 1#8, 0x77#8, 10#8, 0#8]).map pollClash = some false) := by
  unfold Admitted Ready; decide +kernel

/-- A poll and a passthrough in progress in SERVICE, with a list that keeps the poll's entry and one that does not. -/
theorem witness_PollWriteTakesTheList_txn :
    let poll := inService.setSbc (polling (entryOf .slew 0x21 0 90)).sbc
    let pass := inService.setSbc { inService.sbc with txn := some { kind := .pass, stretched := false, discarded := false } }
    let list : List Byte := [0#8, 0x21#8, 1#8, 1#8]
    (∀ e ∈ poll.sbc.entries, e.pd.role = .slew ∧ e.pd.enable = true ∧ e.slot.isSome = true ∧ e.stale = false) ∧
      Admitted .service .pollWrite list poll ∧ Admitted .service .pollWrite [] poll ∧ Admitted .service .pollWrite [] pass ∧
      poll.committing = false ∧ (pollDefsOf list).map pollClash = some false ∧
      poll.sbc.txn = some { kind := .poll .slew 0x21, stretched := false, discarded := false } ∧
      pass.sbc.txn = some { kind := .pass, stretched := false, discarded := false } := by
  unfold Admitted Ready; and_intros <;> decide +kernel

theorem witness_AssortmentChoiceAndTotals :
    Admitted .cab .setAssortment [0#8] inRun ∧ Admitted .cab .setAssortment [255#8] inRun ∧ Admitted .cab .totalsReset [] inRun := by
  unfold Admitted Ready; decide +kernel

/-- A table with every slot of 1 to 15 held. -/
def fullTlu : Tlu := { Tlu.reset with table := Vector.ofFn (fun i : Fin 16 => some (AsnSlot.fresh i.val)) }

/-- Each row: id 0; a defined id; no free slot; a free slot. -/
theorem witness_DefineAssortmentRows :
    Admitted .cab .defineAssortment [0#8] inRun ∧ Admitted .cab .defineAssortment [3#8] (inRun.setTlu loadedTlu) ∧
    loadedTlu.defined 3 = true ∧ Admitted .service .defineAssortment [99#8] (inService.setTlu fullTlu) ∧
    fullTlu.defined 99 = false ∧ (∀ j : Fin 16, j.val ≠ 0 → fullTlu.table[j].isSome = true) ∧
    Admitted .cab .defineAssortment [99#8] (inRun.setTlu loadedTlu) ∧ loadedTlu.defined 99 = false ∧
    loadedTlu.table[(3 : Fin 16)] = none ∧ (∀ j : Fin 16, j.val ≠ 0 → j.val < 3 → loadedTlu.table[j].isSome = true) := by
  unfold Admitted Ready; decide +kernel

/-- Each row: id 0; not defined; on the bunk; current; listed in the open trip; otherwise. -/
theorem witness_DeleteAssortmentRows :
    let empty7 := loadedTlu.table.set 2 (some (AsnSlot.fresh 7))
    Admitted .cab .deleteAssortment [0#8] inRun ∧ Admitted .cab .deleteAssortment [9#8] inRun ∧ inRun.tlu.slotOf 9 = none ∧
    Admitted .cab .deleteAssortment [7#8] (inRun.setTlu loadedTlu) ∧ loadedTlu.slotOf 7 = some 2 ∧
    ({ loadedTlu with table := empty7, current := 7 }).slotOf 7 = some 2 ∧
    ({ loadedTlu with table := empty7 }).trip.state ≠ .empty ∧
    ({ loadedTlu with table := empty7 }).trip.list.any (fun e => e.id == 7) = true ∧
    ({ loadedTlu with table := empty7, trip := .reset }).trip.state = .empty := by
  unfold Admitted Ready; decide +kernel

/-- The slot 7 of the worked trip and a REMOVE of 7,000. -/
theorem witness_VoidReversesRemove :
    let x := { AsnSlot.fresh 7 with loadedCount := 1, loadedMass := 6420, bunkCount := 1, bunkMass := 6420 }
    let r := { logged 1204 .remove 7000 with taken := 6420, excess := 580, countTaken := true }
    r.outcome = .remove ∧ r.taken = (x.split 7000).taken ∧ r.excess = (x.split 7000).excess ∧
      r.countTaken = (x.split 7000).countTaken ∧ x.bunkMass ≤ massMax ∧ x.bunkCount ≤ countMax ∧
      x.removedMass + 7000 ≤ massMax ∧ x.excessMass + 7000 ≤ massMax ∧ x.removedCount + 1 ≤ countMax ∧
      x.excessCount + 1 ≤ countMax := by decide +kernel

/-- Records for each row of R128 and R130, of the open trip 42: 1201 is an ADD beyond the bunk, 1202 one within it, 1203 UNZONED,
1204 VOIDED, 1205 of another trip, 1206 of an assortment not defined, 1207 without a mass; 1208 and 1209 are REMOVEs of 420 that the
slot of id 3 has not, and that of id 7 has, taken off. -/
def recordedTlu : Tlu :=
  { loadedTlu with
    table := loadedTlu.table.set 2 (some { AsnSlot.fresh 7 with
      loadedCount := 2, loadedMass := 6840, bunkCount := 1, bunkMass := 6420, removedCount := 1, removedMass := 420 })
    log := [{ logged 1201 .add 6421 with asn := 7 }, { logged 1202 .add 6420 with asn := 7 }, { logged 1203 .unzoned 6420 with asn := 7 },
      { logged 1204 .add 10 with voided := true }, { logged 1205 .add 10 with trip := some 9 }, { logged 1206 .unzoned 10 with asn := 99 },
      { logged 1207 .unweighed 0 with mass := none },
      { logged 1208 .remove 420 with asn := 3, taken := 420, countTaken := true },
      { logged 1209 .remove 420 with asn := 7, taken := 420, countTaken := true }] }

/-- The slots of recordedTlu's records 1208 and 1209. -/
theorem recordedTlu_slots :
    recordedTlu.slotOf 3 = some 1 ∧ recordedTlu.slotOf 7 = some 2 ∧ recordedTlu.slotOf 99 = none ∧
    (recordedTlu.table[(1 : Fin 16)]).map (fun x => (x.removedMass, x.bunkMass, x.bunkCount)) = some (0, 22157, 2) ∧
    (recordedTlu.table[(2 : Fin 16)]).map (fun x => (x.removedMass, x.removedCount, x.bunkMass, x.bunkCount, x.loadedMass)) =
      some (420, 1, 6420, 1, 6840) := by decide +kernel

/-- Each refusing row, number 0 and 5 among them, and a taken row of each shape. -/
theorem witness_VoidLift :
    let s := inRun.setTlu recordedTlu
    let has (n : Nat) (o : LiftOutcome) (id : Nat) := (recordedTlu.find n).map (fun r => (r.outcome, r.asn, r.voided)) = some (o, id, false)
    (Admitted .cab .voidLift [0#8, 0#8] s ∧ Admitted .cab .voidLift [0#8, 5#8] s ∧ Admitted .cab .voidLift [0x04#8, 0xB1#8] s) ∧
    recordedTlu.find 5 = none ∧ (recordedTlu.find 1204).map (·.voided) = some true ∧
    (recordedTlu.find 1205).map (·.trip) = some (some 9) ∧
    (recordedTlu.trip.state, recordedTlu.trip.number, (recordedTlu.find 1202).map (·.trip)) = (.loading, 42, some (some 42)) ∧
    has 1201 .add 7 ∧ has 1202 .add 7 ∧ has 1203 .unzoned 7 ∧ has 1206 .unzoned 99 ∧ has 1208 .remove 3 ∧ has 1209 .remove 7 ∧
    ((recordedTlu.find 1201).bind (·.mass), (recordedTlu.find 1202).bind (·.mass)) = (some 6421, some 6420) ∧
    ((recordedTlu.find 1208).map (·.taken), (recordedTlu.find 1209).map (·.taken)) = (some 420, some 420) := by
  unfold Admitted Ready; and_intros <;> decide +kernel

/-- A record of an ADD whose assortment is gone. -/
theorem witness_VoidLift_not_defined :
    let t := { loadedTlu with log := [{ logged 1206 .add 10 with asn := 99 }] }
    Admitted .cab .voidLift [0x04#8, 0xB6#8] (inRun.setTlu t) ∧ (t.find 1206).map (fun r => (r.outcome, r.asn)) = some (.add, 99) ∧
    t.slotOf 99 = none := by
  unfold Admitted Ready; and_intros <;> decide +kernel

/-- Each refusing row of R130, and an UNZONED record assigned ADD, REMOVE, and an outcome that is neither. -/
theorem witness_AssignLiftResult :
    let s := inRun.setTlu recordedTlu
    (Admitted .cab .assignLift [0#8, 0#8, 0#8] s ∧ Admitted .cab .assignLift [0x04#8, 0xB3#8, 2#8] s ∧
      Admitted .cab .assignLift [0#8, 5#8, 1#8] s ∧ Admitted .cab .assignLift [0x04#8, 0xB3#8, 0#8] s ∧
      Admitted .cab .assignLift [0x04#8, 0xB3#8, 1#8] s) ∧
    (recordedTlu.find 1203).map (fun r => (r.outcome, r.asn, r.mass, r.voided)) = some (.unzoned, 7, some 6420, false) ∧
    (recordedTlu.find 1206).map (fun r => (r.outcome, r.asn, r.mass, r.voided)) = some (.unzoned, 99, some 10, false) ∧
    (recordedTlu.find 1207).map (fun r => (r.outcome, r.mass)) = some (.unweighed, none) ∧
    (recordedTlu.find 1204).map (·.voided) = some true := by
  unfold Admitted Ready; and_intros <;> decide +kernel

/-- R117, R123, R125: with the bunk of id 7 alone, the lift assigned REMOVE takes all of it and closes the trip. -/
theorem test_assign_empties_the_bunk :
    let t := { recordedTlu with table := recordedTlu.table.set 1 none }
    sees (.assignLift .cab [0x04#8, 0xB3#8, 1#8]) (inRun.setTlu t)
      (fun u => (u.tlu.bunkTotal, u.tlu.trip.state, u.tlu.trip.cause, u.tlu.history.length)) =
      some (0, .empty, some .emptied, 1) := by decide +kernel

/-- Lifts of each outcome that moves figures, and of one that does not. -/
theorem witness_CompletedLifts :
    let c (o : LiftOutcome) : CompletedLift := { tag := 7, origin := .field_, dest := .bunk, outcome := o, mass := some 100, n := 64
                                                 flags := (liftIn .gripped).flags, peakU := 0, reach := .none_, slew := .none_ }
    (c .add).outcome = .add ∧ (c .remove).outcome = .remove ∧ (c .move).outcome ≠ .add ∧ (c .move).outcome ≠ .remove ∧
    loadedTlu.slotOf (if loadedTlu.defined (c .remove).tag = true then 7 else 0) = some 2 ∧
    (loadedTlu.table[(2 : Fin 16)]).isSome = true := by decide +kernel

theorem witness_TripCloseResult :
    Admitted .cab .tripClose [] inRun ∧ inRun.tlu.trip.state = .empty ∧ Admitted .cab .tripClose [] (inRun.setTlu loadedTlu) ∧
    loadedTlu.trip.state ≠ .empty ∧ (inRun.port .cab).enable.getLsbD 1 = true ∧ (inRun.port .cab).queue.length + 2 ≤ 16 ∧
    loadedTlu.trip.list.length ≤ 8 := by
  unfold Admitted Ready; and_intros <;> decide +kernel

/-- OPEN with no TARE, AUTO_ZERO on and off; a sample that is steady and one that is not; 62 and 63 samples; a mean mass at the zero
band's edge and beyond it. -/
theorem witness_AutoZeroStepBounded :
    let s := inRun.setWge { inRun.wge with prev := some 0 }
    let x (c : Int) := massOf s.wge.z s.wge.span c false
    s.calHeld ∧ s.wge.lift = none ∧ s.wge.tare = none ∧ s.cfg.sw.autoZero = true ∧
      { s.cfg.sw with autoZero := false }.autoZero = false ∧ (x 0).clipped = false ∧ ((x 0).m - 0).natAbs ≤ s.cfg.weigh.d ∧
      ¬((x 1000000).m - 0).natAbs ≤ s.cfg.weigh.d ∧ { s.wge.az with count := 62 }.count < 63 ∧
      63 ≤ { s.wge.az with count := 63 }.count ∧ (roundDiv (64 * 150 + (x 0).m) 64).natAbs ≤ s.cfg.weigh.zb ∧
      s.cfg.weigh.zb < (roundDiv (64 * 151 + (x 0).m) 64).natAbs := by
  unfold State.calHeld; decide +kernel

/-- A low sample after four; a steady one at N − 1 and before; an unsteady one after eleven and before. -/
theorem witness_LiftWindowRules :
    let l := liftIn .carrying
    l.stage = .carrying ∧ (149 : Int) < ((defaultSettings.weigh.lMin / 2 : Nat) : Int) ∧ 4 ≤ { l with drops := 4 }.drops ∧
      defaultSettings.weigh.n ≤ { l with n := 63 }.n + 1 ∧ l.n + 1 < defaultSettings.weigh.n ∧
      11 ≤ { l with rejects := 11 }.rejects ∧ l.rejects < 11 := by decide +kernel

/-- GRIPPED below L, and at L after three and four; WEIGHED below L/2 after three and four, and at it. -/
theorem witness_LiftWindowRules_gripped_weighed :
    let l := liftIn .gripped
    let w := liftIn .weighed
    let low := ((defaultSettings.weigh.lMin / 2 : Nat) : Int)
    l.stage = .gripped ∧ (299 : Int) < defaultSettings.weigh.lMin ∧ (defaultSettings.weigh.lMin : Int) ≤ 300 ∧
      { l with confirm := 3 }.confirm < 4 ∧ 4 ≤ { l with confirm := 4 }.confirm ∧
      w.stage = .weighed ∧ (149 : Int) < low ∧ ¬(150 : Int) < low ∧ { w with drops := 3 }.drops < 4 ∧ 4 ≤ { w with drops := 4 }.drops := by
  decide +kernel

/-- A LINK sample for a lift in CARRYING, steady or not as R70's pose term says; five below L/2 change the lift state, one does not. -/
theorem witness_LiftWindowRules_link :
    let s (valid : Bool) (drops : Nat) := (inRun.setPos { inRun.pos with pose := { inRun.pos.pose with valid := valid } }).setWge
      { inRun.wge with prev := some 0, lift := some { liftIn .carrying with drops := drops } }
    (∀ v, (windowSteady (s v 0).cfg (s v 0).pos.pose (s v 0).wge.prev (massOf 0 (s v 0).wge.span 0 false) = true ↔ v = true)) ∧
    (∀ v, ((s v 0).wge.lift.map (fun l => (l.sample (s v 0).cfg v (massOf 0 1000 0 false)).stage)) = some .carrying) ∧
    (∀ v, ((s v 4).wge.lift.map (fun l => (l.sample (s v 4).cfg v (massOf 0 1000 0 false)).stage)) = some .gripped) := by
  decide +kernel

/-- No lift, with a TARE working and its slot; a lift in GRIPPED and one beyond it. -/
theorem witness_LiftWindowRules_grip :
    inRun.wge.lift = none ∧ taring.wge.lift = none ∧ taring.wge.tare.isSome = true ∧
    taring.mpt.slots[(0 : Fin 4)] = some { port := .cab, kind := .tare, body := [], state := .working } ∧
    (inRun.setWge { inRun.wge with lift := some (liftIn .gripped) }).wge.lift = some (liftIn .gripped) ∧
    (liftIn .carrying).stage ≠ .gripped ∧ (liftIn .weighed).stage ≠ .gripped := by decide +kernel

/-- LINK fresh, and a slot free; CARRYING for CAL_SPAN; RUNNING and DOWN for SENSOR_PASS. -/
theorem witness_DelayedAccepted :
    let s := inRun.setSbc { inRun.sbc with entries := [entryOf .link 0x20 0 90] }
    let c := (s.setStc inService.stc).setWge { s.wge with lift := some (liftIn .carrying) }
    (Admitted .cab .tare [] s ∧ s.mpt.matching .cab .tare [] = none ∧ s.mpt.conflicting .cab .tare [] = false ∧
      s.wge.tare = none ∧ s.wge.lift = none ∧ s.mpt.freeSlot = some 0 ∧ s.linkIsStale = false) ∧
    (Admitted .service .calSpan [0x01#8, 0xF4#8] c ∧ c.mpt.matching .service .calSpan [0x01#8, 0xF4#8] = none ∧
      c.wge.cal = none ∧ c.mpt.freeSlot = some 0 ∧ c.linkIsStale = false) ∧
    (Admitted .service .sensorPass [0x08#8, 8#8] inService ∧ Admitted .service .sensorPass [0x77#8, 0#8] inService ∧
      inService.sbc.pass = none ∧ inService.sbc.bus ≠ .down ∧
      Admitted .service .sensorPass [0x08#8, 8#8] (inService.setSbc { inService.sbc with bus := .down })) ∧
    (Admitted .service .commit [] inService ∧ inService.mpt.matching .service .commit [] = none ∧ inService.stc.commit = none) := by
  unfold Admitted Ready; decide +kernel

/-- Four slots in use, by requests that no new one repeats. -/
def fullSlots (s : State) : State :=
  let used : DelayedSlot := { port := .cab, kind := .calSpan, body := [], state := .done [] 9999 }
  s.setMpt { s.mpt with slots := Vector.replicate 4 (some used) }

/-- Every row of R98, R103, R36 and R203, and an acceptance with LINK stale. -/
theorem witness_DelayedAccepted_refused :
    let carrying := inService.setWge { inService.wge with lift := some (liftIn .carrying) }
    let fresh (p : Port) (k : DelayedKind) (body : List Byte) (s : State) :=
      s.mpt.matching p k body = none ∧ s.mpt.conflicting p k body = false
    (fresh .service .tare [] taring ∧ taring.wge.tare.isSome = true ∧ inRun.wge.tare = none ∧ carrying.wge.lift.isSome = true ∧
      (fullSlots inRun).mpt.freeSlot = none ∧ inRun.linkIsStale = true ∧ inRun.mpt.freeSlot = some 0) ∧
    (Admitted .cab .tare [] (fullSlots inRun) ∧ fresh .cab .tare [] (fullSlots inRun) ∧ Admitted .cab .tare [] inRun ∧
      Admitted .service .tare [] carrying ∧ fresh .service .tare [] carrying) ∧
    (Admitted .service .calSpan [0x01#8, 0xF3#8] carrying ∧ Admitted .service .calSpan [0x01#8, 0xF4#8] inService ∧
      Admitted .service .calSpan [0x01#8, 0xF4#8] (fullSlots carrying) ∧ fresh .service .calSpan [0x01#8, 0xF4#8] (fullSlots carrying) ∧
      carrying.linkIsStale = true ∧ (liftIn .carrying).stage ≠ .gripped) ∧
    (Admitted .service .sensorPass [0x07#8, 0#8] inService ∧ Admitted .service .sensorPass [0x07#8, 0#8] (fullSlots inService) ∧
      fresh .service .sensorPass [0x07#8, 0#8] (fullSlots inService) ∧ Admitted .service .sensorPass [0x08#8, 0#8] (fullSlots inService)) ∧
    (Admitted .service .commit [] (fullSlots inService) ∧ fresh .service .commit [] (fullSlots inService)) := by
  unfold Admitted Ready; and_intros <;> decide +kernel

/-- A repeat of a WORKING request, of a DONE one, and the same kind with another body. -/
theorem witness_DelayedRepeats :
    let slot (st : SlotState) : DelayedSlot := { port := .service, kind := .calSpan, body := [1#8, 0xF4#8], state := st }
    let s (st : SlotState) := inService.setMpt { inService.mpt with slots := inService.mpt.slots.set 2 (some (slot st)) }
    Req.calSpan.delayed = some .calSpan ∧ Admitted .service .calSpan [1#8, 0xF4#8] (s .working) ∧
    (s .working).mpt.matching .service .calSpan [1#8, 0xF4#8] = some (2, slot .working) ∧
    (s (.done [0#8] 9)).mpt.matching .service .calSpan [1#8, 0xF4#8] = some (2, slot (.done [0#8] 9)) ∧
    Admitted .service .calSpan [1#8, 0xF5#8] (s .working) ∧ (s .working).mpt.matching .service .calSpan [1#8, 0xF5#8] = none ∧
    (s .working).mpt.conflicting .service .calSpan [1#8, 0xF5#8] = true := by
  unfold Admitted Ready; decide +kernel

/-- A tare timer that is due, a COMMIT working, a DONE slot whose discard is due. -/
theorem witness_DelayedWorkEnds :
    (taring.powered = true ∧ taring.wge.tare = some { port := .cab, count := 3, sumC := 0, deadline := 100 } ∧ 100 ≤ taring.now) ∧
    (inService.setStc { inService.stc with commit := some inService.collect }).stc.commit = some inService.collect ∧
    (let d : DelayedSlot := { port := .cab, kind := .tare, body := [], state := .done [0#8] 100 }
     (inRun.setMpt { inRun.mpt with slots := inRun.mpt.slots.set 1 (some d) }).mpt.slots[1] = some d ∧ 100 ≤ inRun.now) := by
  refine ⟨by decide +kernel, rfl, by decide +kernel⟩

/-- A TARE at 62 and 63 samples, and a sample that is steady and one that is not. -/
theorem witness_DelayedWorkEnds_tare :
    let t (n : Nat) : TareWork := { port := .cab, count := n, sumC := 0, deadline := 900 }
    let s (n : Nat) := taring.setWge { taring.wge with tare := some (t n), prev := some 0 }
    let x (c : Int) := massOf 0 1000 c false
    (s 62).wge.tare = some (t 62) ∧ (t 62).count < 63 ∧ 63 ≤ (t 63).count ∧
      (x 0).clipped = false ∧ ((x 0).m - 0).natAbs ≤ defaultSettings.weigh.d ∧ (s 62).wge.prev = some 0 ∧
      ¬((x 1000000).m - 0).natAbs ≤ defaultSettings.weigh.d ∧ (massOf 0 1000 0 true).clipped = true := by decide +kernel

/-- A CAL_SPAN at 126 and 127 samples; a drop; differences that make no span and that make one. -/
theorem witness_DelayedWorkEnds_cal :
    let k (n : Nat) : CalWork := { mref := 10000, count := n, sumC := 127 * 976563 }
    let l := liftIn .carrying
    let s := posing.setWge { posing.wge with cal := some (k 127), lift := some l }
    s.wge.cal = some (k 127) ∧ s.wge.lift = some l ∧ l.stage ≠ .gripped ∧ s.wge.tare = none ∧ (k 126).count < 127 ∧
      127 ≤ (k 127).count ∧ 4 ≤ { l with drops := 4 }.drops ∧
      ¬((massOf 0 1000 976563 false).m < ((defaultSettings.weigh.lMin / 2 : Nat) : Int)) ∧
      (massOf 0 1000 0 false).m < ((defaultSettings.weigh.lMin / 2 : Nat) : Int) ∧
      roundDiv ((k 127).sumC + 976563) 128 = 976563 ∧ roundDiv ((10000 : Int) * 100000) 976563 = 1024 ∧
      roundDiv ((10000 : Int) * 100000) 15258 = 65539 := by decide +kernel

/-- Each row of U, and levels in order. -/
theorem witness_UtilisationAndLevels :
    utilisation 0 100 = 0 ∧ utilisation 1 0 = 9999 ∧ (7450 : Int) * 1000 ≤ 9999 * 8173 ∧ 9999 * (1 : Int) < 10 * 1000 ∧
    defaultCap.uWarn ≤ defaultCap.uHold ∧ defaultCap.uRel + 10 ≤ defaultCap.uHold ∧ 849 + 50 < defaultCap.uWarn ∧
    defaultCap.uWarn ≤ 850 + 50 ∧ 850 ≤ defaultCap.uRel ∧ defaultCap.uWarn ≤ 900 ∧ 900 < defaultCap.uHold := by decide +kernel

/-- Each row of PERMIT, and a permit that has expired. -/
theorem witness_PermitRules :
    let running := (inHold.setCpm { inHold.cpm with permit := some 100 }).setHls
      { inHold.hls with masks := { inHold.hls.masks with cap := 0b100011#6 } }
    Admitted .cab .permit [] running ∧ Admitted .cab .permit [] inRun ∧ inRun.cpm.monitor ≠ .hold ∧
    Admitted .cab .permit [] (inHold.setCpm { inHold.cpm with u := 1200 }) ∧ Admitted .cab .permit [] inHold ∧ inHold.cpm.u < 1200 ∧
    running.capHeld ∧ running.cpm.permit = some 100 ∧ 100 ≤ running.now := by
  unfold Admitted Ready State.capHeld; decide +kernel

theorem witness_ChartAndOverrideWrites :
    let body : List Byte := [63#8, 1#8, 0#8, 1#8, 3#8]
    let busy := inService.setStc { inService.stc with commit := some inService.collect }
    Admitted .service .chartWrite body inService ∧ runAllowed (natAt body 0 1) (natAt body 1 1) = true ∧
    inService.committing = false ∧ Admitted .service .chartWrite body busy ∧ busy.committing = true ∧
    Admitted .service .overrideSet [3#8, 0#8, 0#8, 0#8, 0#8] inService ∧ Admitted .service .overrideSet [2#8, 63#8, 0#8, 0#8, 1#8] inService ∧
    Admitted .service .overrideSet [2#8, 64#8, 0#8, 0#8, 1#8] inService := by
  unfold Admitted Ready; decide +kernel

/-- OPEN; blind in a lift; CARRYING with both inputs valid. -/
theorem witness_EvaluationRules :
    inRun.cpm.liftCopy = .open_ ∧ inRun.cpm.poseCopy.valid = false ∧ onTheSlope.cpm.liftCopy = .carrying ∧
    onTheSlope.cpm.liveCopy.ok = false ∧ { onTheSlope.cpm with liveCopy := { val := 1, ok := true } }.liveCopy.ok = true ∧
    onTheSlope.cpm.poseCopy.valid = true := by decide +kernel

/-- A valid pose on page 31 and on page 64, the first beyond the chart; an entry that is not valid, one with an override and one
without; no derating, and a slope invalid, level and downhill. -/
theorem witness_EvaluationRules_figures :
    let c := onTheSlope.cpm
    let chart := onTheSlope.cfg.cap.chart
    let ov : Vector Override 3 := c.overrides.set 1 { page := 31, value := 9000, enable := true }
    c.poseCopy.valid = true ∧ c.poseCopy.r.val.toNat / onTheSlope.cfg.cap.pageSize = 31 ∧ (16000 : Int).toNat / 250 = 64 ∧
      chart[(30 : Fin 64)].valid = false ∧ chart[(31 : Fin 64)].valid = true ∧ chart[(31 : Fin 64)].derate = true ∧
      (∀ i : Fin 3, c.overrides[i].enable = false) ∧ (ov[(1 : Fin 3)].enable = true ∧ ov[(1 : Fin 3)].page = 31) ∧
      ov[(0 : Fin 3)].enable = false ∧ onTheSlope.cfg.sw.sectorDerate = true ∧
      { onTheSlope.cfg.sw with sectorDerate := false }.sectorDerate = false ∧ c.poseCopy.t = { val := 85, ok := true } ∧
      { c.poseCopy.t with ok := false }.ok = false ∧ { c.poseCopy.t with val := 0 }.val ≤ 0 := by decide +kernel

/-- GRIPPED, and WEIGHED, with both inputs valid and with one of them invalid; a lift beyond GRIPPED. -/
theorem witness_EvaluationRules_lift :
    let s (x : LiftState) (ok : Bool) := onTheSlope.setCpm { onTheSlope.cpm with liftCopy := x, liveCopy := { val := 1, ok := ok } }
    (∀ ok, (s .gripped ok).cpm.liftCopy = .gripped ∧ (s .weighed ok).cpm.liftCopy = .weighed ∧
      (s .gripped ok).cpm.liveCopy.ok = ok ∧ (s .gripped ok).cpm.poseCopy.valid = true) ∧
    (liftIn .carrying).stage ≠ .gripped := by decide +kernel

/-- Each mode, a pair in order, and one that wraps. -/
theorem witness_EntryEvaluation_modes :
    slopeWatch.mode = .above ∧ { slopeWatch with mode := .below }.mode = .below ∧
    (let d := { slopeWatch with mode := .inside, b := 60 }
     d.mode = .inside ∧ d.a ≤ d.b ∧ { d with mode := .outside }.mode = .outside) ∧
    (let d := { slopeWatch with quantity := .slew, mode := .inside, a := 101, b := 100 }
     d.b < d.a ∧ d.quantity = .slew) := by decide +kernel

/-- An event without the quantity; a disabled entry; an invalid value; a valid value that makes it match. -/
theorem witness_EntryEvaluation :
    poseVals posed .util = none ∧ watching.wt.entries[(0 : Fin 8)].d.enable = false ∧
    (poseVals { posed with t := { val := 85, ok := false } } .downhill).map (·.ok) = some false ∧
    watching.wt.entries[(5 : Fin 8)].d.enable = true ∧ watching.wt.chained 5 = false ∧
    poseVals posed .downhill = some { val := 85, ok := true } ∧ watchHolds slopeWatch 85 = true ∧
    watchHolds slopeWatch 60 = true ∧ watchHolds slopeWatch 59 = false := by decide +kernel

/-- The entries made and not; a REPORT entry; a changed lift state that resets LIFT_MASS entries, alone and in a pair. -/
theorem witness_EntryEvaluation_events :
    watching.wt.made = true ∧ inRun.wt.made = false ∧ { slopeWatch with action := .report }.action = .report ∧
    (∀ chain, (weighedDown chain).wt.entries[(4 : Fin 8)].d.quantity = .liftMass ∧
      (weighedDown chain).wt.entries[(evenOf 4)].d.chain = chain ∧ (weighedDown chain).wt.pairs[coupleOf 4] = chain ∧
      (weighedDown chain).wt.entries[(4 : Fin 8)].matching = true) ∧ (5 : Fin 8) = oddOf 4 := by decide +kernel

/-- A chained pair that rises and one that falls. -/
theorem witness_EntryEvaluation_pair :
    let s := pairing
    (5 : Fin 8).val = 2 * (2 : Fin 4).val + 1 ∧ (4 : Fin 8).val = 2 * (2 : Fin 4).val ∧ s.wt.entries[(4 : Fin 8)].d.chain = true ∧
      s.wt.entries[(5 : Fin 8)].d.enable = true ∧ poseVals posed s.wt.entries[(5 : Fin 8)].d.quantity = some { val := 85, ok := true } ∧
      s.wt.pairs[(2 : Fin 4)] = false ∧ watchHolds s.wt.entries[(5 : Fin 8)].d 85 = true ∧
      watchHolds s.wt.entries[(5 : Fin 8)].d (-40) = false ∧ s.wt.entries[(5 : Fin 8)].d.action = .hold := by decide +kernel

/-- An unchained CAPTURE entry 5 that fires with the record EMPTY, FULL from a higher entry, and FULL from its own or a lower one. -/
theorem witness_HitClearAndCaptureRead_filling :
    let s := inRun.setWt { inRun.wt with entries := inRun.wt.entries.set 5 (.of { slopeWatch with action := .capture }) }
    let x := s.wt.entries[(5 : Fin 8)]
    x.d.enable = true ∧ s.wt.chained 5 = false ∧ x.d.action = .capture ∧ poseVals posed x.d.quantity = some { val := 85, ok := true } ∧
      x.matching = false ∧ watchHolds x.d 85 = true ∧ s.wt.capture = none ∧ (5 : Fin 8).val < (6 : Fin 8).val ∧
      (5 : Fin 8).val ≤ (5 : Fin 8).val := by decide +kernel

theorem witness_HitClearAndCaptureRead :
    Admitted .cab .hitClear [0xFF#8] inRun ∧ Admitted .service .hitClear [0xFF#8] inService ∧ Admitted .cab .captureRead [] inRun := by
  unfold Admitted Ready; decide +kernel

/-- A body that is taken; the rows of a LOCKED entry, of a chain before one, and of a LOCKED entry after a chain. -/
theorem witness_WatchWrite :
    let body : List Byte := [5#8, 1#8, 6#8, 0#8, 0#8, 0#8, 0#8, 60#8, 0#8, 0#8, 0#8, 0#8, 1#8, 0x21#8, 0#8, 0#8]
    let locked := inService.setWt { inService.wt with entries := inService.wt.entries.set 5 (.of { slopeWatch with owner := .locked }) }
    let chained := inService.setWt { inService.wt with entries := inService.wt.entries.set 4 (.of { slopeWatch with chain := true }) }
    Admitted .cab .watchWrite body inRun ∧ watchDefOf body = some (5, slopeWatch) ∧ limitsCrossed slopeWatch = false ∧
    watchJudged .cab 5 slopeWatch inRun = .ok (slopeWatch, .ok) ∧
    locked.wt.entries[(5 : Fin 8)].d.owner = .locked ∧ watchJudged .service 4 { slopeWatch with chain := true } locked = .error .conflict ∧
    watchJudged .service 5 { slopeWatch with owner := .locked } chained = .error .conflict := by
  unfold Admitted Ready; decide +kernel

/-- With the supply, and without it. -/
theorem witness_LevelsAndCauses : inRun.powered = true ∧ { inRun with powered := false }.powered = false := ⟨rfl, rfl⟩

theorem witness_HoldLineRequests :
    Admitted .cab .holdManual [63#8] inRun ∧ Admitted .cab .holdManual [64#8] inRun ∧ Admitted .service .lineFaultClear [63#8] inRun ∧
    Admitted .service .lineFaultClear [64#8] inRun ∧ inRun.faultHeld := by
  unfold Admitted Ready State.faultHeld; decide +kernel

theorem witness_SenseExpiryResult : (inRun.setNow 110).powered = true ∧ (inRun.setNow 110).hls.senseTimer ≤ (inRun.setNow 110).now := by
  decide +kernel

theorem witness_ParameterAndFeatureWrites :
    let body : List Byte := [0x34#8, 0#8, 0#8, 0x03#8, 0x20#8]
    let busy := inService.setStc { inService.stc with commit := some inService.collect }
    Admitted .service .paramWrite body inService ∧ Param.ofCode (natAt body 0 1) = some .uHold ∧ inService.committing = false ∧
    SettingsOrdered inService.cfg ∧ Admitted .service .paramWrite body busy ∧ busy.committing = true ∧
    Admitted .service .paramWrite [0x30#8, 0#8, 0#8, 0#8, 200#8] inService ∧ Param.ofCode 0x36 = some .permitS ∧
    Param.ofCode 0x01 = some .l1 ∧ Admitted .service .paramWrite [0x01#8, 0#8, 0#8, 0x0B#8, 0xB8#8] inService ∧ Admitted .service .features [7#8] inService ∧
    Admitted .service .features [7#8] busy := by
  unfold Admitted Ready SettingsOrdered; decide +kernel

/-- RUN with a lift in CARRYING, and SERVICE with a COMMIT working. -/
def lifting : State := inRun.setWge { inRun.wge with lift := some (liftIn .carrying) }
def committing : State := inService.setStc { inService.stc with commit := some inService.collect }

theorem witness_StateRequestRows :
    (Admitted .service .enterService [] inRun ∧ Admitted .service .enterService [] lifting ∧
      Admitted .service .enterService [] inService) ∧
    (Admitted .service .leaveService [] inService ∧ Admitted .service .leaveService [] inRun ∧
      Admitted .service .leaveService [] committing) := by
  unfold Admitted Ready; decide +kernel

theorem witness_StateRequestRows_standby_restart :
    (Admitted .cab .standby [] inRun ∧ Admitted .cab .standby [] lifting) ∧
    (Admitted .service .restart [] inRun ∧ Admitted .service .restart [] committing ∧ inRun.stc.restart ≠ .due) := by
  unfold Admitted Ready; decide +kernel

end Sys2Proof.Tests
end

section
/-! PROOFS. What a step does to the queue of waiting commands, to CPM and to the CAP mask (R2, R142 to R153): O2 and O9. -/

namespace Sys2Proof.Machine

/-! ### Operations that CPM has no part in -/

/-- The queue, CPM and the CAP mask are as they were. -/
structure CapUntouched (s t : State) : Prop where
  pending : t.pending = s.pending
  cpm : t.cpm = s.cpm
  mask : t.hls.masks.cap = s.hls.masks.cap

theorem CapUntouched.refl (s : State) : CapUntouched s s := ⟨rfl, rfl, rfl⟩

theorem CapUntouched.trans {s t u : State} (h : CapUntouched s t) (k : CapUntouched t u) : CapUntouched s u :=
  ⟨k.pending.trans h.pending, k.cpm.trans h.cpm, k.mask.trans h.mask⟩

theorem CapUntouched.ite {s t u : State} {c : Prop} [Decidable c] (h : CapUntouched s t) (k : CapUntouched s u) :
    CapUntouched s (if c then t else u) := by
  split
  · exact h
  · exact k

theorem foldl_capUntouched {α : Type} {f : State → α → State} (each : ∀ s a, CapUntouched s (f s a)) (l : List α) (s : State) :
    CapUntouched s (l.foldl f s) := by
  induction l generalizing s with
  | nil => exact .refl s
  | cons a l ih => exact (each s a).trans (ih _)

theorem setNow_capUntouched (s : State) (n : Nat) : CapUntouched s (s.setNow n) := ⟨rfl, rfl, rfl⟩
theorem setSched_capUntouched (s : State) (l : List Nat) : CapUntouched s (s.setSched l) := ⟨rfl, rfl, rfl⟩
theorem setSbc_capUntouched (s : State) (b : Sbc) : CapUntouched s (s.setSbc b) := ⟨rfl, rfl, rfl⟩
theorem setPos_capUntouched (s : State) (p : Pos) : CapUntouched s (s.setPos p) := ⟨rfl, rfl, rfl⟩
theorem setWge_capUntouched (s : State) (w : Wge) : CapUntouched s (s.setWge w) := ⟨rfl, rfl, rfl⟩
theorem setTlu_capUntouched (s : State) (t : Tlu) : CapUntouched s (s.setTlu t) := ⟨rfl, rfl, rfl⟩
theorem setWt_capUntouched (s : State) (w : Wt) : CapUntouched s (s.setWt w) := ⟨rfl, rfl, rfl⟩
theorem setStc_capUntouched (s : State) (c : Stc) : CapUntouched s (s.setStc c) := ⟨rfl, rfl, rfl⟩
theorem setCfg_capUntouched (s : State) (c : Settings) : CapUntouched s (s.setCfg c) := ⟨rfl, rfl, rfl⟩
theorem setMpt_capUntouched (s : State) (m : Mpt) : CapUntouched s (s.setMpt m) := ⟨rfl, rfl, rfl⟩
theorem setPort_capUntouched (s : State) (p : Port) (q : PortState) : CapUntouched s (s.setPort p q) := ⟨rfl, rfl, rfl⟩

theorem queueReport_capUntouched (s : State) (r : Report) (body : List Byte) : CapUntouched s (s.queueReport r body) :=
  setMpt_capUntouched _ _

theorem queueAll_capUntouched (s : State) (r : Report) (bodies : List (List Byte)) : CapUntouched s (s.queueAll r bodies) :=
  foldl_capUntouched (fun s b => queueReport_capUntouched s r b) _ _

theorem finishWork_capUntouched (s : State) (k : DelayedKind) (result : List Byte) : CapUntouched s (s.finishWork k result) :=
  setMpt_capUntouched _ _

/-- A presentation of another source leaves the CAP mask (R178). -/
theorem present_capUntouched {src : HoldSource} (h : src ≠ .cap) (mask : LineMask) (s : State) :
    CapUntouched s (present src mask s) := by
  obtain ⟨m, e, _⟩ := present_rest src mask s
  refine ⟨by rw [e]; rfl, by rw [e]; rfl, ?_⟩
  exact (present_get src mask s .cap).trans (if_neg (Ne.symm h))

/-! ### The watch table -/

theorem present_watch_capUntouched (k : Fin 8) (mask : LineMask) (s : State) : CapUntouched s (present (.watch k) mask s) :=
  present_capUntouched (by simp) mask s

theorem offerCapture_capUntouched (k : Fin 8) (s : State) : CapUntouched s (offerCapture k s) := by
  have fill (w : Wt) (body : List Byte) : CapUntouched s ((s.setWt w).queueReport .captureReady body) :=
    (setWt_capUntouched _ _).trans (queueReport_capUntouched _ _ _)
  unfold offerCapture
  split
  · exact fill _ _
  · exact .ite (fill _ _) (setWt_capUntouched _ _)

theorem fire_capUntouched (ev : SourceEvent) (k : Fin 8) (p : Option (Fin 8)) (s : State) : CapUntouched s (fire ev k p s) := by
  unfold fire
  refine (setWt_capUntouched s (s.wt.setHits k p)).trans ?_
  split
  · exact queueReport_capUntouched _ _ _
  · exact offerCapture_capUntouched _ _
  · exact present_watch_capUntouched _ _ _

theorem withdraw_capUntouched (k : Fin 8) (s : State) : CapUntouched s (withdraw k s) :=
  .ite (present_watch_capUntouched _ _ _) (.refl s)

theorem judgeEdge_capUntouched (ev : SourceEvent) (k : Fin 8) (was : Bool) (s : State) :
    CapUntouched s (judgeEdge ev k was s) := by
  unfold judgeEdge
  split
  · exact (setWt_capUntouched _ _).trans
      (.ite (fire_capUntouched _ _ _ _) (.ite (withdraw_capUntouched _ _) (.refl _)))
  · exact .ite (fire_capUntouched _ _ _ _) (.ite (withdraw_capUntouched _ _) (.refl s))

theorem evalEntry_capUntouched (ev : SourceEvent) (vals : Quantity → Option Marked) (s : State) (k : Fin 8) :
    CapUntouched s (evalEntry ev vals s k) := by
  unfold evalEntry
  refine .ite ?_ (.refl s)
  split
  · exact .refl s
  · exact (CapUntouched.ite (setWt_capUntouched _ _) (.refl s)).trans (judgeEdge_capUntouched _ _ _ _)

theorem watchEvaluate_capUntouched (ev : SourceEvent) (vals : Quantity → Option Marked) (s : State) :
    CapUntouched s (watchEvaluate ev vals s) :=
  .ite (foldl_capUntouched (evalEntry_capUntouched ev vals) _ _) (.refl s)

theorem wtLive_capUntouched (m : Marked) (s : State) : CapUntouched s (wtLive m s) :=
  (setWt_capUntouched _ _).trans (watchEvaluate_capUntouched _ _ _)

theorem wtPose_capUntouched (p : Pose) (s : State) : CapUntouched s (wtPose p s) :=
  (setWt_capUntouched _ _).trans (watchEvaluate_capUntouched _ _ _)

theorem wtUtil_capUntouched (u : Marked) (s : State) : CapUntouched s (wtUtil u s) :=
  (setWt_capUntouched _ _).trans (watchEvaluate_capUntouched _ _ _)

theorem resetLiftMass_capUntouched (s : State) (k : Fin 8) : CapUntouched s (resetLiftMass s k) :=
  .ite ((setWt_capUntouched _ _).trans (judgeEdge_capUntouched _ _ _ _)) (.refl s)

theorem wtLift_capUntouched (old new : LiftState) (tag mass : Option Nat) (s : State) :
    CapUntouched s (wtLift old new tag mass s) := by
  have reset : CapUntouched s (if old = .open_ ∧ new = .gripped then
      (List.finRange 8).foldl resetLiftMass (s.setWt { s.wt with lift := new, tag := tag })
      else s.setWt { s.wt with lift := new, tag := tag }) :=
    .ite ((setWt_capUntouched _ _).trans (foldl_capUntouched resetLiftMass_capUntouched _ _)) (setWt_capUntouched _ _)
  unfold wtLift
  dsimp only
  split
  · exact reset.trans (watchEvaluate_capUntouched _ _ _)
  · exact reset

theorem makeEntries_capUntouched (locked : Vector (Option WatchDef) 8) (s : State) : CapUntouched s (makeEntries locked s) :=
  (setWt_capUntouched _ _).trans (foldl_capUntouched (fun s k => present_watch_capUntouched k 0#6 s) _ _)

theorem takeWatchWrite_capUntouched (k : Fin 8) (d : WatchDef) (s : State) : CapUntouched s (takeWatchWrite k d s) := by
  unfold takeWatchWrite
  refine ((setWt_capUntouched s (s.wt.setEntry k (.of d))).trans (present_watch_capUntouched k 0#6 _)).trans ?_
  refine .ite ?_ (.ite (setWt_capUntouched _ _) (.refl _))
  exact (CapUntouched.ite ((setWt_capUntouched _ _).trans (present_watch_capUntouched _ _ _)) (.refl _)).trans
    (.ite (setWt_capUntouched _ _) (.refl _))

/-! ### The tally and the hold lines -/

theorem handBunkTotal_capUntouched (n : Nat) (s : State) : CapUntouched s (handBunkTotal n s) :=
  .ite (watchEvaluate_capUntouched _ _ _) (.refl s)

theorem reportTripClosed_capUntouched (t : Trip) (s : State) : CapUntouched s (reportTripClosed t s) :=
  (queueReport_capUntouched s _ _).trans (.ite (queueReport_capUntouched _ _ _) (.refl _))

theorem takeCompletedLift_capUntouched (c : CompletedLift) (s : State) : CapUntouched s (takeCompletedLift c s) :=
  ((setTlu_capUntouched _ _).trans (queueReport_capUntouched _ _ _)).trans
    ((CapUntouched.ite (reportTripClosed_capUntouched _ _) (.refl _)).trans (handBunkTotal_capUntouched _ _))

theorem setSense_capUntouched (s : State) (x : Vector LineSense 6) (n : Nat) :
    CapUntouched s (s.setHls { s.hls with sense := x, senseTimer := n }) := ⟨rfl, rfl, rfl⟩

theorem sense_capUntouched (levels : LineMask) (s : State) : CapUntouched s (sense levels s) :=
  ((setSense_capUntouched _ _ _).trans (queueAll_capUntouched _ _ _)).trans
    (.ite (present_capUntouched (by simp) _ _) (.refl _))

theorem clearFaults_capUntouched (marks : LineMask) (s : State) : CapUntouched s (clearFaults marks s) :=
  (setSense_capUntouched _ _ _).trans (.ite (present_capUntouched (by simp) _ _) (.refl _))
/-! ### What every operation keeps -/

/-- The queue is as it was, and the laws of CAP and of U hold on if they held (R2, R145, R150). -/
structure CapKept (s t : State) : Prop where
  pending : t.pending = s.pending
  held : s.capHeld → t.capHeld
  ranged : s.cpm.inRanges → t.cpm.inRanges

theorem CapUntouched.kept {s t : State} (h : CapUntouched s t) : CapKept s t where
  pending := h.pending
  held k := by
    unfold State.capHeld at k ⊢
    rwa [h.mask, h.cpm]
  ranged k := h.cpm ▸ k

theorem CapKept.refl (s : State) : CapKept s s := (CapUntouched.refl s).kept

theorem CapKept.trans {s t u : State} (h : CapKept s t) (k : CapKept t u) : CapKept s u :=
  ⟨k.pending.trans h.pending, k.held ∘ h.held, k.ranged ∘ h.ranged⟩

theorem CapKept.ite {s t u : State} {c : Prop} [Decidable c] (h : CapKept s t) (k : CapKept s u) :
    CapKept s (if c then t else u) := by
  split
  · exact h
  · exact k

/-- Hand-overs that each keep the laws keep them in any order. -/
theorem runAny_capKept {fs : List (State → State)} (each : ∀ f ∈ fs, ∀ s, CapKept s (f s)) (s : State) :
    CapKept s (runAny fs s) :=
  runAny_rel CapKept .refl (fun _ _ _ => .trans) (fun s l => (setSched_capUntouched s l).kept) each s

/-! ### The evaluation of CPM (R142 to R150) -/

/-- The lines of R150's table. -/
theorem names_capMask (l : Line) (permit : Bool) :
    names (capMask .normal permit) l = false ∧
    (names (capMask .warn permit) l = true ↔ l = .alert) ∧
    (names (capMask .hold false) l = true ↔ l = .boomOut ∨ l = .teleOut ∨ l = .lower ∨ l = .alert) ∧
    (names (capMask .hold true) l = true ↔ l = .boomOut ∨ l = .teleOut ∨ l = .alert) ∧
    (names (capMask .blind permit) l = true ↔ l = .boomOut ∨ l = .teleOut ∨ l = .lower ∨ l = .alert) := by
  cases permit <;> cases l <;> decide

theorem utilisation_le (m : Int) (c : Nat) : utilisation m c ≤ 9999 := by
  unfold utilisation
  split
  · omega
  · split <;> omega

theorem Cpm.formFigures_u (cfg : Settings) (c : Cpm) : (c.formFigures cfg).u = c.u := by
  unfold Cpm.formFigures
  split <;> rfl

/-- U is 0, a utilisation, or what it was (R143, R147). -/
theorem Cpm.formState_inRanges (cfg : Settings) {c : Cpm} (h : c.inRanges) : (c.formState cfg).inRanges := by
  have seen (u : Nat) (hu : u ≤ 9999) (b : Bool) (m n : Monitor) :
      Cpm.inRanges (if b = true then { c with u := u, uOk := true, monitor := m } else { c with uOk := false, monitor := n }) := by
    split
    · exact hu
    · exact h
  unfold Cpm.formState
  dsimp only
  split
  case h_1 => exact Nat.zero_le _
  case h_2 => split <;> exact Nat.zero_le _
  all_goals exact seen _ (utilisation_le _ _) _ _ _

theorem Cpm.evaluated_inRanges (cfg : Settings) {c : Cpm} (h : c.inRanges) : (c.evaluated cfg).inRanges := by
  have k : ((c.formFigures cfg).formState cfg).inRanges :=
    Cpm.formState_inRanges cfg (by unfold Cpm.inRanges; rwa [Cpm.formFigures_u])
  unfold Cpm.evaluated
  dsimp only
  split <;> exact k

/-- A running permit does not outlive HOLD (R153). -/
theorem Cpm.evaluated_permit (cfg : Settings) (c : Cpm) :
    (c.evaluated cfg).permit.isSome = true → (c.evaluated cfg).monitor = .hold := by
  unfold Cpm.evaluated
  dsimp only
  split
  · intro _; assumption
  · intro h; cases h

theorem presentCap_cpm (old new : Cpm) (s : State) : (presentCap old new s).cpm = s.cpm := by
  unfold presentCap
  split
  · obtain ⟨m, e, _⟩ := present_rest .cap new.mask s
    rw [e]; rfl
  · rfl

/-- The CAP mask after a change of CPM's mask is the new one, presented where it differs (R149). -/
theorem presentCap_mask (old new : Cpm) (s : State) (h : old.mask ≠ new.mask ∨ s.hls.masks.cap = new.mask) :
    (presentCap old new s).hls.masks.cap = new.mask := by
  unfold presentCap
  split
  · exact (present_get .cap new.mask s .cap).trans (if_pos rfl)
  · next e => exact h.resolve_left e

/-- Hand-overs in any order, one of which presents CPM's mask and the others leave CPM alone, leave CAP presenting it (R149). -/
theorem runAny_presents {old new : Cpm} {fs : List (State → State)} (mem : presentCap old new ∈ fs)
    (each : ∀ f ∈ fs, f = presentCap old new ∨ ∀ s, CapUntouched s (f s)) (s : State) :
    (runAny fs s).cpm = s.cpm ∧ (s.hls.masks.cap = old.mask → (runAny fs s).hls.masks.cap = new.mask) := by
  have keeps : ∀ f ∈ fs, ∀ s, s.hls.masks.cap = new.mask → (f s).hls.masks.cap = new.mask := by
    intro f hf s hs
    obtain rfl | e := each f hf
    · exact presentCap_mask _ _ s (.inr hs)
    · exact (e s).mask.trans hs
  refine ⟨runAny_rel (fun s t => t.cpm = s.cpm) (fun _ => rfl) (fun _ _ _ h k => k.trans h) (fun _ _ => rfl) ?_ s, fun h => ?_⟩
  · intro f hf s
    obtain rfl | e := each f hf
    · exact presentCap_cpm _ _ s
    · exact (e s).cpm
  · by_cases e : old.mask = new.mask
    · exact runAny_keeps (fun s => s.hls.masks.cap = new.mask) (fun _ _ h => h) keeps (h.trans e)
    · exact runAny_brings (fun s => s.hls.masks.cap = new.mask) (fun _ _ h => h) keeps
        ⟨_, mem, fun s => presentCap_mask _ _ s (.inl e)⟩ s

theorem wgeUtil_capUntouched (u : Nat) (s : State) : CapUntouched s (wgeUtil u s) := by
  unfold wgeUtil
  split
  · exact .ite (.refl s) (setWge_capUntouched _ _)
  · exact .refl s

theorem evalReports_capUntouched (old new : Cpm) (s : State) : CapUntouched s (evalReports old new s) :=
  (CapUntouched.ite (queueReport_capUntouched _ _ _) (.refl s)).trans (.ite (queueReport_capUntouched _ _ _) (.refl _))

/-- The hand-overs of an evaluation leave CAP presenting the new mask (R149). -/
theorem handOnEvaluation_mask {old new : Cpm} {s : State} (h : s.hls.masks.cap = old.mask) :
    (handOnEvaluation old new s).hls.masks.cap = new.mask := by
  refine (runAny_presents (old := old) (new := new) (by simp) (fun f hf => ?_) s).2 h
  simp only [List.mem_cons, List.not_mem_nil, or_false] at hf
  rcases hf with rfl | rfl | rfl | rfl
  · exact .inr (wgeUtil_capUntouched _)
  · exact .inr (wtUtil_capUntouched _)
  · exact .inr (evalReports_capUntouched _ _)
  · exact .inl rfl

/-- An evaluation of a CPM whose mask CAP presents ends with CAP presenting the new mask (R149, R150). -/
theorem cpmEvaluate_held {s : State} (h : s.hls.masks.cap = s.cpm.mask) : (cpmEvaluate s).capHeld := by
  have mask : (cpmEvaluate s).hls.masks.cap = (s.cpm.evaluated s.cfg).mask := handOnEvaluation_mask (s := s.setCpm _) h
  unfold State.capHeld
  rw [cpmEvaluate_cpm]
  exact ⟨mask, Cpm.evaluated_permit _ _⟩

/-- An evaluation after a change of CPM that leaves its state, its permit and U alone keeps the laws (R142). -/
theorem cpmTake_capKept {change : Cpm → Cpm} (mask : ∀ c, (change c).mask = c.mask) (u : ∀ c, (change c).u = c.u) (s : State) :
    CapKept s (cpmTake change s) where
  pending := (cpmTake_handedOn change s).pending
  held h := cpmEvaluate_held (h.1.trans (mask _).symm)
  ranged h := by
    unfold cpmTake
    rw [cpmEvaluate_cpm]
    exact Cpm.evaluated_inRanges _ ((u s.cpm).trans_le h)

theorem cpmEvaluate_capKept (s : State) : CapKept s (cpmEvaluate s) :=
  cpmTake_capKept (change := id) (fun _ => rfl) (fun _ => rfl) s

/-- A permit that starts in HOLD (R152). -/
theorem startPermit_capKept {s : State} (hold : s.cpm.monitor = .hold) : CapKept s (startPermit s) where
  pending := (startPermit_handedOn s).pending
  held h := by
    unfold State.capHeld startPermit
    rw [presentCap_cpm]
    refine ⟨presentCap_mask _ _ _ ?_, fun _ => hold⟩
    by_cases e : s.cpm.mask = Cpm.mask { s.cpm with permit := some (s.now + s.cfg.cap.permitS * 1000) }
    · exact .inr (h.1.trans e)
    · exact .inl e
  ranged h := by
    unfold startPermit
    rw [presentCap_cpm]
    exact h

/-- The expiry of a permit (R153). -/
theorem expirePermit_capKept (s : State) : CapKept s (expirePermit s) := by
  obtain ⟨cpm, mask⟩ : (expirePermit s).cpm = { s.cpm with permit := none } ∧
      (s.hls.masks.cap = s.cpm.mask → (expirePermit s).hls.masks.cap = Cpm.mask { s.cpm with permit := none }) := by
    refine runAny_presents (by simp) (fun f hf => ?_) (s.setCpm { s.cpm with permit := none })
    simp only [List.mem_cons, List.not_mem_nil, or_false] at hf
    rcases hf with rfl | rfl
    · exact .inr (fun s => queueReport_capUntouched s _ _)
    · exact .inl rfl
  refine ⟨(expirePermit_handedOn s).pending, fun h => ?_, fun h => ?_⟩
  · unfold State.capHeld
    rw [cpm]
    exact ⟨mask h.1, nofun⟩
  · rw [cpm]
    exact h

/-! ### The pose and the weighing -/

theorem cpmLift_capKept (l : LiftState) (s : State) : CapKept s (cpmLift l s) :=
  cpmTake_capKept (change := fun c => { c with liftCopy := l }) (fun _ => rfl) (fun _ => rfl) s

theorem cpmLive_capKept (m : Marked) (s : State) : CapKept s (cpmLive m s) :=
  cpmTake_capKept (change := fun c => { c with liveCopy := m }) (fun _ => rfl) (fun _ => rfl) s

theorem cpmPose_capKept (p : Pose) (s : State) : CapKept s (cpmPose p s) :=
  cpmTake_capKept (change := fun c => { c with poseCopy := p }) (fun _ => rfl) (fun _ => rfl) s

theorem clearOverrides_capKept (s : State) : CapKept s (clearOverrides s) :=
  cpmTake_capKept (change := fun c => { c with overrides := Vector.replicate 3 .clear }) (fun _ => rfl) (fun _ => rfl) s

theorem recompute_capKept (s : State) : CapKept s (recompute s) := by
  refine (setPos_capUntouched s _).kept.trans (runAny_capKept (fun f hf => ?_) _)
  simp only [List.mem_cons, List.not_mem_nil, or_false] at hf
  rcases hf with rfl | rfl
  · exact cpmPose_capKept _
  · exact fun s => (wtPose_capUntouched _ s).kept

theorem liftHandOvers_capKept (old new : LiftState) (tag mass : Option Nat) :
    ∀ f ∈ liftHandOvers old new tag mass, ∀ s, CapKept s (f s) := by
  intro f hf
  unfold liftHandOvers at hf
  split at hf
  · cases hf
  · simp only [List.mem_cons, List.not_mem_nil, or_false] at hf
    rcases hf with rfl | rfl
    · exact cpmLift_capKept _
    · exact fun s => (wtLift_capUntouched _ _ _ _ s).kept

theorem liveHandOvers_capKept (m : Marked) : ∀ f ∈ liveHandOvers m, ∀ s, CapKept s (f s) := by
  intro f hf
  simp only [liveHandOvers, List.mem_cons, List.not_mem_nil, or_false] at hf
  rcases hf with rfl | rfl
  · exact cpmLive_capKept _
  · exact fun s => (wtLive_capUntouched _ s).kept

theorem endTare_capUntouched (c : WorkCode) (s : State) : CapUntouched s (endTare c s) := ⟨by simp, by simp, by simp⟩

theorem endCal_capUntouched (c : WorkCode) (s : State) : CapUntouched s (endCal c s) := ⟨by simp, by simp, by simp⟩

theorem tareStep_capUntouched (cfg : Settings) (prev : Option Int) (c : Int) (x : Mass) (s : State) :
    CapUntouched s (tareStep cfg prev c x s) := by
  unfold tareStep
  split
  · split
    · exact (setWge_capUntouched _ _).trans (finishWork_capUntouched _ _ _)
    · exact setWge_capUntouched _ _
  · exact .refl s

theorem calStep_capUntouched (cfg : Settings) (pose : Pose) (prev : Option Int) (c : Int) (x : Mass) (s : State) :
    CapUntouched s (calStep cfg pose prev c x s) := by
  unfold calStep
  split
  · split
    · exact (setWge_capUntouched _ _).trans (finishWork_capUntouched _ _ _)
    · exact setWge_capUntouched _ _
  · exact .refl s

theorem linkWork_capUntouched (c : Int) (o : Bool) (s : State) : CapUntouched s (linkWork c o s) :=
  ((setWge_capUntouched _ _).trans (.ite (endCal_capUntouched _ _) (.refl _))).trans
    (((tareStep_capUntouched _ _ _ _ _).trans (calStep_capUntouched _ _ _ _ _ _)).trans (setWge_capUntouched _ _))

theorem linkArrival_capKept (c : Int) (o : Bool) (s : State) : CapKept s (linkArrival c o s) :=
  (linkWork_capUntouched c o s).kept.trans (runAny_capKept (fun f hf =>
    (List.mem_append.1 hf).elim (liftHandOvers_capKept _ _ _ _ f) (liveHandOvers_capKept _ f)) _)

theorem linkStale_capKept (s : State) : CapKept s (linkStale s) :=
  ((setWge_capUntouched _ _).trans ((endTare_capUntouched _ _).trans (endCal_capUntouched _ _))).kept.trans
    (runAny_capKept (liveHandOvers_capKept _) _)

theorem closeGrapple_capKept (s : State) : CapKept s (closeGrapple s) :=
  ((setWge_capUntouched _ _).trans (endTare_capUntouched _ _)).kept.trans (runAny_capKept (liftHandOvers_capKept _ _ _ _) _)

theorem openUnlifted_capKept (s : State) : CapKept s (openUnlifted s) :=
  (setWge_capUntouched _ _).kept.trans (runAny_capKept (liftHandOvers_capKept _ _ _ _) _)

theorem release_capKept (l : Lift) (s : State) : CapKept s (release l s) :=
  ((setWge_capUntouched _ _).trans ((endCal_capUntouched _ _).trans (takeCompletedLift_capUntouched _ _))).kept.trans
    (runAny_capKept (liftHandOvers_capKept _ _ _ _) _)

theorem gripArrival_capKept (closed : Bool) (s : State) : CapKept s (gripArrival closed s) := by
  unfold gripArrival
  split
  · exact closeGrapple_capKept s
  · exact .refl s
  · exact .refl s
  · exact .ite (openUnlifted_capKept s) (release_capKept _ s)

/-! ### The sensor bus -/

theorem startAfresh_capUntouched (r : Role) (s : State) : CapUntouched s (startAfresh r s) := by
  cases r
  case link => exact setWge_capUntouched _ _
  case slew | main => exact setPos_capUntouched _ _
  case outer | tele | tilt | grip => exact .refl s

theorem deliverSample_capKept (r : Role) (returning : Bool) (x : Sample) (s : State) :
    CapKept s (deliverSample r returning x s) := by
  cases r
  case link => exact linkArrival_capKept _ _ s
  case grip => exact gripArrival_capKept _ s
  case slew | main | outer | tele | tilt => exact (setPos_capUntouched _ _).kept.trans (recompute_capKept _)

theorem deliverStale_capKept (r : Role) (s : State) : CapKept s (deliverStale r s) := by
  cases r
  case link => exact linkStale_capKept s
  case grip => exact .refl s
  case slew | main | outer | tele | tilt => exact (setPos_capUntouched _ _).kept.trans (recompute_capKept _)

theorem reportEntry_capUntouched (e : Entry) (s : State) : CapUntouched s (reportEntry e s) := queueReport_capUntouched _ _ _

theorem applyPoll_capKept (e : Entry) (stretched : Bool) (obs : PollObs) (s : State) :
    CapKept s (applyPoll e stretched obs s) := by
  have reported (e' : Entry) (b : Sbc) (c : Prop) [Decidable c] :
      CapUntouched s (if c then reportEntry e' (s.setSbc b) else s.setSbc b) :=
    (setSbc_capUntouched _ _).trans (.ite (reportEntry_capUntouched _ _) (.refl _))
  unfold applyPoll
  dsimp only
  split
  · exact ((reported _ _ _).trans (.ite (startAfresh_capUntouched _ _) (.refl _))).kept.trans (deliverSample_capKept _ _ _ _)
  · exact (reported _ _ _).kept

theorem allMissing_capUntouched (s : State) : CapUntouched s (allMissing s) :=
  (setSbc_capUntouched _ _).trans (foldl_capUntouched (fun s e => reportEntry_capUntouched e s) _ _)

theorem endWaitingPass_capUntouched (c : WorkCode) (s : State) : CapUntouched s (endWaitingPass c s) :=
  .ite ((setSbc_capUntouched _ _).trans (finishWork_capUntouched _ _ _)) (.refl s)

theorem enterDown_capUntouched (s : State) : CapUntouched s (enterDown s) :=
  (setSbc_capUntouched _ _).trans ((allMissing_capUntouched _).trans (endWaitingPass_capUntouched _ _))

theorem busStuck_capUntouched (s : State) : CapUntouched s (busStuck s) :=
  .ite (enterDown_capUntouched s) (setSbc_capUntouched _ _)

theorem afterTransaction_capUntouched (stuck : Bool) (s : State) : CapUntouched s (afterTransaction stuck s) :=
  .ite ((CapUntouched.ite (allMissing_capUntouched s) (.refl s)).trans (setSbc_capUntouched _ _))
    (.ite (busStuck_capUntouched s) (.ite (setSbc_capUntouched _ _) (setSbc_capUntouched _ _)))

theorem afterAttempt_capUntouched (ok : Bool) (s : State) : CapUntouched s (afterAttempt ok s) :=
  .ite (setSbc_capUntouched _ _) (.ite (setSbc_capUntouched _ _) (.refl s))

theorem pollDone_capKept (t : Txn) (r : Role) (obs : PollObs) {after : Bool → PollOutcome → State → State}
    (h : ∀ b o s, CapUntouched s (after b o s)) (s : State) : CapKept s (pollDone t r obs after s) := by
  have applied (e : Entry) (b : Sbc) : CapKept s (applyPoll e t.stretched obs (s.setSbc b)) :=
    (setSbc_capUntouched _ _).kept.trans (applyPoll_capKept _ _ _ _)
  unfold pollDone
  split
  · exact .ite (applied _ _) ((applied _ _).trans (h _ _ _).kept)
  · exact ((setSbc_capUntouched _ _).trans (h _ _ _)).kept

theorem pollTransactionDone_capKept (obs : PollObs) (s : State) : CapKept s (pollTransactionDone obs s) := by
  unfold pollTransactionDone
  split
  · split
    · exact pollDone_capKept _ _ _ (fun _ _ s => afterTransaction_capUntouched _ s) s
    · exact pollDone_capKept _ _ _ (fun _ _ s => afterAttempt_capUntouched _ s) s
    · exact .refl s
  · exact .refl s

theorem passthroughDone_capUntouched (obs : PassObs) (s : State) : CapUntouched s (passthroughDone obs s) := by
  unfold passthroughDone
  split
  · exact .ite (((setSbc_capUntouched _ _).trans (finishWork_capUntouched _ _ _)).trans (afterTransaction_capUntouched _ _))
      (.refl s)
  · exact .refl s

theorem sensorStale_capKept (r : Role) (s : State) : CapKept s (sensorStale r s) := by
  unfold sensorStale
  split
  · exact .ite (((setSbc_capUntouched _ _).trans (reportEntry_capUntouched _ _)).kept.trans (deliverStale_capKept _ _)) (.refl s)
  · exact .refl s

theorem stretchTimeout_capUntouched (s : State) : CapUntouched s (stretchTimeout s) := by
  unfold stretchTimeout
  split
  · exact setSbc_capUntouched _ _
  · exact .refl s

theorem roundTimerExpiry_capUntouched (s : State) : CapUntouched s (roundTimerExpiry s) := by
  unfold roundTimerExpiry
  split
  · exact .ite (setSbc_capUntouched _ _) (.refl s)
  · exact .refl s

theorem busFreePulseEnd_capUntouched (s : State) : CapUntouched s (busFreePulseEnd s) := by
  unfold busFreePulseEnd
  split
  · exact .ite (setSbc_capUntouched _ _) (.refl s)
  · exact .refl s
  · exact .refl s

theorem recoveryWaitEnd_capUntouched (dataHigh : Bool) (s : State) : CapUntouched s (recoveryWaitEnd dataHigh s) := by
  unfold recoveryWaitEnd
  split
  · exact .ite (.ite (setSbc_capUntouched _ _) (busStuck_capUntouched s)) (.refl s)
  · exact .refl s
  · exact .refl s

theorem recoveryAttempt_capUntouched (s : State) : CapUntouched s (recoveryAttempt s) := by
  unfold recoveryAttempt
  split
  · exact .ite (.ite (setSbc_capUntouched _ _) (setSbc_capUntouched _ _)) (.refl s)
  · exact .refl s

theorem attemptWaitEnd_capUntouched (dataHigh : Bool) (s : State) : CapUntouched s (attemptWaitEnd dataHigh s) := by
  unfold attemptWaitEnd
  split
  · refine .ite (.ite ?_ (setSbc_capUntouched _ _)) (.refl s)
    split
    · exact setSbc_capUntouched _ _
    · exact setSbc_capUntouched _ _
  · exact .refl s
  · exact .refl s

theorem replaceEvent_capKept (new : List Entry) (e : Entry) (s : State) : CapKept s (replaceEvent new e s) := by
  have lost (body : List Byte) : CapKept s (if e.fresh? = true then deliverStale e.pd.role (s.queueReport .sensorState body)
      else s.queueReport .sensorState body) :=
    (queueReport_capUntouched _ _ _).kept.trans (.ite (deliverStale_capKept _ _) (.refl _))
  unfold replaceEvent
  split
  · exact lost _
  · next e' _ =>
    exact .ite (lost _) (.ite (.refl s)
      (.ite ((reportEntry_capUntouched e' s).kept.trans (deliverStale_capKept _ _)) (.refl s)))

theorem takePollWrite_capKept (list : List PollDef) (s : State) : CapKept s (takePollWrite list s) := by
  refine (setSbc_capUntouched _ _).kept.trans ((runAny_capKept (fun f hf => ?_) _).trans (recompute_capKept _))
  obtain ⟨e, _, rfl⟩ := List.mem_map.1 hf
  exact replaceEvent_capKept _ e

/-! ### The operating states and the settings -/

theorem busStart_capUntouched (s : State) : CapUntouched s (busStart s) := .ite (setSbc_capUntouched _ _) (.refl s)

theorem stateHandOvers_capKept (old new : OpState) (bad : Bool) : ∀ f ∈ stateHandOvers old new bad, ∀ s, CapKept s (f s) := by
  intro f hf
  simp only [stateHandOvers, List.mem_append, or_assoc] at hf
  rcases hf with hf | hf | hf | hf
  · obtain rfl := List.mem_singleton.1 hf
    exact fun s => (queueReport_capUntouched s _ _).kept
  · split at hf
    · cases hf
    · obtain rfl := List.mem_singleton.1 hf
      exact fun s => (present_capUntouched (by simp) _ s).kept
  · split at hf
    · cases hf
    · split at hf <;> obtain rfl := List.mem_singleton.1 hf
      · exact fun s => (busStart_capUntouched s).kept
      · exact fun s => (setSbc_capUntouched s _).kept
  · split at hf
    · simp only [List.mem_cons, List.not_mem_nil, or_false] at hf
      rcases hf with rfl | rfl | rfl
      · exact clearOverrides_capKept
      · exact fun s => (endCal_capUntouched _ s).kept
      · exact fun s => (endWaitingPass_capUntouched _ s).kept
    · cases hf

theorem changeState_capKept (new : OpState) (s : State) : CapKept s (changeState new s) :=
  (setStc_capUntouched _ _).kept.trans (runAny_capKept (stateHandOvers_capKept _ _ _) _)

theorem paramAct_capKept (v : Int) (p : Param) (s : State) : CapKept s (p.act v s) := by
  cases p
  case l1 | l2 | teleMax | column | slewOff | slewLo | slewHi | reachLo | reachHi => exact recompute_capKept s
  case z | span => exact (setWge_capUntouched _ _).kept
  case pageSize | k | fMin | uWarn | uHold | uRel => exact cpmEvaluate_capKept s
  case lMin | d | rs | rm | n | nMin | zb | permitS => exact .refl s

theorem takeParam_capKept (p : Param) (v : Int) (s : State) : CapKept s (takeParam p v s) :=
  (setCfg_capUntouched s _).kept.trans (paramAct_capKept _ _ _)

theorem commitEnd_capUntouched (ok : Bool) (s : State) : CapUntouched s (commitEnd ok s) := by
  unfold commitEnd
  split
  · exact .ite ((setStc_capUntouched _ _).trans (finishWork_capUntouched _ _ _))
      ((setStc_capUntouched _ _).trans (finishWork_capUntouched _ _ _))
  · exact .refl s

theorem installWeigh_capUntouched (keep : Bool) (c : ImageContents) (s : State) : CapUntouched s (installWeigh keep c s) :=
  (setCfg_capUntouched _ _).trans (.ite (.refl _) (setWge_capUntouched _ _))

theorem install_capKept (good : Bool) (c : ImageContents) (s : State) : CapKept s (install good c s) := by
  refine (setCfg_capUntouched _ _).kept.trans (runAny_capKept (fun f hf => ?_) _)
  simp only [List.mem_cons, List.not_mem_nil, or_false] at hf
  rcases hf with rfl | rfl | rfl | rfl | rfl
  · exact fun s => (setSbc_capUntouched s _).kept
  · exact fun s => (setCfg_capUntouched s _).kept.trans (recompute_capKept _)
  · exact fun s => (installWeigh_capUntouched _ _ s).kept
  · exact fun s => (setCfg_capUntouched s _).kept.trans (cpmEvaluate_capKept _)
  · exact fun s => (makeEntries_capUntouched _ s).kept

theorem preloadDone_capKept (readFailed : Bool) (s : State) : CapKept s (preloadDone readFailed s) :=
  .ite ((install_capKept _ _ s).trans ((setStc_capUntouched _ _).kept.trans (changeState_capKept _ _))) (.refl s)

/-- A reset keeps the queue and meets the laws: NORMAL, no permit, U at 0, CAP asking for nothing (R157, R190). -/
theorem afterReset_capKept (warm : Bool) (s : State) : CapKept s (afterReset warm s) :=
  ⟨rfl, fun _ => ⟨rfl, nofun⟩, fun _ => Nat.zero_le _⟩

theorem supplyLoss_capKept (backupInterrupted : Bool) (s : State) : CapKept s (supplyLoss backupInterrupted s) :=
  (afterReset_capKept true s).trans ⟨rfl, id, id⟩


/-! ### The owners of the requests -/

theorem eitherRefusal_capUntouched (a b : Option Code) (s : State) : CapUntouched s (eitherRefusal a b s).2 := by
  unfold eitherRefusal
  split
  · obtain ⟨i, l, e, _⟩ := s.pick_eq 2
    rw [e]
    exact setSched_capUntouched s l
  · exact .refl s
  · exact .refl s

theorem takeSlot_capUntouched (s : State) (p : Port) (k : DelayedKind) (body : List Byte) :
    CapUntouched s (s.takeSlot p k body) := by
  unfold State.takeSlot
  split
  · exact setMpt_capUntouched _ _
  · exact .refl s

theorem serveDelayed_capUntouched (p : Port) (k : DelayedKind) (body : List Byte) {judge : Bool → State → Option Code × State}
    {start : State → State} (hj : ∀ b s, CapUntouched s (judge b s).2) (hs : ∀ s, CapUntouched s (start s)) (s : State) :
    CapUntouched s (serveDelayed p k body judge start s).2 := by
  unfold serveDelayed
  split
  · split
    · exact .refl s
    · exact setMpt_capUntouched _ _
  · split
    · exact .refl s
    · have judged := hj s.mpt.freeSlot.isSome s
      split
      · next e =>
        rw [e] at judged
        exact judged
      · next e =>
        rw [e] at judged
        exact judged.trans ((takeSlot_capUntouched _ _ _ _).trans (hs _))

theorem startPass_capUntouched (p : Passthrough) (s : State) : CapUntouched s (startPass p s) :=
  (setSbc_capUntouched _ _).trans (.ite (endWaitingPass_capUntouched _ _) (.refl _))

theorem acceptTare_capUntouched (p : Port) (s : State) : CapUntouched s (acceptTare p s) :=
  .ite ((setWge_capUntouched _ _).trans (endTare_capUntouched _ _)) (setWge_capUntouched _ _)

theorem acceptCal_capUntouched (mref : Nat) (s : State) : CapUntouched s (acceptCal mref s) :=
  .ite ((setWge_capUntouched _ _).trans (endCal_capUntouched _ _)) (setWge_capUntouched _ _)

section owners
variable (p : Port) (body : List Byte) (s : State)

theorem servePollWrite_capKept : CapKept s (servePollWrite p body s).2 := by
  unfold servePollWrite
  have judged := eitherRefusal_capUntouched (if s.committing then some .busy else none) (pollRefusal (pollDefsOf body)) s
  dsimp only
  split
  · next e =>
    rw [e] at judged
    exact judged.kept
  · next e =>
    rw [e] at judged
    exact judged.kept.trans (takePollWrite_capKept _ _)

theorem serveSensorPass_capUntouched : CapUntouched s (serveSensorPass p body s).2 := by
  refine serveDelayed_capUntouched _ _ _ (fun _ s => eitherRefusal_capUntouched _ _ s) (fun s => ?_) s
  cases passOf body with
  | none => exact .refl s
  | some x => exact startPass_capUntouched x s

theorem serveBusRestart_capUntouched : CapUntouched s (serveBusRestart p body s).2 := by
  unfold serveBusRestart
  split
  · split <;> exact setSbc_capUntouched _ _
  · split
    · exact .refl s
    · exact setSbc_capUntouched _ _
  · exact .refl s
  · exact .refl s

theorem serveSetAssortment_capUntouched : CapUntouched s (serveSetAssortment p body s).2 := by
  unfold serveSetAssortment
  dsimp only
  split
  · exact setTlu_capUntouched _ _
  · exact .refl s

theorem serveVoidLift_capUntouched : CapUntouched s (serveVoidLift p body s).2 := by
  unfold serveVoidLift
  split
  · exact .refl s
  · exact (setTlu_capUntouched _ _).trans (handBunkTotal_capUntouched _ _)

theorem serveAssignLift_capUntouched : CapUntouched s (serveAssignLift p body s).2 := by
  unfold serveAssignLift
  split
  · exact .refl s
  · exact ((setTlu_capUntouched _ _).trans (.ite (reportTripClosed_capUntouched _ _) (.refl _))).trans
      (handBunkTotal_capUntouched _ _)

theorem serveTripClose_capUntouched : CapUntouched s (serveTripClose p body s).2 := by
  unfold serveTripClose
  split
  · exact ((setTlu_capUntouched _ _).trans (reportTripClosed_capUntouched _ _)).trans (handBunkTotal_capUntouched _ _)
  · exact .refl s

theorem serveChartWrite_capKept : CapKept s (serveChartWrite p body s).2 := by
  unfold serveChartWrite
  have judged := eitherRefusal_capUntouched (if s.committing then some .busy else none)
    (if runAllowed (natAt body 0 1) (natAt body 1 1) then none else some .badField) s
  split
  · next e =>
    rw [e] at judged
    exact judged.kept
  · next e =>
    rw [e] at judged
    exact (judged.trans (setCfg_capUntouched _ _)).kept.trans (cpmEvaluate_capKept _)

theorem serveOverrideSet_capKept : CapKept s (serveOverrideSet p body s).2 := by
  unfold serveOverrideSet
  split
  · next i o _ =>
    exact cpmTake_capKept (change := fun c => { c with overrides := c.overrides.set i o }) (fun _ => rfl) (fun _ => rfl) s
  · exact .refl s

/-- A permit is given in HOLD alone (R152). -/
theorem servePermit_capKept : CapKept s (servePermit p body s).2 := by
  unfold servePermit
  split
  · exact .refl s
  · split
    · exact .refl s
    · next hold =>
      split
      · exact .refl s
      · exact startPermit_capKept (not_not.1 hold)

theorem serveWatchWrite_capUntouched : CapUntouched s (serveWatchWrite p body s).2 := by
  unfold serveWatchWrite
  split
  · exact .refl s
  · split
    · exact .refl s
    · split
      · exact .refl s
      · exact takeWatchWrite_capUntouched _ _ _

theorem serveCaptureRead_capUntouched : CapUntouched s (serveCaptureRead p body s).2 := by
  unfold serveCaptureRead
  split
  · exact setWt_capUntouched _ _
  · exact .refl s

theorem serveHoldManual_capUntouched : CapUntouched s (serveHoldManual p body s).2 := by
  unfold serveHoldManual
  split
  · exact present_capUntouched (by simp) _ s
  · exact .refl s

theorem serveLineFaultClear_capUntouched : CapUntouched s (serveLineFaultClear p body s).2 := by
  unfold serveLineFaultClear
  split
  · exact clearFaults_capUntouched _ s
  · exact .refl s

theorem serveParamWrite_capKept : CapKept s (serveParamWrite p body s).2 := by
  unfold serveParamWrite
  split
  · exact .refl s
  · dsimp only
    split
    · exact .refl s
    · split
      · exact .refl s
      · exact takeParam_capKept _ _ s

theorem serveFeatures_capKept : CapKept s (serveFeatures p body s).2 := by
  unfold serveFeatures
  split
  · exact .refl s
  · exact ((setCfg_capUntouched s _).trans (.ite (.refl _) (setWge_capUntouched _ _))).kept.trans (cpmEvaluate_capKept _)

theorem serveEnterService_capKept : CapKept s (serveEnterService p body s).2 := by
  unfold serveEnterService
  split
  · exact .refl s
  · split
    · exact .refl s
    · exact changeState_capKept _ s

theorem serveLeaveService_capKept : CapKept s (serveLeaveService p body s).2 := by
  unfold serveLeaveService
  split
  · exact .refl s
  · split
    · exact .refl s
    · exact changeState_capKept _ s

theorem serveStandby_capKept : CapKept s (serveStandby p body s).2 := by
  unfold serveStandby
  split
  · exact .refl s
  · exact changeState_capKept _ s

theorem serveRestart_capUntouched : CapUntouched s (serveRestart p body s).2 := by
  unfold serveRestart
  split
  · exact .refl s
  · exact setStc_capUntouched _ _

theorem serveReportEnable_capUntouched : CapUntouched s (serveReportEnable p body s).2 := by
  unfold serveReportEnable
  dsimp only
  split
  · exact setPort_capUntouched _ _ _
  · exact .refl s

end owners

/-- The requests that only read. -/
def Req.reads : Req → Bool
  | .pose | .sensors | .pollRead | .tallyRead | .logRead | .tripRead | .chartRead | .watchRead | .linesRead | .paramRead => true
  | _ => false

/-- A reading request leaves the part as it was. -/
theorem serve_reads {r : Req} (h : r.reads = true) (p : Port) (body : List Byte) (s : State) : (serve r p body s).2 = s := by
  cases r
  case pose | sensors | pollRead | linesRead => rfl
  case tallyRead => exact (apply_ite Prod.snd _ _ _).trans (ite_self s)
  case chartRead => exact (apply_ite Prod.snd _ _ _).trans (ite_self s)
  case tripRead => simp only [serve, serveTripRead]; split <;> rfl
  case watchRead => simp only [serve, serveWatchRead]; split <;> [skip; split] <;> rfl
  case paramRead => simp only [serve, serveParamRead]; split <;> rfl
  case logRead =>
    simp only [serve, serveLogRead]
    split
    · split
      · rfl
      · split <;> rfl
    · split <;> rfl
    · rfl
  all_goals cases h

/-- What an owner makes of any request (R207, row 8). -/
theorem serve_capKept (r : Req) (p : Port) (body : List Byte) (s : State) : CapKept s (serve r p body s).2 := by
  cases r
  case pollWrite => exact servePollWrite_capKept p body s
  case chartWrite => exact serveChartWrite_capKept p body s
  case overrideSet => exact serveOverrideSet_capKept p body s
  case permit => exact servePermit_capKept p body s
  case paramWrite => exact serveParamWrite_capKept p body s
  case features => exact serveFeatures_capKept p body s
  case enterService => exact serveEnterService_capKept p body s
  case leaveService => exact serveLeaveService_capKept p body s
  case standby => exact serveStandby_capKept p body s
  all_goals refine CapUntouched.kept ?_
  case status => exact setSbc_capUntouched _ _
  case sensorPass => exact serveSensorPass_capUntouched p body s
  case busRestart => exact serveBusRestart_capUntouched p body s
  case setAssortment => exact serveSetAssortment_capUntouched p body s
  case defineAssortment | deleteAssortment | totalsReset => exact setTlu_capUntouched _ _
  case voidLift => exact serveVoidLift_capUntouched p body s
  case assignLift => exact serveAssignLift_capUntouched p body s
  case tripClose => exact serveTripClose_capUntouched p body s
  case tare =>
    exact serveDelayed_capUntouched _ _ _ (fun _ s => .refl s) (fun s => acceptTare_capUntouched p s) s
  case calSpan =>
    exact serveDelayed_capUntouched _ _ _ (fun _ s => .refl s) (fun s => acceptCal_capUntouched _ s) s
  case commit =>
    exact serveDelayed_capUntouched _ _ _ (fun _ s => .refl s) (fun s => setStc_capUntouched s _) s
  case watchWrite => exact serveWatchWrite_capUntouched p body s
  case hitClear => exact setWt_capUntouched _ _
  case captureRead => exact serveCaptureRead_capUntouched p body s
  case holdManual => exact serveHoldManual_capUntouched p body s
  case lineFaultClear => exact serveLineFaultClear_capUntouched p body s
  case restart => exact serveRestart_capUntouched p body s
  case reportEnable => exact serveReportEnable_capUntouched p body s
  all_goals
    rw [serve_reads rfl]
    exact .refl s

/-! ### Frames and ports -/

theorem judgeKnown_capKept (r : Req) (p : Port) (body : List Byte) (s : State) :
    CapKept s (judgeKnown r (serve r) p body s).2 := by
  unfold judgeKnown
  split
  · exact .refl s
  · exact changeState_capKept _ s
  all_goals
    split
    · exact .refl s
    · exact serve_capKept r p body s

theorem judgeFrame_capKept (p : Port) (kind : Byte) (body : List Byte) (s : State) :
    CapKept s (judgeFrame p kind body s).2 := by
  unfold judgeFrame
  split
  · exact judgeKnown_capKept _ p body s
  · unfold judgeUnknown
    split
    · exact .refl s
    · exact changeState_capKept _ s
    · exact .refl s
    · exact .refl s

theorem handle_capKept (p : Port) (kind : Byte) {judge : State → Answer × State} (h : ∀ s, CapKept s (judge s).2) (s : State) :
    CapKept s (handle p kind judge s) :=
  (h s).trans (setPort_capUntouched _ _ _).kept

theorem takeFrame_capKept (p : Port) (kind : Byte) (body : List Byte) {judge : State → Answer × State}
    (h : ∀ s, CapKept s (judge s).2) (s : State) : CapKept s (takeFrame p kind body judge s) :=
  .ite (.refl s) ((setPort_capUntouched s p _).kept.trans
    (.ite (.refl _) (.ite (setPort_capUntouched _ _ _).kept (handle_capKept p kind h _))))

theorem takeRequest_capKept (r : Req) (p : Port) (body : List Byte) (s : State) :
    CapKept s (takeRequest r (serve r) p body s) :=
  takeFrame_capKept _ _ _ (judgeKnown_capKept r p body) s

theorem takeAny_capKept (p : Port) (kind : Byte) (body : List Byte) (s : State) : CapKept s (takeAny p kind body s) :=
  takeFrame_capKept _ _ _ (judgeFrame_capKept p kind body) s

theorem heldFrame_capKept (p : Port) (s : State) : CapKept s (heldFrame p s) := by
  unfold heldFrame
  dsimp only
  split
  · exact .ite (.refl s) ((setPort_capUntouched _ _ _).kept.trans (handle_capKept _ _ (judgeFrame_capKept _ _ _) _))
  · exact .refl s

theorem byteIn_capKept (p : Port) (b : Byte) (s : State) : CapKept s (byteIn p b s) := by
  unfold byteIn
  dsimp only
  refine .ite (.refl s) ?_
  split
  · exact (setPort_capUntouched _ _ _).kept
  · exact (setPort_capUntouched _ _ _).kept.trans (.ite (takeAny_capKept _ _ _ _) (.refl _))

theorem restartDue_capUntouched (p : Port) (f : Option OutFrame) (s : State) : CapUntouched s (restartDue p f s) := by
  unfold restartDue
  split
  · exact .ite (setStc_capUntouched _ _) (.refl s)
  · exact .refl s

theorem portBreak_capUntouched (p : Port) (s : State) : CapUntouched s (portBreak p s) :=
  .ite (.refl s) ((setMpt_capUntouched s _).trans
    ((CapUntouched.ite (.ite (setSbc_capUntouched _ _) (.refl _)) (.refl _)).trans (restartDue_capUntouched _ _ _)))

/-! ### Timers -/

theorem tareTimeout_capUntouched (s : State) : CapUntouched s (tareTimeout s) := by
  unfold tareTimeout
  split
  · exact .ite (endTare_capUntouched _ s) (.refl s)
  · exact .refl s

theorem permitExpiry_capKept (s : State) : CapKept s (permitExpiry s) := by
  unfold permitExpiry
  split
  · exact .ite (expirePermit_capKept s) (.refl s)
  · exact .refl s

theorem discardExpiry_capUntouched (i : Fin 4) (s : State) : CapUntouched s (discardExpiry i s) := by
  unfold discardExpiry
  split
  · exact .ite (setMpt_capUntouched _ _) (.refl s)
  · exact .refl s

theorem senseExpiry_capUntouched (levels : LineMask) (s : State) : CapUntouched s (senseExpiry levels s) :=
  .ite ((setSense_capUntouched s _ _).trans (sense_capUntouched _ _)) (.refl s)

theorem tick_capUntouched (s : State) : CapUntouched s (tick s) := .ite (setNow_capUntouched _ _) (.refl s)

/-! ### Every command and every step -/

/-- An event keeps what its operation keeps: the transmitters alone follow (R209). -/
theorem completes_capKept {f : State → State} (hf : ∀ s, CapKept s (f s)) {s t : State} (h : completes f s = .next t) :
    CapKept s t := by
  cases h
  exact .ite ((hf s).trans (setMpt_capUntouched _ _).kept) (.refl s)

theorem completes_capUntouched {f : State → State} (hf : ∀ s, CapUntouched s (f s)) {s t : State} (h : completes f s = .next t) :
    CapKept s t := completes_capKept (fun s => (hf s).kept) h

theorem exec_capKept {c : Instr} {s t : State} (h : exec c s = .next t) : CapKept s t := by
  cases c
  case powerOn => cases h; exact afterReset_capKept _ s
  case supplyLoss => cases h; exact supplyLoss_capKept _ s
  case restartReset => exact completes_capKept (fun s => .ite (afterReset_capKept true s) (.refl s)) h
  case preloadDone => exact completes_capKept (preloadDone_capKept _) h
  case roundTimerExpiry => exact completes_capUntouched roundTimerExpiry_capUntouched h
  case pollTransactionDone => exact completes_capKept (pollTransactionDone_capKept _) h
  case stretchTimeout => exact completes_capUntouched stretchTimeout_capUntouched h
  case sensorStale => exact completes_capKept (sensorStale_capKept _) h
  case busFreePulseEnd => exact completes_capUntouched busFreePulseEnd_capUntouched h
  case recoveryWaitEnd => exact completes_capUntouched (recoveryWaitEnd_capUntouched _) h
  case recoveryAttempt => exact completes_capUntouched recoveryAttempt_capUntouched h
  case attemptWaitEnd => exact completes_capUntouched (attemptWaitEnd_capUntouched _) h
  case passthroughDone => exact completes_capUntouched (passthroughDone_capUntouched _) h
  case tareTimeout => exact completes_capUntouched tareTimeout_capUntouched h
  case permitExpiry => exact completes_capKept permitExpiry_capKept h
  case senseExpiry => exact completes_capUntouched (senseExpiry_capUntouched _) h
  case discardExpiry => exact completes_capUntouched (discardExpiry_capUntouched _) h
  case frameGapTimeout => exact completes_capUntouched (fun s => .ite (setPort_capUntouched s _ _) (.refl s)) h
  case frameBadCheck | stopBitLow => exact completes_capUntouched (fun s => setPort_capUntouched s _ _) h
  case unknownKind | frameHeld | standbyWake => exact completes_capKept (takeAny_capKept _ _ _) h
  case heldFrameHandled => exact completes_capKept (heldFrame_capKept _) h
  case frameSent =>
    exact completes_capUntouched (fun s => (setPort_capUntouched s _ _).trans (restartDue_capUntouched _ _ _)) h
  case portBreak => exact completes_capUntouched (portBreak_capUntouched _) h
  case lineReturnsToIdle => exact completes_capUntouched (fun s => .ite (setPort_capUntouched s _ _) (.refl s)) h
  case commitDone => exact completes_capUntouched (commitEnd_capUntouched _) h
  case byteArrival => exact completes_capKept (byteIn_capKept _ _) h
  all_goals exact completes_capKept (takeRequest_capKept _ _ _) h


/-- A step is its command on the queue's rest or, with none waiting, the time base's (R8). -/
theorem step_cases {s t : State} (h : step s = .next t) :
    (∃ c rest, s.pending = c :: rest ∧ exec c (s.setPending rest) = .next t) ∨ (s.pending = [] ∧ t = tick s) := by
  unfold step at h
  split at h
  · next c rest e => exact .inl ⟨c, rest, e, h⟩
  · next e =>
    cases h
    exact .inr ⟨e, rfl⟩

/-- A command runs on a state that differs in its queue alone, so it meets the laws of CAP and of U where the state does. -/
theorem step_keeps_cap {s t : State} (h : step s = .next t) :
    (s.capHeld → t.capHeld) ∧ (s.cpm.inRanges → t.cpm.inRanges) := by
  obtain ⟨c, rest, _, k⟩ | ⟨_, rfl⟩ := step_cases h
  · have kept := exec_capKept k
    exact ⟨fun held => kept.held held, fun ranged => kept.ranged ranged⟩
  · have kept := (tick_capUntouched s).kept
    exact ⟨kept.held, kept.ranged⟩

/-- Settles O9: every operation keeps the laws (`exec_capKept`), an evaluation because its hand-overs, in whatever order, present the
new mask where it differs from the one CAP presents (`runAny_presents`). -/
theorem capMaskKept : Obligations.CapMaskKept :=
  ⟨names_capMask, fun _ _ held h => (step_keeps_cap h).1 held, fun _ _ ranged h => (step_keeps_cap h).2 ranged⟩

/-! ### Expiries that have come (R8; notes/assumptions/2.md) -/

theorem reached_iff (now : Nat) (timer : Option Nat) : reached now timer = true ↔ ∃ d, timer = some d ∧ d ≤ now := by
  cases timer <;> simp [reached]

theorem BusPhase.deadline_eq_some (x : BusPhase) (d : Nat) : x.deadline = some d ↔ x = .pulse d ∨ x = .wait d := by
  cases x <;> simp [BusPhase.deadline]

theorem Entry.staleDue_iff (e : Entry) (now : Nat) :
    e.staleDue now = true ↔ e.stale = false ∧ ∃ x, e.slot = some x ∧ x.time + staleLimit e.pd.role < now := by
  unfold Entry.staleDue
  split <;> simp [*]

theorem Sbc.timeDue_iff (b : Sbc) (now : Nat) :
    b.timeDue now = true ↔
      (∃ d, b.roundTimer = some d ∧ d ≤ now) ∨ (∃ d, (b.phase = .pulse d ∨ b.phase = .wait d) ∧ d ≤ now) ∨
      (∃ d, b.attemptTimer = some d ∧ d ≤ now) ∨
      ∃ e ∈ b.entries, e.pd.enable = true ∧ e.stale = false ∧ ∃ x, e.slot = some x ∧ x.time + staleLimit e.pd.role < now := by
  simp only [Sbc.timeDue, Bool.or_eq_true, reached_iff, BusPhase.deadline_eq_some, List.any_eq_true, Bool.and_eq_true,
    Entry.staleDue_iff, or_assoc]

theorem PortState.timeDue_iff (q : PortState) (now : Nat) :
    q.timeDue now = true ↔ (q.rx ≠ .hunt ∧ q.lastByte + 20 < now) ∨ (q.held.isSome = true ∧ q.replyBusy = false) := by
  simp only [PortState.timeDue, PortState.gapOver, PortState.heldDue, Bool.or_eq_true, Bool.and_eq_true, Bool.not_eq_true',
    decide_eq_true_eq]
  rfl

theorem DelayedSlot.discardDue_iff (d : DelayedSlot) (now : Nat) :
    d.discardDue now = true ↔ ∃ result u, d.state = .done result u ∧ u ≤ now := by
  unfold DelayedSlot.discardDue
  split <;> simp [*]

theorem Port.exists_iff (P : Port → Prop) : (∃ p, P p) ↔ P .cab ∨ P .service :=
  ⟨fun ⟨p, h⟩ => by cases p <;> [exact .inl h; exact .inr h], fun h => h.elim (⟨_, ·⟩) (⟨_, ·⟩)⟩

/-- A slot, in use or not, waits to be discarded. -/
def discardWaits (now : Nat) : Option DelayedSlot → Bool
  | some d => d.discardDue now
  | none => false

theorem discardWaits_iff (slots : Vector (Option DelayedSlot) 4) (now : Nat) :
    slots.toList.any (discardWaits now) = true ↔
      ∃ (i : Fin 4) (d : DelayedSlot) (result : List Byte) (u : Nat), slots[i] = some d ∧ d.state = .done result u ∧ u ≤ now := by
  rw [List.any_eq_true]
  constructor
  · rintro ⟨o, ho, h⟩
    obtain ⟨i, hi, rfl⟩ := Vector.mem_iff_getElem.1 (Vector.mem_toList_iff.1 ho)
    cases e : slots[i] with
    | none => rw [e] at h; cases h
    | some d =>
      rw [e] at h
      obtain ⟨result, u, hd⟩ := (d.discardDue_iff now).1 h
      exact ⟨⟨i, hi⟩, d, result, u, e, hd⟩
  · rintro ⟨i, d, result, u, e, hd⟩
    refine ⟨slots[i], Vector.mem_toList_iff.2 (Vector.getElem_mem i.isLt), ?_⟩
    rw [e]
    exact (d.discardDue_iff now).2 ⟨result, u, hd⟩

/-- The time base stands while an expiry of a block waits (notes/assumptions/2.md). -/
theorem State.timeDue_iff (s : State) :
    s.timeDue = true ↔
      s.sbc.timeDue s.now = true ∨ (∃ d, s.wge.tare.map (fun t => t.deadline) = some d ∧ d ≤ s.now) ∨
      (∃ d, s.cpm.permit = some d ∧ d ≤ s.now) ∨ s.hls.senseTimer ≤ s.now ∨
      (∃ p, (s.port p).timeDue s.now = true) ∨ s.mpt.slots.toList.any (discardWaits s.now) = true ∨ s.stc.restart = .due := by
  have e : s.timeDue = (s.sbc.timeDue s.now || reached s.now (s.wge.tare.map (fun t => t.deadline)) ||
      reached s.now s.cpm.permit || decide (s.hls.senseTimer ≤ s.now) || (s.port .cab).timeDue s.now ||
      (s.port .service).timeDue s.now || s.mpt.slots.toList.any (discardWaits s.now) || s.stc.restart == .due) := rfl
  simp only [e, Bool.or_eq_true, reached_iff, decide_eq_true_eq, beq_iff_eq, Port.exists_iff, or_assoc]

/-- With no command waiting, the time base passes a millisecond where it may. -/
theorem step_idle {s : State} (h : s.pending = []) : step s = .next (tick s) := by
  unfold step
  rw [h]

theorem tick_passes {s : State} (hp : s.powered = true) (h : ¬s.timeDue = true) : tick s = s.setNow (s.now + 1) := by
  simp [tick, hp, h]

theorem tick_stays {s : State} (h : s.powered = false ∨ s.timeDue = true) : tick s = s := by
  rcases h with h | h <;> simp [tick, h]

/-- Settles O2: the queue is among what every operation keeps (`exec_capKept`), and the time base stands exactly while the expiries
listed wait. -/
theorem commandsLeaveTheQueue : Obligations.CommandsLeaveTheQueue := by
  refine ⟨fun c s t h => (exec_capKept h).pending, fun s idle => ?_⟩
  intro come waits
  have due : s.timeDue = true ↔ waits := by
    simp only [State.timeDue_iff, Sbc.timeDue_iff, PortState.timeDue_iff, discardWaits_iff, waits, come]
    exact iff_of_eq (by ac_rfl)
  rw [step_idle idle, ← due]
  exact ⟨fun hp h => congrArg _ (tick_passes hp h), fun h => congrArg _ (tick_stays h)⟩

end Sys2Proof.Machine
end

section
/-! PROOFS. The laws of the sensor bus that every step keeps (R15, R19, R32 to R35): O11. -/

namespace Sys2Proof.Machine

/-! ### Hand-overs in an open order -/

/-- Within an invariant that every hand-over keeps, a property that one hand-over brings about and all keep holds after them. -/
theorem runAny_brings_within (I J : State → Prop) (schedI : ∀ s l, I s → I (s.setSched l)) (schedJ : ∀ s l, J s → J (s.setSched l))
    {fs : List (State → State)} (keepsI : ∀ f ∈ fs, ∀ s, I s → I (f s)) (keepsJ : ∀ f ∈ fs, ∀ s, I s → J s → J (f s))
    {f : State → State} (mem : f ∈ fs) (brings : ∀ s, I s → J (f s)) {s : State} (hs : I s) : J (runAny fs s) := by
  obtain ⟨gs, perm, e⟩ := runAny_inSomeOrder fs s
  rw [e]
  have sub : ∀ g ∈ gs, g.1 ∈ fs := fun g hg => perm.subset (List.mem_map_of_mem hg)
  have after : ∀ gs : List ((State → State) × List Nat), (∀ g ∈ gs, g.1 ∈ fs) → ∀ s, I s → J s →
      J (gs.foldl (fun s g => g.1 (s.setSched g.2)) s) := by
    intro gs
    induction gs with
    | nil => exact fun _ s _ h => h
    | cons g gs ih =>
      intro sub s hI hJ
      have hg := sub g (by simp)
      exact ih (fun x hx => sub x (by simp [hx])) _ (keepsI _ hg _ (schedI _ _ hI)) (keepsJ _ hg _ (schedI _ _ hI) (schedJ _ _ hJ))
  have found : ∀ gs : List ((State → State) × List Nat), (∀ g ∈ gs, g.1 ∈ fs) → (∃ g ∈ gs, g.1 = f) → ∀ s, I s →
      J (gs.foldl (fun s g => g.1 (s.setSched g.2)) s) := by
    intro gs
    induction gs with
    | nil => rintro - ⟨g, hg, -⟩; cases hg
    | cons g gs ih =>
      rintro sub ⟨x, hx, hf⟩ s hI
      have rest : ∀ x ∈ gs, x.1 ∈ fs := fun x hx => sub x (by simp [hx])
      have hI' := keepsI _ (sub g (by simp)) _ (schedI s g.2 hI)
      obtain rfl | hx := List.mem_cons.1 hx
      · exact after gs rest _ hI' (by simpa only [hf] using brings _ (schedI _ _ hI))
      · exact ih rest ⟨x, hx, hf⟩ _ hI'
  obtain ⟨g, hg, hf⟩ := List.mem_map.1 (perm.symm.subset mem)
  exact found gs sub ⟨g, hg, hf⟩ s hs

/-! ### Frames on the ports, for any relation the ports have no part in -/

/-- A relation between states that goes on through hand-overs and that ports, slots and the schedule have no part in. -/
structure PortFree (R : State → State → Prop) : Prop where
  refl : ∀ s, R s s
  trans : ∀ {s t u}, R s t → R t u → R s u
  mpt : ∀ s m, R s (s.setMpt m)
  sched : ∀ s l, R s (s.setSched l)

theorem rel_ite {R : State → State → Prop} {s t u : State} {c : Prop} [Decidable c] (h : R s t) (k : R s u) :
    R s (if c then t else u) := by
  split
  · exact h
  · exact k

section frames
variable {R : State → State → Prop} (pf : PortFree R)
include pf

theorem PortFree.runAny {fs : List (State → State)} (each : ∀ f ∈ fs, ∀ s, R s (f s)) (s : State) : R s (runAny fs s) :=
  runAny_rel R pf.refl (fun _ _ _ => pf.trans) pf.sched each s

theorem PortFree.foldl {α : Type} {f : State → α → State} (each : ∀ s a, R s (f s a)) (l : List α) (s : State) :
    R s (l.foldl f s) := by
  induction l generalizing s with
  | nil => exact pf.refl s
  | cons a l ih => exact pf.trans (each s a) (ih _)

theorem PortFree.eitherRefusal (a b : Option Code) (s : State) : R s (eitherRefusal a b s).2 := by
  unfold Machine.eitherRefusal
  split
  · obtain ⟨i, l, e, _⟩ := s.pick_eq 2
    rw [e]
    exact pf.sched s l
  · exact pf.refl s
  · exact pf.refl s

theorem PortFree.takeSlot (s : State) (p : Port) (k : DelayedKind) (body : List Byte) : R s (s.takeSlot p k body) := by
  unfold State.takeSlot
  split
  · exact pf.mpt s _
  · exact pf.refl s

theorem PortFree.serveDelayed (p : Port) (k : DelayedKind) (body : List Byte) {judge : Bool → State → Option Code × State}
    {start : State → State} (hj : ∀ b s, R s (judge b s).2) (hs : ∀ s, R s (start s)) (s : State) :
    R s (serveDelayed p k body judge start s).2 := by
  unfold Machine.serveDelayed
  split
  · split
    · exact pf.refl s
    · exact pf.mpt s _
  · split
    · exact pf.refl s
    · have judged := hj s.mpt.freeSlot.isSome s
      split
      · next e =>
        rw [e] at judged
        exact judged
      · next e =>
        rw [e] at judged
        exact pf.trans judged (pf.trans (pf.takeSlot _ _ _ _) (hs _))

variable (serves : ∀ r p body s, R s (serve r p body s).2) (wakes : ∀ s, R s (wake s))
include serves wakes

theorem PortFree.judgeKnown (r : Req) (p : Port) (body : List Byte) (s : State) : R s (judgeKnown r (serve r) p body s).2 := by
  unfold Machine.judgeKnown
  split
  · exact pf.refl s
  · exact wakes s
  all_goals
    split
    · exact pf.refl s
    · exact serves r p body s

theorem PortFree.judgeFrame (p : Port) (kind : Byte) (body : List Byte) (s : State) : R s (judgeFrame p kind body s).2 := by
  unfold Machine.judgeFrame
  split
  · exact pf.judgeKnown serves wakes _ p body s
  · unfold judgeUnknown
    split
    · exact pf.refl s
    · exact wakes s
    · exact pf.refl s
    · exact pf.refl s

omit serves wakes in
theorem PortFree.takeFrame (p : Port) (kind : Byte) (body : List Byte) {judge : State → Answer × State}
    (h : ∀ s, R s (judge s).2) (s : State) : R s (takeFrame p kind body judge s) :=
  rel_ite (pf.refl s) (pf.trans (pf.mpt s _)
    (rel_ite (pf.refl _) (rel_ite (pf.mpt _ _) (pf.trans (h _) (pf.mpt _ _)))))

theorem PortFree.takeRequest (r : Req) (p : Port) (body : List Byte) (s : State) : R s (takeRequest r (serve r) p body s) :=
  pf.takeFrame _ _ _ (pf.judgeKnown serves wakes r p body) s

theorem PortFree.takeAny (p : Port) (kind : Byte) (body : List Byte) (s : State) : R s (takeAny p kind body s) :=
  pf.takeFrame _ _ _ (pf.judgeFrame serves wakes p kind body) s

theorem PortFree.heldFrame (p : Port) (s : State) : R s (heldFrame p s) := by
  unfold Machine.heldFrame
  dsimp only
  split
  · exact rel_ite (pf.refl s) (pf.trans (pf.mpt _ _) (pf.trans (pf.judgeFrame serves wakes _ _ _ _) (pf.mpt _ _)))
  · exact pf.refl s

theorem PortFree.byteIn (p : Port) (b : Byte) (s : State) : R s (byteIn p b s) := by
  unfold Machine.byteIn
  dsimp only
  refine rel_ite (pf.refl s) ?_
  split
  · exact pf.mpt s _
  · exact pf.trans (pf.mpt s _) (rel_ite (pf.takeAny serves wakes _ _ _ _) (pf.refl _))

omit serves wakes in
theorem PortFree.completes {f : State → State} (hf : ∀ s, R s (f s)) {s t : State} (h : completes f s = .next t) : R s t := by
  cases h
  exact rel_ite (pf.trans (hf s) (pf.mpt _ _)) (pf.refl s)

end frames

/-! ### The laws as properties of SBC -/

/-- The laws of the bus in an operating state. -/
def Sbc.lawfulIn (b : Sbc) (op : OpState) : Prop :=
  (b.roundTimer.isSome = true ↔ b.bus ≠ .stopped) ∧
  (b.attemptTimer.isSome = true ↔ b.bus = .down) ∧
  (b.bus = .down → b.stuckTimes = []) ∧
  (b.bus = .stopped → b.roundActive = false ∧ b.phase = .idle) ∧
  (b.restartPending = true → b.bus = .running) ∧
  (b.stopping = true → b.bus = .stopped ∧ b.txn.isSome = true) ∧
  (b.startPending = true → b.stopping = true) ∧
  (busRuns op = false → b.bus = .stopped ∧ b.startPending = false) ∧
  (busRuns op = true → b.bus ≠ .stopped ∨ b.startPending = true)

theorem State.busLawful_iff (s : State) : s.busLawful ↔ s.sbc.lawfulIn s.stc.op := Iff.rfl

/-- The laws of the bus but for the two that tie it to the operating state. -/
def Sbc.lawfulApart (b : Sbc) : Prop :=
  (b.roundTimer.isSome = true ↔ b.bus ≠ .stopped) ∧
  (b.attemptTimer.isSome = true ↔ b.bus = .down) ∧
  (b.bus = .down → b.stuckTimes = []) ∧
  (b.bus = .stopped → b.roundActive = false ∧ b.phase = .idle) ∧
  (b.restartPending = true → b.bus = .running) ∧
  (b.stopping = true → b.bus = .stopped ∧ b.txn.isSome = true) ∧
  (b.startPending = true → b.stopping = true)

theorem Sbc.lawfulIn_iff (b : Sbc) (op : OpState) : b.lawfulIn op ↔ b.lawfulApart ∧
    (busRuns op = false → b.bus = .stopped ∧ b.startPending = false) ∧
    (busRuns op = true → b.bus ≠ .stopped ∨ b.startPending = true) := by
  unfold Sbc.lawfulIn Sbc.lawfulApart
  simp only [and_assoc]

/-- The laws of a bus that is not STOPPED (R32, R35). -/
theorem Sbc.lawfulIn_on {b : Sbc} (on : b.bus ≠ .stopped) (op : OpState) : b.lawfulIn op ↔
    b.roundTimer.isSome = true ∧ (b.attemptTimer.isSome = true ↔ b.bus = .down) ∧ (b.bus = .down → b.stuckTimes = []) ∧
      (b.restartPending = true → b.bus = .running) ∧ b.stopping = false ∧ b.startPending = false ∧ busRuns op = true := by
  unfold Sbc.lawfulIn
  cases b.stopping <;> cases b.startPending <;> cases busRuns op <;> simp [on]

/-- A bus that is not STOPPED goes on under the laws while its state, its timers and its marks stay. -/
theorem Sbc.lawfulIn.goesOn {b b' : Sbc} {op : OpState} (h : b.lawfulIn op) (on : b.bus ≠ .stopped)
    (same : b'.bus = b.bus ∧ b'.roundTimer.isSome = b.roundTimer.isSome ∧ b'.attemptTimer.isSome = b.attemptTimer.isSome ∧
      b'.stuckTimes = b.stuckTimes ∧ b'.restartPending = b.restartPending ∧ b'.stopping = b.stopping ∧
      b'.startPending = b.startPending) : b'.lawfulIn op := by
  obtain ⟨bus, round, attempt, times, restart, still, start⟩ := same
  rw [Sbc.lawfulIn_on (bus ▸ on), bus, round, attempt, times, restart, still, start]
  exact (Sbc.lawfulIn_on on op).1 h

/-- The laws of a STOPPED bus (R35; notes/assumptions/12.md). -/
theorem Sbc.lawfulIn_stopped {b : Sbc} (off : b.bus = .stopped) (op : OpState) : b.lawfulIn op ↔
    b.roundTimer = none ∧ b.attemptTimer = none ∧ b.roundActive = false ∧ b.phase = .idle ∧ b.restartPending = false ∧
      (b.stopping = true → b.txn.isSome = true) ∧ (b.startPending = true → b.stopping = true) ∧
      b.startPending = busRuns op := by
  unfold Sbc.lawfulIn
  cases b.startPending <;> cases busRuns op <;> simp [off, and_assoc]

/-! ### What has no part in the bus -/

/-- SBC and the operating state are as they were. -/
structure BusUntouched (s t : State) : Prop where
  sbc : t.sbc = s.sbc
  op : t.stc.op = s.stc.op

theorem BusUntouched.portFree : PortFree BusUntouched where
  refl _ := ⟨rfl, rfl⟩
  trans h k := ⟨k.sbc.trans h.sbc, k.op.trans h.op⟩
  mpt _ _ := ⟨rfl, rfl⟩
  sched _ _ := ⟨rfl, rfl⟩

theorem BusUntouched.refl (s : State) : BusUntouched s s := BusUntouched.portFree.refl s

theorem BusUntouched.trans {s t u : State} (h : BusUntouched s t) (k : BusUntouched t u) : BusUntouched s u :=
  BusUntouched.portFree.trans h k

theorem Delivered.busUntouched {s t : State} (h : Delivered s t) : BusUntouched s t := ⟨h.sbc, by rw [h.stc]⟩

theorem HandedOn.busUntouched {s t : State} (h : HandedOn s t) : BusUntouched s t := h.delivered.busUntouched

/-- The laws of the bus, and its ranges, hold on if they held. -/
structure BusKept (s t : State) : Prop where
  lawful : s.busLawful → t.busLawful
  ranged : s.sbc.inRanges → t.sbc.inRanges

theorem BusKept.portFree : PortFree BusKept where
  refl _ := ⟨id, id⟩
  trans h k := ⟨k.lawful ∘ h.lawful, k.ranged ∘ h.ranged⟩
  mpt _ _ := ⟨id, id⟩
  sched _ _ := ⟨id, id⟩

theorem BusUntouched.kept {s t : State} (h : BusUntouched s t) : BusKept s t where
  lawful k := by rw [State.busLawful_iff] at k ⊢; rwa [h.sbc, h.op]
  ranged k := h.sbc ▸ k

theorem BusKept.refl (s : State) : BusKept s s := BusKept.portFree.refl s

theorem BusKept.trans {s t u : State} (h : BusKept s t) (k : BusKept t u) : BusKept s u := BusKept.portFree.trans h k

/-! ### Operations of SBC, one by one -/

/-- An operation that sets none of the fields the laws of the bus read keeps them; which are these is said by `rfl`. -/
theorem setSbc_busKept {s : State} {b : Sbc} (lawful : s.sbc.lawfulIn s.stc.op → b.lawfulIn s.stc.op)
    (ranged : s.sbc.inRanges → b.inRanges) : BusKept s (s.setSbc b) := ⟨lawful, ranged⟩

/-- The entries of a list that the ranges allow (R15). -/
def Entry.inRanges (e : Entry) : Prop := e.failures ≤ 3 ∧ e.restarts ≤ 255

theorem Entry.polled_inRanges {e : Entry} (h : e.inRanges) (st : Bool) (obs : PollObs) (now : Nat) :
    (e.polled st obs now).inRanges := by
  obtain ⟨hf, hr⟩ := h
  have failures (o : PollOutcome) : failuresAfter o e.failures ≤ 3 := by cases o <;> simp [failuresAfter, hf]
  have restarts : (if countsRestart e.expectWaking st obs then min 255 (e.restarts + 1) else e.restarts) ≤ 255 := by
    split <;> omega
  unfold Entry.polled
  dsimp only
  split <;> exact ⟨failures _, restarts⟩

theorem Sbc.inRanges_mapEntries {b b' : Sbc} {f : Entry → Entry} (h : b.inRanges) (entries : b'.entries = b.entries.map f)
    (each : ∀ e, e.inRanges → (f e).inRanges) (no : b'.roundNo ≤ 9) (times : b'.stuckTimes.length ≤ 2) : b'.inRanges := by
  refine ⟨fun e he => ?_, no, times⟩
  rw [entries] at he
  obtain ⟨x, hx, rfl⟩ := List.mem_map.1 he
  exact each x (h.1 x hx)

/-- All that a round's going on can change of SBC: what is due, whether the round is on, and the transaction (R19). -/
theorem Sbc.advance_rest (b : Sbc) :
    b.advance = { b with due := b.advance.due, roundActive := b.advance.roundActive, txn := b.advance.txn } := by
  unfold Sbc.advance
  split
  · split <;> rfl
  · rfl

@[simp] theorem Sbc.advance_entries (b : Sbc) : b.advance.entries = b.entries := by rw [b.advance_rest]
@[simp] theorem Sbc.advance_bus (b : Sbc) : b.advance.bus = b.bus := by rw [b.advance_rest]
@[simp] theorem Sbc.advance_busFreeLow (b : Sbc) : b.advance.busFreeLow = b.busFreeLow := by rw [b.advance_rest]
@[simp] theorem Sbc.advance_roundNo (b : Sbc) : b.advance.roundNo = b.roundNo := by rw [b.advance_rest]
@[simp] theorem Sbc.advance_roundTimer (b : Sbc) : b.advance.roundTimer = b.roundTimer := by rw [b.advance_rest]
@[simp] theorem Sbc.advance_overrun (b : Sbc) : b.advance.overrun = b.overrun := by rw [b.advance_rest]
@[simp] theorem Sbc.advance_phase (b : Sbc) : b.advance.phase = b.phase := by rw [b.advance_rest]
@[simp] theorem Sbc.advance_attemptTimer (b : Sbc) : b.advance.attemptTimer = b.attemptTimer := by rw [b.advance_rest]
@[simp] theorem Sbc.advance_stuckTimes (b : Sbc) : b.advance.stuckTimes = b.stuckTimes := by rw [b.advance_rest]
@[simp] theorem Sbc.advance_pass (b : Sbc) : b.advance.pass = b.pass := by rw [b.advance_rest]
@[simp] theorem Sbc.advance_stopping (b : Sbc) : b.advance.stopping = b.stopping := by rw [b.advance_rest]
@[simp] theorem Sbc.advance_startPending (b : Sbc) : b.advance.startPending = b.startPending := by rw [b.advance_rest]
@[simp] theorem Sbc.advance_restartPending (b : Sbc) : b.advance.restartPending = b.restartPending := by rw [b.advance_rest]

theorem Sbc.advance_inRanges {b : Sbc} (h : b.inRanges) : b.advance.inRanges := by
  unfold Sbc.inRanges
  rwa [Sbc.advance_entries, Sbc.advance_roundNo, Sbc.advance_stuckTimes]

/-- A running round goes on, or ends, under the laws: the bus is RUNNING, so no stop is under way (R19). -/
theorem Sbc.advance_lawfulIn {b : Sbc} {op : OpState} (h : b.lawfulIn op) : b.advance.lawfulIn op := by
  unfold Sbc.advance
  split
  · next c =>
    have on : b.bus ≠ .stopped := by simp [c.1]
    split <;> exact h.goesOn on ⟨rfl, rfl, rfl, rfl, rfl, rfl, rfl⟩
  · exact h

theorem Sbc.beginRound_lawfulIn {b : Sbc} {op : OpState} (running : b.bus = .running) (h : b.lawfulIn op) (n : Nat) :
    (b.beginRound n).lawfulIn op := by
  have on : b.bus ≠ .stopped := by simp [running]
  exact Sbc.advance_lawfulIn (h.goesOn on ⟨rfl, rfl, rfl, rfl, rfl, rfl, rfl⟩)

theorem Sbc.beginRound_inRanges {b : Sbc} (h : b.inRanges) {n : Nat} (hn : n ≤ 9) : (b.beginRound n).inRanges :=
  Sbc.advance_inRanges ⟨h.1, hn, h.2.2⟩

theorem Sbc.roundExpiry_lawfulIn {b : Sbc} {op : OpState} {d : Nat} (timer : b.roundTimer = some d) (h : b.lawfulIn op) :
    (b.roundExpiry d).lawfulIn op := by
  have on : b.bus ≠ .stopped := h.1.1 (by simp [timer])
  have next (o : Bool) : Sbc.lawfulIn { b with
      roundTimer := some (d + roundMs), roundNo := (b.roundNo + 1) % 10, overrun := o } op :=
    h.goesOn on ⟨rfl, by simp [timer], rfl, rfl, rfl, rfl, rfl⟩
  unfold Sbc.roundExpiry
  dsimp only
  split
  · next c => exact Sbc.beginRound_lawfulIn (by exact c.1) (next _) _
  · exact next _

theorem Sbc.roundExpiry_inRanges {b : Sbc} (h : b.inRanges) (d : Nat) : (b.roundExpiry d).inRanges := by
  have hn : (b.roundNo + 1) % 10 ≤ 9 := by omega
  have next (o : Bool) : Sbc.inRanges { b with
      roundTimer := some (d + roundMs), roundNo := (b.roundNo + 1) % 10, overrun := o } := ⟨h.1, hn, h.2.2⟩
  unfold Sbc.roundExpiry
  dsimp only
  split
  · exact Sbc.beginRound_inRanges (next _) hn
  · exact next _

/-- RECOVERING is entered from RUNNING, or again from RECOVERING (R31, R34). -/
theorem Sbc.enterRecovering_lawfulIn {b : Sbc} {op : OpState} (on : b.bus = .running ∨ b.bus = .recovering) (h : b.lawfulIn op)
    (now : Nat) (times : List Nat) : (Sbc.enterRecovering { b with stuckTimes := times } now).lawfulIn op := by
  have moving : b.bus ≠ .stopped ∧ b.bus ≠ .down := by rcases on with on | on <;> simp [on]
  obtain ⟨round, attempt, -, -, still, start, runs⟩ := (Sbc.lawfulIn_on moving.1 op).1 h
  refine (Sbc.lawfulIn_on (by simp [Sbc.enterRecovering]) op).2 ⟨round, ?_, ?_, ?_, still, start, runs⟩ <;>
    simp_all [Sbc.enterRecovering, Sbc.startPulse]

theorem lastN_length {α : Type} (n : Nat) (l : List α) : (lastN n l).length ≤ n := by
  simp [lastN]; omega

theorem Sbc.keepStuck_inRanges {b : Sbc} (h : b.inRanges) (now : Nat) : (b.keepStuck now).inRanges :=
  ⟨h.1, h.2.1, lastN_length _ _⟩

theorem Sbc.backToRunning_lawfulIn {b : Sbc} {op : OpState} (on : b.bus = .recovering ∨ b.bus = .down) (h : b.lawfulIn op)
    (times : List Nat) : Sbc.lawfulIn { b.backToRunning with stuckTimes := times } op := by
  have moving : b.bus ≠ .stopped := by rcases on with on | on <;> simp [on]
  obtain ⟨round, -, -, -, still, start, runs⟩ := (Sbc.lawfulIn_on moving op).1 h
  exact (Sbc.lawfulIn_on (by simp [Sbc.backToRunning]) op).2
    ⟨round, by simp [Sbc.backToRunning], by simp [Sbc.backToRunning], fun _ => rfl, still, start, runs⟩

theorem Sbc.beginAttempt_lawfulIn {b : Sbc} {op : OpState} (down : b.bus = .down) (h : b.lawfulIn op) (now : Nat) :
    (b.beginAttempt now).lawfulIn op := by
  have on : b.bus ≠ .stopped := by simp [down]
  have timer : b.attemptTimer.isSome = true := h.2.1.2 down
  exact h.goesOn on ⟨rfl, rfl, timer.symm, rfl, rfl, rfl, rfl⟩

/-- The bus leaves STOPPED in RUN and SERVICE (R35). -/
theorem Sbc.run_lawfulIn {b : Sbc} {op : OpState} (stopped : b.bus = .stopped) (still : b.stopping = false) (h : b.lawfulApart)
    (runs : busRuns op = true) (now : Nat) : (b.run now).lawfulIn op := by
  refine Sbc.beginRound_lawfulIn rfl ?_ 0
  unfold Sbc.lawfulApart at h
  unfold Sbc.lawfulIn
  simp_all [Sbc.allExpectWaking, Sbc.allFirstDue]

theorem Sbc.run_inRanges {b : Sbc} (h : b.inRanges) (now : Nat) : (b.run now).inRanges := by
  have awake : Sbc.inRanges { b.allExpectWaking.allFirstDue with
      busFreeLow := false, bus := .running, roundTimer := some (now + roundMs), startPending := false } :=
    Sbc.inRanges_mapEntries h List.map_map (fun _ => id) h.2.1 h.2.2
  exact Sbc.beginRound_inRanges awake (Nat.zero_le _)

/-- A bus start in RUN or SERVICE brings the laws about that tie the bus to them (R35). -/
theorem busStart_lawful {s : State} (h : s.sbc.lawfulApart) (runs : busRuns s.stc.op = true) : (busStart s).busLawful := by
  rw [State.busLawful_iff]
  unfold busStart
  split
  · next stopped =>
    split
    · next still =>
      unfold Sbc.lawfulApart at h
      unfold Sbc.lawfulIn
      simp_all
    · next still => exact Sbc.run_lawfulIn stopped (by simpa using still) h runs _
  · next on => exact (Sbc.lawfulIn_iff _ _).2 ⟨h, fun e => absurd runs (by simp [e]), fun _ => .inl on⟩

theorem busStart_inRanges {s : State} (h : s.sbc.inRanges) : (busStart s).sbc.inRanges := by
  unfold busStart
  split
  · split
    · exact h
    · exact Sbc.run_inRanges h _
  · exact h

/-- The laws of a bus but for the transaction in progress, which has just ended. -/
def Sbc.endedIn (b : Sbc) (op : OpState) : Prop :=
  Sbc.lawfulIn { b with txn := some { kind := .pass, stretched := false, discarded := false } } op

theorem Sbc.lawfulIn.ended {b : Sbc} {op : OpState} (h : b.lawfulIn op) (txn : Option Txn) (pass : Option Passthrough) :
    Sbc.endedIn { b with txn := txn, pass := pass } op := by
  obtain ⟨round, attempt, times, off, restart, still, start, tied⟩ := h
  exact ⟨round, attempt, times, off, restart, fun e => ⟨(still e).1, rfl⟩, start, tied⟩

theorem Sbc.endedIn.lawful {b : Sbc} {op : OpState} (h : b.endedIn op) (still : b.stopping = false) : b.lawfulIn op := by
  unfold Sbc.endedIn Sbc.lawfulIn at h
  unfold Sbc.lawfulIn
  simpa [still] using h

/-- The end of a stop, after which the bus stays STOPPED or, when a wake has come meanwhile, runs (R35). -/
theorem Sbc.finishStop_lawfulIn {b : Sbc} {op : OpState} (h : b.endedIn op) (stopped : b.bus = .stopped) (now : Nat) :
    (b.finishStop now).lawfulIn op := by
  unfold Sbc.endedIn at h
  unfold Sbc.lawfulIn at h
  unfold Sbc.finishStop
  dsimp only
  split
  · next start =>
    have runs : busRuns op = true := by
      by_contra e
      simp_all
    exact Sbc.run_lawfulIn (b := { b with busFreeLow := true, stuckTimes := [], stopping := false, startPending := false })
      stopped rfl (by unfold Sbc.lawfulApart; simp_all) runs now
  · unfold Sbc.lawfulIn
    simp_all

theorem Sbc.finishStop_inRanges {b : Sbc} (h : b.inRanges) (now : Nat) : (b.finishStop now).inRanges := by
  have stopped : Sbc.inRanges { b with busFreeLow := true, stuckTimes := [], stopping := false } := ⟨h.1, h.2.1, Nat.zero_le _⟩
  unfold Sbc.finishStop
  dsimp only
  split
  · exact Sbc.run_inRanges stopped now
  · exact stopped

/-- A stop brings the laws of START and STANDBY about (R35). -/
theorem busStop_lawful {s : State} (runs : busRuns s.stc.op = false) : (busStop s).busLawful := by
  rw [State.busLawful_iff]
  show (s.sbc.stop s.now).lawfulIn s.stc.op
  unfold Sbc.stop Sbc.finishStop
  dsimp only
  unfold Sbc.lawfulIn
  split
  · simp_all
  · simp [runs]

theorem busStop_inRanges {s : State} (h : s.sbc.inRanges) : (busStop s).sbc.inRanges := by
  show (s.sbc.stop s.now).inRanges
  unfold Sbc.stop
  dsimp only
  split
  · exact h
  · have halted : Sbc.inRanges { s.sbc with
        bus := .stopped, roundTimer := none, roundActive := false, due := [], phase := .idle, attemptTimer := none
        stopping := true, startPending := false, restartPending := false } := h
    exact Sbc.finishStop_inRanges halted _

end Sys2Proof.Machine
end

section
/-! PROOFS. The laws of the sensor bus through every command (R15, R19, R32 to R35): O11. -/

namespace Sys2Proof.Machine

/-! ### Entries polled, recoveries, ends of transactions -/

/-- Reports leave the bus alone. -/
theorem reportEntry_busUntouched (e : Entry) (s : State) : BusUntouched s (reportEntry e s) := ⟨rfl, rfl⟩

theorem foldl_reports_busUntouched (l : List Entry) (s : State) : BusUntouched s (l.foldl (fun s e => reportEntry e s) s) :=
  BusUntouched.portFree.foldl (fun s e => reportEntry_busUntouched e s) l s

theorem present_busUntouched (src : HoldSource) (mask : LineMask) (s : State) : BusUntouched s (present src mask s) := by
  obtain ⟨m, e, -⟩ := present_rest src mask s
  rw [e]
  exact ⟨rfl, rfl⟩

/-- All that an applied outcome changes of SBC: the entries of the role polled (R24 to R27). -/
theorem applyPoll_bus (e : Entry) (st : Bool) (obs : PollObs) (s : State) :
    BusUntouched (s.setSbc (s.sbc.mapRole e.pd.role (fun _ => e.polled st obs s.now))) (applyPoll e st obs s) := by
  have reported (e' : Entry) (t : State) (c : Prop) [Decidable c] : BusUntouched t (if c then reportEntry e' t else t) :=
    rel_ite (reportEntry_busUntouched _ _) (BusUntouched.refl _)
  unfold applyPoll
  dsimp only
  split
  · exact BusUntouched.trans (rel_ite (BusUntouched.trans (reported _ _ _) (startAfresh_delivered _ _).busUntouched)
      (reported _ _ _)) (deliverSample_delivered _ _ _ _).busUntouched
  · exact reported _ _ _

theorem applyPoll_busKept {e : Entry} (he : e.inRanges) (st : Bool) (obs : PollObs) (s : State) :
    BusKept s (applyPoll e st obs s) := by
  refine BusKept.trans (t := s.setSbc (s.sbc.mapRole e.pd.role (fun _ => e.polled st obs s.now))) (setSbc_busKept id (fun h => ?_))
    (applyPoll_bus e st obs s).kept
  refine Sbc.inRanges_mapEntries h rfl (fun y hy => ?_) h.2.1 h.2.2
  split
  · exact Entry.polled_inRanges he _ _ _
  · exact hy

/-- Every entry MISSING, and the bus as it was (R32). -/
theorem allMissing_bus (s : State) :
    BusUntouched (s.setSbc { s.sbc with entries := s.sbc.entries.map Entry.down }) (allMissing s) :=
  foldl_reports_busUntouched _ _

theorem Sbc.mapDown_inRanges {b : Sbc} (h : b.inRanges) : Sbc.inRanges { b with entries := b.entries.map Entry.down } :=
  Sbc.inRanges_mapEntries h rfl (fun _ he => ⟨Nat.le_refl 3, he.2⟩) h.2.1 h.2.2

theorem allMissing_inRanges {s : State} (h : s.sbc.inRanges) : (allMissing s).sbc.inRanges := by
  rw [(allMissing_bus s).sbc]
  exact Sbc.mapDown_inRanges h

/-- The laws of the bus read no passthrough. -/
theorem Sbc.noPass_lawfulIn {b : Sbc} {op : OpState} (h : b.lawfulIn op) : Sbc.lawfulIn { b with pass := none } op := h

theorem endWaitingPass_busKept (c : WorkCode) (s : State) : BusKept s (endWaitingPass c s) :=
  rel_ite (BusKept.trans (setSbc_busKept Sbc.noPass_lawfulIn id) (BusKept.portFree.mpt _ _)) (.refl s)

/-- A bus that was not STOPPED enters DOWN under the laws (R32). -/
theorem enterDown_busKept {s : State} (on : s.sbc.bus ≠ .stopped) : BusKept s (enterDown s) := by
  have down : BusKept s (s.setSbc { s.sbc with
      bus := .down, stuckTimes := [], due := [], roundActive := false, phase := .idle, busFreeLow := false
      attemptTimer := some (s.now + attemptMs), restartPending := false }) := by
    refine setSbc_busKept (fun h => ?_) (fun h => ⟨h.1, h.2.1, Nat.zero_le _⟩)
    obtain ⟨round, -, -, -, still, start, runs⟩ := (Sbc.lawfulIn_on on _).1 h
    exact (Sbc.lawfulIn_on (by simp) _).2 ⟨round, by simp, by simp, by simp, still, start, runs⟩
  have missing (u : State) : BusKept u (allMissing u) :=
    BusKept.trans (t := u.setSbc { u.sbc with entries := u.sbc.entries.map Entry.down })
      (setSbc_busKept id Sbc.mapDown_inRanges) (allMissing_bus u).kept
  exact down.trans ((missing _).trans (endWaitingPass_busKept _ _))

/-- A stuck bus moves to RECOVERING or DOWN (R31, R32). -/
theorem busStuck_busKept {s : State} (on : s.sbc.bus = .running ∨ s.sbc.bus = .recovering) : BusKept s (busStuck s) := by
  have moving : s.sbc.bus ≠ .stopped := by rcases on with on | on <;> simp [on]
  exact rel_ite (enterDown_busKept moving)
    (setSbc_busKept (fun h => Sbc.enterRecovering_lawfulIn on h _ _) (fun h => Sbc.keepStuck_inRanges h _))

/-- What follows a transaction that has just ended leaves the bus under its laws (R31 to R35). -/
theorem afterTransaction_lawful {stuck : Bool} {s : State} (h : s.sbc.endedIn s.stc.op) : (afterTransaction stuck s).busLawful := by
  unfold afterTransaction
  split
  · next still =>
    have stopped : s.sbc.bus = .stopped := (h.2.2.2.2.2.1 still).1
    have ended : ∀ u, BusUntouched s u ∨ BusUntouched (s.setSbc { s.sbc with entries := s.sbc.entries.map Entry.down }) u →
        (u.setSbc (u.sbc.finishStop u.now)).busLawful := by
      rintro u (k | k)
      all_goals
        rw [State.busLawful_iff]
        have hu : u.sbc.endedIn u.stc.op ∧ u.sbc.bus = .stopped := by rw [k.sbc, k.op]; exact ⟨h, stopped⟩
        exact Sbc.finishStop_lawfulIn hu.1 hu.2 _
    dsimp only
    split
    · exact ended _ (.inr (allMissing_bus s))
    · exact ended _ (.inl ⟨rfl, rfl⟩)
  · next still =>
    have lawful : s.busLawful := h.lawful (by simpa using still)
    split
    · next c => exact (busStuck_busKept (.inl c.2)).lawful lawful
    · split
      · next pending => exact Sbc.enterRecovering_lawfulIn (.inl (lawful.2.2.2.2.1 pending)) lawful _ _
      · exact Sbc.advance_lawfulIn lawful

theorem afterTransaction_inRanges {stuck : Bool} {s : State} (h : s.sbc.inRanges) : (afterTransaction stuck s).sbc.inRanges := by
  unfold afterTransaction
  split
  · dsimp only
    split
    · exact Sbc.finishStop_inRanges (allMissing_inRanges h) _
    · exact Sbc.finishStop_inRanges h _
  · split
    · next c => exact (busStuck_busKept (.inl c.2)).ranged h
    · split
      · exact h
      · exact Sbc.advance_inRanges h

/-- What follows an attempt's poll that has just ended leaves the bus under its laws (R33). -/
theorem afterAttempt_lawful {ok : Bool} {s : State} (h : s.sbc.endedIn s.stc.op) : (afterAttempt ok s).busLawful := by
  unfold afterAttempt
  split
  · next still => exact Sbc.finishStop_lawfulIn h (h.2.2.2.2.2.1 still).1 _
  · next still =>
    have lawful : s.busLawful := h.lawful (by simpa using still)
    split
    · next c => exact Sbc.backToRunning_lawfulIn (.inr c.2) lawful []
    · exact lawful

theorem afterAttempt_inRanges {ok : Bool} {s : State} (h : s.sbc.inRanges) : (afterAttempt ok s).sbc.inRanges := by
  unfold afterAttempt
  split
  · exact Sbc.finishStop_inRanges h _
  · split
    · exact ⟨h.1, h.2.1, Nat.zero_le _⟩
    · exact h

theorem Sbc.entryOf_mem {b : Sbc} {r : Role} {e : Entry} (h : b.entryOf r = some e) : e ∈ b.entries := List.mem_of_find?_eq_some h

/-- A poll's entry comes from the list. -/
theorem Sbc.polledEntry_mem {b : Sbc} {t : Txn} {r : Role} {e : Entry} (h : b.polledEntry t r = some e) : e ∈ b.entries := by
  unfold Sbc.polledEntry at h
  split at h
  · cases h
  · exact Sbc.entryOf_mem h

/-- A poll's completion keeps the laws when what follows it does (R23, R25). -/
theorem pollDone_busKept {t : Txn} {r : Role} {obs : PollObs} {after : Bool → PollOutcome → State → State} {s : State}
    (txn : s.sbc.txn = some t) (lawful : ∀ b o u, u.sbc.endedIn u.stc.op → (after b o u).busLawful)
    (ranged : ∀ b o u, u.sbc.inRanges → (after b o u).sbc.inRanges) : BusKept s (pollDone t r obs after s) := by
  unfold pollDone
  split
  · next e he =>
    have he := Sbc.polledEntry_mem he
    dsimp only
    split
    · refine ⟨fun h => ?_, fun h => (applyPoll_busKept (h.1 e he) _ _ _).ranged h⟩
      have applied := applyPoll_bus e t.stretched obs (s.setSbc { s.sbc with txn := some { t with stretched := false } })
      rw [State.busLawful_iff] at h ⊢
      rw [applied.sbc, applied.op]
      unfold Sbc.lawfulIn at h ⊢
      simpa [txn, Sbc.mapRole] using h
    · have applied := applyPoll_bus e t.stretched obs (s.setSbc s.sbc.clearTxn)
      refine ⟨fun h => lawful _ _ _ ?_, fun h => ranged _ _ _ ((applyPoll_busKept (h.1 e he) _ _ _).ranged h)⟩
      rw [applied.sbc, applied.op]
      exact Sbc.lawfulIn.ended (show s.sbc.lawfulIn s.stc.op from h) none s.sbc.pass
  · exact ⟨fun h => lawful _ _ _ (Sbc.lawfulIn.ended (show s.sbc.lawfulIn s.stc.op from h) none s.sbc.pass), fun h => ranged _ _ _ h⟩

theorem pollTransactionDone_busKept (obs : PollObs) (s : State) : BusKept s (pollTransactionDone obs s) := by
  unfold pollTransactionDone
  split
  · next t txn =>
    split
    · exact pollDone_busKept txn (fun _ _ _ => afterTransaction_lawful) (fun _ _ _ => afterTransaction_inRanges)
    · exact pollDone_busKept txn (fun _ _ _ => afterAttempt_lawful) (fun _ _ _ => afterAttempt_inRanges)
    · exact .refl s
  · exact .refl s

theorem passthroughDone_busKept (obs : PassObs) (s : State) : BusKept s (passthroughDone obs s) := by
  unfold passthroughDone
  split
  · split
    · exact ⟨fun h => afterTransaction_lawful (Sbc.lawfulIn.ended (show s.sbc.lawfulIn s.stc.op from h) none none),
        fun h => afterTransaction_inRanges h⟩
    · exact .refl s
  · exact .refl s

/-! ### Timers of the bus -/

theorem stretchTimeout_busKept (s : State) : BusKept s (stretchTimeout s) := by
  unfold stretchTimeout
  split
  · next t txn =>
    refine setSbc_busKept (fun h => ?_) id
    unfold Sbc.lawfulIn at h ⊢
    simpa [txn] using h
  · exact .refl s

theorem roundTimerExpiry_busKept (s : State) : BusKept s (roundTimerExpiry s) := by
  unfold roundTimerExpiry
  split
  · next d timer =>
    exact rel_ite (setSbc_busKept (fun h => Sbc.roundExpiry_lawfulIn timer h) (fun h => Sbc.roundExpiry_inRanges h d)) (.refl s)
  · exact .refl s

theorem sensorStale_busKept (r : Role) (s : State) : BusKept s (sensorStale r s) := by
  have marked : BusKept s (s.setSbc (s.sbc.mapRole r (fun e => { e with stale := true }))) :=
    setSbc_busKept id (fun h => Sbc.inRanges_mapEntries h rfl (fun y hy => by split <;> exact hy) h.2.1 h.2.2)
  unfold sensorStale
  split
  · exact rel_ite (marked.trans ((reportEntry_busUntouched _ _).kept.trans (deliverStale_delivered _ _).busUntouched.kept)) (.refl s)
  · exact .refl s

theorem busFreePulseEnd_busKept (s : State) : BusKept s (busFreePulseEnd s) := by
  unfold busFreePulseEnd
  split
  · next u pulse =>
    refine rel_ite (setSbc_busKept (fun h => ?_)
      (fun h => Sbc.inRanges_mapEntries h rfl (fun _ => id) h.2.1 h.2.2)) (.refl s)
    have on : s.sbc.bus ≠ .stopped := fun off => by simpa [pulse] using (h.2.2.2.1 off).2
    exact h.goesOn on ⟨rfl, rfl, rfl, rfl, rfl, rfl, rfl⟩
  · exact .refl s
  · exact .refl s

theorem recoveryWaitEnd_busKept (dataHigh : Bool) (s : State) : BusKept s (recoveryWaitEnd dataHigh s) := by
  unfold recoveryWaitEnd
  split
  · split
    · next c =>
      exact rel_ite (setSbc_busKept (fun h => Sbc.backToRunning_lawfulIn (.inl c.2) h s.sbc.stuckTimes) id)
        (busStuck_busKept (.inr c.2))
    · exact .refl s
  · exact .refl s
  · exact .refl s

theorem recoveryAttempt_busKept (s : State) : BusKept s (recoveryAttempt s) := by
  unfold recoveryAttempt
  split
  · next d timer =>
    split
    · next c =>
      have on : s.sbc.bus ≠ .stopped := by simp [c.2]
      exact rel_ite (setSbc_busKept (fun h => h.goesOn on ⟨rfl, rfl, by simp [timer], rfl, rfl, rfl, rfl⟩) id)
        (setSbc_busKept (fun h => Sbc.beginAttempt_lawfulIn c.2 h _) id)
    · exact .refl s
  · exact .refl s

theorem attemptWaitEnd_busKept (dataHigh : Bool) (s : State) : BusKept s (attemptWaitEnd dataHigh s) := by
  unfold attemptWaitEnd
  split
  · split
    · next c =>
      have on : s.sbc.bus ≠ .stopped := by simp [c.2]
      have halted (x : Option Txn) : BusKept s (s.setSbc { s.sbc with phase := .idle, txn := x }) :=
        setSbc_busKept (fun h => h.goesOn on ⟨rfl, rfl, rfl, rfl, rfl, rfl, rfl⟩) id
      dsimp only
      split
      · split
        · exact halted _
        · exact setSbc_busKept (fun h => Sbc.backToRunning_lawfulIn (b := { s.sbc with phase := .idle }) (.inr c.2)
            (h.goesOn on ⟨rfl, rfl, rfl, rfl, rfl, rfl, rfl⟩) []) (fun h => ⟨h.1, h.2.1, Nat.zero_le _⟩)
      · exact halted s.sbc.txn
    · exact .refl s
  · exact .refl s
  · exact .refl s

/-! ### The poll list, the operating states, the settings -/

theorem replaceEvent_busUntouched (new : List Entry) (e : Entry) (s : State) : BusUntouched s (replaceEvent new e s) := by
  have lost (body : List Byte) : BusUntouched s (if e.fresh? = true then deliverStale e.pd.role (s.queueReport .sensorState body)
      else s.queueReport .sensorState body) :=
    BusUntouched.trans (BusUntouched.portFree.mpt s _)
      (rel_ite (deliverStale_delivered _ _).busUntouched (BusUntouched.refl _))
  unfold replaceEvent
  split
  · exact lost _
  · next e' _ =>
    exact rel_ite (lost _) (rel_ite (BusUntouched.refl s)
      (rel_ite (BusUntouched.trans (reportEntry_busUntouched e' s) (deliverStale_delivered _ _).busUntouched)
        (BusUntouched.refl s)))

theorem carryEntry_inRanges {old : List Entry} (h : ∀ e ∈ old, e.inRanges) (d : PollDef) : (carryEntry old d).inRanges := by
  unfold carryEntry
  split
  · next e he =>
    have he := h e (List.mem_of_find?_eq_some he)
    split <;> exact he
  · exact ⟨Nat.le_refl 3, Nat.zero_le _⟩

theorem takePollWrite_busKept (list : List PollDef) (s : State) : BusKept s (takePollWrite list s) := by
  refine .trans (setSbc_busKept (fun h => ?_) (fun h => ?_)) (.trans (BusUntouched.portFree.runAny (fun f hf => ?_) _).kept
    (recompute_delivered _).busUntouched.kept)
  · unfold Sbc.lawfulIn at h ⊢
    simpa using h
  · refine ⟨fun e he => ?_, h.2.1, h.2.2⟩
    obtain ⟨d, -, rfl⟩ := List.mem_map.1 he
    exact carryEntry_inRanges h.1 d
  · obtain ⟨e, -, rfl⟩ := List.mem_map.1 hf
    exact replaceEvent_busUntouched _ e

/-- What the blocks do at a change of the operating state, less the bus (R192). -/
theorem stateHandOvers_cases {old new : OpState} {bad : Bool} {f : State → State} (hf : f ∈ stateHandOvers old new bad) :
    (busRuns old = false ∧ busRuns new = true ∧ f = busStart) ∨ (busRuns old = true ∧ busRuns new = false ∧ f = busStop) ∨
      f = endWaitingPass .aborted ∨ ∀ s, BusUntouched s (f s) := by
  simp only [stateHandOvers, List.mem_append, or_assoc] at hf
  rcases hf with hf | hf | hf | hf
  · obtain rfl := List.mem_singleton.1 hf
    exact .inr (.inr (.inr fun s => ⟨rfl, rfl⟩))
  · split at hf
    · cases hf
    · obtain rfl := List.mem_singleton.1 hf
      exact .inr (.inr (.inr (present_busUntouched .state (stateMask new))))
  · split at hf
    · cases hf
    · split at hf <;> obtain rfl := List.mem_singleton.1 hf
      · next differ runs => exact .inl ⟨by simpa [runs] using differ, runs, rfl⟩
      · next differ halts =>
        have halts : busRuns new = false := by simpa using halts
        exact .inr (.inl ⟨by simpa [halts] using differ, halts, rfl⟩)
  · split at hf
    · simp only [List.mem_cons, List.not_mem_nil, or_false] at hf
      rcases hf with rfl | rfl | rfl
      · exact .inr (.inr (.inr fun s => (cpmTake_handedOn _ s).busUntouched))
      · exact .inr (.inr (.inr fun s => (endCal_delivered _ s).busUntouched))
      · exact .inr (.inr (.inl rfl))
    · cases hf

/-- The bus is started or stopped exactly where its running changes (R35). -/
theorem stateHandOvers_bus {old new : OpState} (bad : Bool) (differ : busRuns old ≠ busRuns new) :
    (if busRuns new = true then busStart else busStop) ∈ stateHandOvers old new bad := by
  simp only [stateHandOvers, if_neg differ, List.mem_append]
  refine .inl (.inr ?_)
  split <;> simp

theorem endWaitingPass_op (c : WorkCode) (s : State) : (endWaitingPass c s).stc.op = s.stc.op := by
  unfold endWaitingPass; split <;> rfl

/-- The bus goes with the operating state, in whatever order the blocks take the change (R35, R192). -/
theorem changeState_busKept (new : OpState) (s : State) : BusKept s (changeState new s) := by
  set fs := stateHandOvers s.stc.op new s.stc.settingsBad
  set t := s.setStc { s.stc with op := new }
  have ops : ∀ f ∈ fs, ∀ u, u.stc.op = new → (f u).stc.op = new := by
    intro f hf u hu
    obtain ⟨-, -, rfl⟩ | ⟨-, -, rfl⟩ | rfl | k := stateHandOvers_cases hf
    · rw [← hu]; unfold busStart; split <;> rfl
    · exact hu
    · exact (endWaitingPass_op _ u).trans hu
    · exact (k u).op.trans hu
  have passKept (c : WorkCode) (u : State) (h : u.sbc.lawfulApart) : (endWaitingPass c u).sbc.lawfulApart := by
    unfold endWaitingPass; split <;> exact h
  refine ⟨fun h => ?_, fun h => ?_⟩
  · obtain ⟨apart, halts, runs⟩ := (Sbc.lawfulIn_iff _ _).1 h
    by_cases same : busRuns s.stc.op = busRuns new
    · have start : t.busLawful := (Sbc.lawfulIn_iff _ _).2 ⟨apart, fun e => halts (same.trans e), fun e => runs (same.trans e)⟩
      refine runAny_keeps State.busLawful (fun _ _ h => h) (fun f hf u hu => ?_) start
      obtain ⟨off, on, -⟩ | ⟨on, off, -⟩ | rfl | k := stateHandOvers_cases hf
      · rw [off, on] at same; cases same
      · rw [off, on] at same; cases same
      · exact (endWaitingPass_busKept _ u).lawful hu
      · exact (k u).kept.lawful hu
    · let I (u : State) := u.stc.op = new ∧ u.sbc.lawfulApart
      have brings : ∀ f ∈ fs, ∀ u, I u → (busRuns new = true ∧ f = busStart ∨ busRuns new = false ∧ f = busStop) →
          (f u).busLawful := by
        rintro f - u ⟨op, apart⟩ (⟨runs, rfl⟩ | ⟨halts, rfl⟩)
        · exact busStart_lawful apart (op ▸ runs)
        · exact busStop_lawful (op ▸ halts)
      have keepsI : ∀ f ∈ fs, ∀ u, I u → I (f u) := by
        rintro f hf u hI
        refine ⟨ops f hf u hI.1, ?_⟩
        obtain ⟨-, runs, rfl⟩ | ⟨-, halts, rfl⟩ | rfl | k := stateHandOvers_cases hf
        · exact ((Sbc.lawfulIn_iff _ _).1 (brings _ hf u hI (.inl ⟨runs, rfl⟩))).1
        · exact ((Sbc.lawfulIn_iff _ _).1 (brings _ hf u hI (.inr ⟨halts, rfl⟩))).1
        · exact passKept _ u hI.2
        · rw [(k u).sbc]; exact hI.2
      have keepsJ : ∀ f ∈ fs, ∀ u, I u → u.busLawful → (f u).busLawful := by
        rintro f hf u hI hJ
        obtain ⟨-, runs, rfl⟩ | ⟨-, halts, rfl⟩ | rfl | k := stateHandOvers_cases hf
        · exact brings _ hf u hI (.inl ⟨runs, rfl⟩)
        · exact brings _ hf u hI (.inr ⟨halts, rfl⟩)
        · exact (endWaitingPass_busKept _ u).lawful hJ
        · exact (k u).kept.lawful hJ
      refine runAny_brings_within I State.busLawful (fun _ _ h => h) (fun _ _ h => h) keepsI keepsJ
        (stateHandOvers_bus _ same) (fun u hI => brings _ (stateHandOvers_bus _ same) u hI ?_) (s := t) ⟨rfl, apart⟩
      cases busRuns new <;> simp
  · refine runAny_keeps (fun u => u.sbc.inRanges) (fun _ _ h => h) (fun f hf u hu => ?_) (s := t) h
    obtain ⟨-, -, rfl⟩ | ⟨-, -, rfl⟩ | rfl | k := stateHandOvers_cases hf
    · exact busStart_inRanges hu
    · exact busStop_inRanges hu
    · exact (endWaitingPass_busKept _ u).ranged hu
    · exact (k u).kept.ranged hu

theorem install_busKept (good : Bool) (c : ImageContents) (s : State) : BusKept s (install good c s) := by
  refine .trans (BusUntouched.kept (t := s.setCfg { s.cfg with sw := c.settings.sw }) ⟨rfl, rfl⟩)
    (BusKept.portFree.runAny (fun f hf u => ?_) _)
  have setCfg (g : Settings) : BusKept u (u.setCfg g) := BusUntouched.kept ⟨rfl, rfl⟩
  simp only [List.mem_cons, List.not_mem_nil, or_false] at hf
  rcases hf with rfl | rfl | rfl | rfl | rfl
  · refine setSbc_busKept id (fun h => ⟨fun e he => ?_, h.2.1, h.2.2⟩)
    obtain ⟨d, -, rfl⟩ := List.mem_map.1 he
    exact ⟨Nat.le_refl 3, Nat.zero_le _⟩
  · exact (setCfg _).trans (recompute_delivered _).busUntouched.kept
  · exact (setCfg _).trans (rel_ite (.refl _) (BusUntouched.kept ⟨rfl, rfl⟩))
  · exact (setCfg _).trans (cpmEvaluate_handedOn _).busUntouched.kept
  · exact (makeEntries_handedOn _ u).busUntouched.kept

theorem preloadDone_busKept (readFailed : Bool) (s : State) : BusKept s (preloadDone readFailed s) := by
  have marked (bad : Bool) (u : State) : BusUntouched u
      (u.setStc { u.stc with preloading := false, settingsBad := bad, imageBad := bad, marker := true }) := ⟨rfl, rfl⟩
  unfold preloadDone
  split
  · exact (install_busKept _ _ s).trans ((marked _ _).kept.trans (changeState_busKept _ _))
  · exact .refl s

theorem Sbc.reset_lawfulIn : Sbc.reset.lawfulIn .start :=
  (Sbc.lawfulIn_stopped rfl .start).2 ⟨rfl, rfl, rfl, rfl, rfl, nofun, nofun, rfl⟩

theorem Sbc.reset_inRanges : Sbc.reset.inRanges := by simp [Sbc.inRanges, Sbc.reset]

theorem afterReset_sbc (warm : Bool) (s : State) : (afterReset warm s).sbc = .reset := rfl
theorem afterReset_op (warm : Bool) (s : State) : (afterReset warm s).stc.op = .start := rfl

/-- A reset leaves the bus STOPPED in START (R35, R40). -/
theorem afterReset_busKept (warm : Bool) (s : State) : BusKept s (afterReset warm s) where
  lawful _ := by
    rw [State.busLawful_iff, afterReset_sbc, afterReset_op]
    exact Sbc.reset_lawfulIn
  ranged _ := by
    rw [afterReset_sbc]
    exact Sbc.reset_inRanges

theorem supplyLoss_busKept (backupInterrupted : Bool) (s : State) : BusKept s (supplyLoss backupInterrupted s) :=
  (afterReset_busKept true s).trans (BusUntouched.kept (t := supplyLoss backupInterrupted s) ⟨rfl, rfl⟩)

end Sys2Proof.Machine
end

section
/-! PROOFS. The laws of the sensor bus at requests, at every command and at every step: O11. -/

namespace Sys2Proof.Machine

/-! ### The owners of the requests -/

theorem setCfg_busUntouched (s : State) (c : Settings) : BusUntouched s (s.setCfg c) := ⟨rfl, rfl⟩
theorem setHls_busUntouched (s : State) (h : Hls) : BusUntouched s (s.setHls h) := ⟨rfl, rfl⟩
theorem setTlu_busUntouched (s : State) (t : Tlu) : BusUntouched s (s.setTlu t) := ⟨rfl, rfl⟩
theorem setWge_busUntouched (s : State) (w : Wge) : BusUntouched s (s.setWge w) := ⟨rfl, rfl⟩

theorem changeState_wake_busKept (s : State) : BusKept s (wake s) := changeState_busKept .run s

theorem takeSwitches_busUntouched (w : Switches) (s : State) : BusUntouched s (takeSwitches w s) := by
  unfold takeSwitches
  refine BusUntouched.trans ?_ (cpmEvaluate_handedOn _).busUntouched
  split
  · exact setCfg_busUntouched s _
  · exact (setCfg_busUntouched s _).trans (setWge_busUntouched _ _)

section owners
variable (p : Port) (body : List Byte) (s : State)

theorem servePollWrite_busKept : BusKept s (servePollWrite p body s).2 := by
  unfold servePollWrite
  have judged := BusKept.portFree.eitherRefusal (if s.committing then some .busy else none) (pollRefusal (pollDefsOf body)) s
  dsimp only
  split
  · next e =>
    rw [e] at judged
    exact judged
  · next e =>
    rw [e] at judged
    exact judged.trans (takePollWrite_busKept _ _)

/-- A passthrough accepted waits, or ends at once; the laws read none (R33, R36). -/
theorem startPass_busKept (x : Passthrough) : BusKept s (startPass x s) := by
  have waits : BusKept s (s.setSbc { s.sbc with pass := some x }) := setSbc_busKept id id
  exact waits.trans (rel_ite (endWaitingPass_busKept _ _) (.refl _))

theorem serveSensorPass_busKept : BusKept s (serveSensorPass p body s).2 := by
  refine BusKept.portFree.serveDelayed _ _ _ (fun _ s => BusKept.portFree.eitherRefusal _ _ s) (fun s => ?_) s
  cases passOf body with
  | none => exact .refl s
  | some x => exact startPass_busKept s x

/-- A BUS_RESTART recovers at once, waits, or is refused (R34). -/
theorem serveBusRestart_busKept : BusKept s (serveBusRestart p body s).2 := by
  unfold serveBusRestart
  split
  · next running =>
    have on : s.sbc.bus ≠ .stopped := by simp [running]
    split
    · refine setSbc_busKept (fun h => ?_) id
      obtain ⟨round, attempt, times, -, rest⟩ := (Sbc.lawfulIn_on on _).1 h
      exact (Sbc.lawfulIn_on (b := { s.sbc with restartPending := true, due := [], roundActive := false }) on _).2
        ⟨round, attempt, times, fun _ => running, rest⟩
    · exact setSbc_busKept (fun h => Sbc.enterRecovering_lawfulIn (.inl running) h _ s.sbc.stuckTimes) id
  · next down =>
    split
    · exact .refl s
    · exact setSbc_busKept (fun h => Sbc.beginAttempt_lawfulIn down h _) id
  · exact .refl s
  · exact .refl s

theorem takeParam_busUntouched (q : Param) (v : Int) : BusUntouched s (takeParam q v s) := by
  have act (u : State) : BusUntouched u (q.act v u) := by
    cases q
    case l1 | l2 | teleMax | column | slewOff | slewLo | slewHi | reachLo | reachHi => exact (recompute_delivered u).busUntouched
    case pageSize | k | fMin | uWarn | uHold | uRel => exact (cpmEvaluate_handedOn u).busUntouched
    case z | span => exact ⟨rfl, rfl⟩
    case lMin | d | rs | rm | n | nMin | zb | permitS => exact ⟨rfl, rfl⟩
  exact (setCfg_busUntouched s _).trans (act _)

theorem serveSetAssortment_busUntouched : BusUntouched s (serveSetAssortment p body s).2 := by
  unfold serveSetAssortment
  dsimp only
  split
  · exact setTlu_busUntouched s _
  · exact .refl s

theorem serveVoidLift_busUntouched : BusUntouched s (serveVoidLift p body s).2 := by
  unfold serveVoidLift
  split
  · exact .refl s
  · exact (setTlu_busUntouched s _).trans (handBunkTotal_handedOn _ _).busUntouched

theorem serveAssignLift_busUntouched : BusUntouched s (serveAssignLift p body s).2 := by
  unfold serveAssignLift
  split
  · exact .refl s
  · exact ((setTlu_busUntouched s _).trans (rel_ite (reportTripClosed_handedOn _ _).busUntouched (.refl _))).trans
      (handBunkTotal_handedOn _ _).busUntouched

theorem serveTripClose_busUntouched : BusUntouched s (serveTripClose p body s).2 := by
  unfold serveTripClose
  split
  · exact ((setTlu_busUntouched s _).trans (reportTripClosed_handedOn _ _).busUntouched).trans
      (handBunkTotal_handedOn _ _).busUntouched
  · exact .refl s

theorem acceptTare_busUntouched : BusUntouched s (acceptTare p s) :=
  rel_ite ((setWge_busUntouched s _).trans (endTare_delivered _ _).busUntouched) (setWge_busUntouched s _)

theorem acceptCal_busUntouched (mref : Nat) : BusUntouched s (acceptCal mref s) :=
  rel_ite ((setWge_busUntouched s _).trans (endCal_delivered _ _).busUntouched) (setWge_busUntouched s _)

theorem startCommit_busUntouched : BusUntouched s (startCommit s) := ⟨rfl, rfl⟩

theorem serveChartWrite_busUntouched : BusUntouched s (serveChartWrite p body s).2 := by
  unfold serveChartWrite
  have judged := BusUntouched.portFree.eitherRefusal (if s.committing then some .busy else none)
    (if runAllowed (natAt body 0 1) (natAt body 1 1) then none else some .badField) s
  split
  · next e =>
    rw [e] at judged
    exact judged
  · next e =>
    rw [e] at judged
    exact (judged.trans (setCfg_busUntouched _ _)).trans (cpmEvaluate_handedOn _).busUntouched

theorem serveOverrideSet_busUntouched : BusUntouched s (serveOverrideSet p body s).2 := by
  unfold serveOverrideSet
  split
  · next i o _ => exact (cpmTake_handedOn (fun c => { c with overrides := c.overrides.set i o }) s).busUntouched
  · exact .refl s

theorem servePermit_busUntouched : BusUntouched s (servePermit p body s).2 := by
  unfold servePermit
  split
  · exact .refl s
  · split
    · exact .refl s
    · split
      · exact .refl s
      · exact (startPermit_handedOn s).busUntouched

theorem serveWatchWrite_busUntouched : BusUntouched s (serveWatchWrite p body s).2 := by
  unfold serveWatchWrite
  split
  · exact .refl s
  · split
    · exact .refl s
    · split
      · exact .refl s
      · exact (takeWatchWrite_handedOn _ _ s).busUntouched

theorem serveCaptureRead_busUntouched : BusUntouched s (serveCaptureRead p body s).2 := by
  unfold serveCaptureRead
  split
  · exact (setWt_handedOn s _).busUntouched
  · exact .refl s

theorem serveHoldManual_busUntouched : BusUntouched s (serveHoldManual p body s).2 := by
  unfold serveHoldManual
  split
  · exact present_busUntouched _ _ s
  · exact .refl s

theorem serveLineFaultClear_busUntouched : BusUntouched s (serveLineFaultClear p body s).2 := by
  unfold serveLineFaultClear
  split
  · exact (setHls_busUntouched s _).trans (rel_ite (present_busUntouched _ _ _) (.refl _))
  · exact .refl s

theorem serveParamWrite_busUntouched : BusUntouched s (serveParamWrite p body s).2 := by
  unfold serveParamWrite
  split
  · exact .refl s
  · dsimp only
    split
    · exact .refl s
    · split
      · exact .refl s
      · exact takeParam_busUntouched s _ _

theorem serveFeatures_busUntouched : BusUntouched s (serveFeatures p body s).2 := by
  unfold serveFeatures
  split
  · exact .refl s
  · exact takeSwitches_busUntouched _ s

theorem serveRestart_busUntouched : BusUntouched s (serveRestart p body s).2 := by
  unfold serveRestart
  split
  · exact .refl s
  · exact ⟨rfl, rfl⟩

theorem serveReportEnable_busUntouched : BusUntouched s (serveReportEnable p body s).2 := by
  unfold serveReportEnable
  dsimp only
  split
  · exact ⟨rfl, rfl⟩
  · exact .refl s

/-- The requests that change the bus or the operating state. -/
def Req.ofBus : Req → Bool
  | .status | .pollWrite | .sensorPass | .busRestart | .enterService | .leaveService | .standby => true
  | _ => false

/-- Every other request leaves SBC and the operating state as they were. -/
theorem serve_busUntouched {r : Req} (h : r.ofBus = false) : BusUntouched s (serve r p body s).2 := by
  cases r
  case status | pollWrite | sensorPass | busRestart | enterService | leaveService | standby => cases h
  case pose | sensors | pollRead | tallyRead | logRead | tripRead | chartRead | watchRead | linesRead | paramRead =>
    rw [serve_reads rfl]
    exact .refl s
  case defineAssortment | deleteAssortment | totalsReset => exact setTlu_busUntouched s _
  case setAssortment => exact serveSetAssortment_busUntouched p body s
  case voidLift => exact serveVoidLift_busUntouched p body s
  case assignLift => exact serveAssignLift_busUntouched p body s
  case tripClose => exact serveTripClose_busUntouched p body s
  case tare => exact BusUntouched.portFree.serveDelayed p .tare body (fun _ u => .refl u) (acceptTare_busUntouched p) s
  case calSpan => exact BusUntouched.portFree.serveDelayed p .calSpan body (fun _ u => .refl u) (acceptCal_busUntouched · _) s
  case commit => exact BusUntouched.portFree.serveDelayed p .commit body (fun _ u => .refl u) startCommit_busUntouched s
  case chartWrite => exact serveChartWrite_busUntouched p body s
  case overrideSet => exact serveOverrideSet_busUntouched p body s
  case permit => exact servePermit_busUntouched p body s
  case watchWrite => exact serveWatchWrite_busUntouched p body s
  case hitClear => exact (setWt_handedOn s _).busUntouched
  case captureRead => exact serveCaptureRead_busUntouched p body s
  case holdManual => exact serveHoldManual_busUntouched p body s
  case lineFaultClear => exact serveLineFaultClear_busUntouched p body s
  case paramWrite => exact serveParamWrite_busUntouched p body s
  case features => exact serveFeatures_busUntouched p body s
  case restart => exact serveRestart_busUntouched p body s
  case reportEnable => exact serveReportEnable_busUntouched p body s

end owners

/-- What an owner makes of any request keeps the laws of the bus (R207, row 8). -/
theorem serve_busKept (r : Req) (p : Port) (body : List Byte) (s : State) : BusKept s (serve r p body s).2 := by
  cases hr : r.ofBus with
  | false => exact (serve_busUntouched p body s hr).kept
  | true =>
    cases r
    case status => exact setSbc_busKept id id
    case pollWrite => exact servePollWrite_busKept p body s
    case sensorPass => exact serveSensorPass_busKept p body s
    case busRestart => exact serveBusRestart_busKept p body s
    case enterService =>
      simp only [serve, serveEnterService]
      split
      · exact .refl s
      · split
        · exact .refl s
        · exact changeState_busKept _ s
    case leaveService =>
      simp only [serve, serveLeaveService]
      split
      · exact .refl s
      · split
        · exact .refl s
        · exact changeState_busKept _ s
    case standby =>
      simp only [serve, serveStandby]
      split
      · exact .refl s
      · exact changeState_busKept _ s
    all_goals cases hr

/-! ### Every command and every step -/

theorem restartDue_busUntouched (p : Port) (f : Option OutFrame) (s : State) : BusUntouched s (restartDue p f s) := by
  unfold restartDue
  split
  · exact rel_ite ⟨rfl, rfl⟩ (.refl s)
  · exact .refl s

theorem dropPass_busKept (s : State) : BusKept s (dropPass s) := rel_ite (setSbc_busKept Sbc.noPass_lawfulIn id) (.refl s)

theorem portBreak_busKept (p : Port) (s : State) : BusKept s (portBreak p s) :=
  rel_ite (.refl s) ((BusKept.portFree.mpt s _).trans
    ((rel_ite (dropPass_busKept _) (.refl _)).trans (restartDue_busUntouched _ _ _).kept))

theorem commitEnd_busUntouched (ok : Bool) (s : State) : BusUntouched s (commitEnd ok s) := by
  unfold commitEnd
  split
  · split <;> exact ⟨rfl, rfl⟩
  · exact .refl s

theorem sense_busUntouched (levels : LineMask) (s : State) : BusUntouched s (sense levels s) := by
  have sampled : BusUntouched s ((s.setHls { s.hls with sense := s.hls.sample levels }).queueAll .lineFault
      ((newFaults s.hls.sense (s.hls.sample levels)).map
        (lineFaultBody (s.setHls { s.hls with sense := s.hls.sample levels }).hls))) :=
    (setHls_busUntouched s _).trans (queueAll_handedOn _ _ _).busUntouched
  exact sampled.trans (rel_ite (present_busUntouched _ _ _) (.refl _))

theorem exec_busKept {c : Instr} {s t : State} (h : exec c s = .next t) : BusKept s t := by
  have pf := BusKept.portFree
  have untouched : ∀ {f : State → State}, (∀ s, BusUntouched s (f s)) → completes f s = .next t → BusKept s t :=
    fun hf h => pf.completes (fun s => (hf s).kept) h
  have frame (p : Port) (kind : Byte) (body : List Byte) (h : completes (takeAny p kind body) s = .next t) : BusKept s t :=
    pf.completes (pf.takeAny serve_busKept changeState_wake_busKept p kind body) h
  cases c
  case powerOn => cases h; exact afterReset_busKept _ s
  case supplyLoss => cases h; exact supplyLoss_busKept _ s
  case restartReset => exact pf.completes (fun s => rel_ite (afterReset_busKept true s) (.refl s)) h
  case preloadDone => exact pf.completes (preloadDone_busKept _) h
  case roundTimerExpiry => exact pf.completes roundTimerExpiry_busKept h
  case pollTransactionDone => exact pf.completes (pollTransactionDone_busKept _) h
  case stretchTimeout => exact pf.completes stretchTimeout_busKept h
  case sensorStale => exact pf.completes (sensorStale_busKept _) h
  case busFreePulseEnd => exact pf.completes busFreePulseEnd_busKept h
  case recoveryWaitEnd => exact pf.completes (recoveryWaitEnd_busKept _) h
  case recoveryAttempt => exact pf.completes recoveryAttempt_busKept h
  case attemptWaitEnd => exact pf.completes (attemptWaitEnd_busKept _) h
  case passthroughDone => exact pf.completes (passthroughDone_busKept _) h
  case tareTimeout =>
    refine untouched (fun s => ?_) h
    unfold tareTimeout
    split
    · exact rel_ite (endTare_delivered _ s).busUntouched (.refl s)
    · exact .refl s
  case permitExpiry =>
    refine untouched (fun s => ?_) h
    unfold permitExpiry
    split
    · exact rel_ite (expirePermit_handedOn s).busUntouched (.refl s)
    · exact .refl s
  case senseExpiry =>
    exact untouched (fun s => rel_ite ((setHls_busUntouched s _).trans (sense_busUntouched _ _)) (.refl s)) h
  case discardExpiry =>
    refine untouched (fun s => ?_) h
    unfold discardExpiry
    split
    · exact rel_ite ⟨rfl, rfl⟩ (.refl s)
    · exact .refl s
  case frameGapTimeout | lineReturnsToIdle => exact pf.completes (fun s => rel_ite (pf.mpt s _) (pf.refl s)) h
  case frameBadCheck | stopBitLow => exact pf.completes (fun s => pf.mpt s _) h
  case unknownKind | frameHeld | standbyWake => exact frame _ _ _ h
  case heldFrameHandled => exact pf.completes (pf.heldFrame serve_busKept changeState_wake_busKept _) h
  case frameSent =>
    exact untouched (fun s => (BusUntouched.portFree.mpt s _).trans (restartDue_busUntouched _ _ _)) h
  case portBreak => exact pf.completes (portBreak_busKept _) h
  case commitDone => exact untouched (commitEnd_busUntouched _) h
  case byteArrival => exact pf.completes (pf.byteIn serve_busKept changeState_wake_busKept _ _) h
  all_goals exact pf.completes (pf.takeRequest serve_busKept changeState_wake_busKept _ _ _) h

theorem tick_busUntouched (s : State) : BusUntouched s (tick s) := rel_ite ⟨rfl, rfl⟩ (.refl s)

/-- A step keeps the laws of the bus: a command keeps them (`exec_busKept`), and the time base has no part in them. -/
theorem step_busKept {s t : State} (h : step s = .next t) : BusKept s t := by
  obtain ⟨c, rest, -, k⟩ | ⟨-, rfl⟩ := step_cases h
  · have kept := exec_busKept k
    exact ⟨fun lawful => kept.lawful lawful, fun ranged => kept.ranged ranged⟩
  · exact (tick_busUntouched s).kept

/-- Settles O11: every command keeps the laws of the bus (`exec_busKept`); a change of the operating state, whose hand-overs run in an
open order, because the one that starts or stops the bus brings them about and every other keeps them (`changeState_busKept`). -/
theorem busLawsKept : Obligations.BusLawsKept :=
  ⟨fun _ _ lawful h => (step_busKept h).lawful lawful, fun _ _ ranged h => (step_busKept h).ranged ranged⟩

end Sys2Proof.Machine
end

section
/-! PROOFS. The judgement of a poll, and the round timer (R19 to R23): O28 and O31. -/

namespace Sys2Proof.Machine

/-! ### The judgement of a poll (R23) -/

section judge
variable {waking stretched : Bool} {r : Role} {obs : PollObs}

theorem recordCheckGood_iff (x : SensorRecord) : recordCheckGood x = true ↔ x.check.toNat = 255 - recordSum x % 256 := by
  simp [recordCheckGood]

theorem judgePoll_low (low : (obs.lowAtStart || obs.lowAtStop) = true) : judgePoll waking stretched r obs = .stuck := by
  simp [judgePoll, recordRead, low]

variable (high : (obs.lowAtStart || obs.lowAtStop) = false)
include high

theorem judgePoll_unacked (acked : obs.acked = false) :
    judgePoll waking stretched r obs = if waking = true then .waking else .nakAddr := by
  simp [judgePoll, recordRead, high, acked]

theorem judgePoll_stretched (acked : obs.acked = true) (h : stretched = true) :
    judgePoll waking stretched r obs = .stretchTimeout := by simp [judgePoll, recordRead, high, acked, h]

theorem judgePoll_badCheck (acked : obs.acked = true) (h : stretched = false) (bad : recordCheckGood obs.record = false) :
    judgePoll waking stretched r obs = .badCheck := by simp [judgePoll, recordRead, high, acked, h, bad]

theorem judgePoll_notReady (acked : obs.acked = true) (h : stretched = false) (good : recordCheckGood obs.record = true)
    (ready : obs.record.status.getLsbD 0 = false) : judgePoll waking stretched r obs = .notReady := by
  simp only [judgePoll, recordRead, high, acked, h, good, recordReady, ready]
  rfl

theorem judgePoll_read (acked : obs.acked = true) (h : stretched = false) (good : recordCheckGood obs.record = true)
    (ready : obs.record.status.getLsbD 0 = true) :
    judgePoll waking stretched r obs = if inRange r (recordValue obs.record) = true then .ok else .badValue := by
  cases hr : inRange r (recordValue obs.record) <;> simp [judgePoll, recordRead, high, acked, h, good, recordReady, ready, hr]

end judge

theorem within_iff (lo hi v : Int) : within lo hi v = true ↔ lo ≤ v ∧ v ≤ hi := by simp [within]

/-- Three bytes read as a signed number lie in LINK's range whatever they are (R14, R21). -/
theorem recordValue_inRange (x : SensorRecord) : inRange .link (recordValue x) = true := by
  have e : recordValue x = (BitVec.ofNat 24 (beNat [x.value2, x.value1, x.value0])).toInt := rfl
  have lo := BitVec.le_toInt (BitVec.ofNat 24 (beNat [x.value2, x.value1, x.value0]))
  have hi := BitVec.toInt_lt (x := BitVec.ofNat 24 (beNat [x.value2, x.value1, x.value0]))
  rw [← e] at lo hi
  simp only [inRange, within_iff]
  norm_num at lo hi
  omega

/-- Settles O28: the rows of R23 one by one, the last by the role's range. -/
theorem pollOutcomeRows : Obligations.PollOutcomeRows := by
  intro waking stretched r obs o low x sum good
  have high (h : ¬low) : (obs.lowAtStart || obs.lowAtStop) = false := by simpa [low] using h
  have passes (h : good) : recordCheckGood obs.record = true := (recordCheckGood_iff _).2 h
  have fails (h : ¬good) : recordCheckGood obs.record = false := by simpa using mt (recordCheckGood_iff _).1 h
  refine ⟨fun h => judgePoll_low (by simpa [low] using h), fun h acked => judgePoll_unacked (high h) acked,
    fun h acked late => judgePoll_stretched (high h) acked late,
    fun h acked short bad => judgePoll_badCheck (high h) acked short (fails bad),
    fun h acked short check ready => judgePoll_notReady (high h) acked short (passes check) ready, ?_⟩
  intro h acked short check ready
  have read : o = if inRange r (recordValue x) = true then .ok else .badValue :=
    judgePoll_read (high h) acked short (passes check) ready
  have ok : o = .ok ↔ inRange r (recordValue x) = true := by rw [read]; split <;> simp [*]
  refine ⟨by rw [read]; split <;> simp, ?_, ?_, ?_, ?_, ?_, ?_, ?_⟩
  all_goals rintro rfl
  case refine_6 => simp [ok, inRange, within_iff, and_assoc]
  case refine_7 => exact ok.2 (recordValue_inRange x)
  all_goals
    simp only [ok, inRange, within_iff]
    try omega

/-! ### A round goes on, ends, or begins (R19, R20, R37) -/

section rounds
variable {b : Sbc}

/-- Out of RUNNING, with no round, or with a transaction on the bus, a round does not go on. -/
theorem Sbc.advance_waits (h : b.bus ≠ .running ∨ b.roundActive = false ∨ b.txn.isSome = true) : b.advance = b := by
  unfold Sbc.advance
  refine if_neg ?_
  rintro ⟨running, active, free⟩
  rcases h with h | h | h
  · exact h running
  · simp [h] at active
  · simp only [Option.isNone_iff_eq_none] at free
    simp [free] at h

theorem Sbc.advance_polls {r : Role} {rest : List Role} (running : b.bus = .running) (active : b.roundActive = true)
    (free : b.txn = none) (due : b.due = r :: rest) :
    b.advance = { b with
      due := rest, txn := some { kind := .poll r (b.addrOf r), stretched := false, discarded := false } } := by
  unfold Sbc.advance
  simp [running, active, free, due]

theorem Sbc.advance_ends (running : b.bus = .running) (active : b.roundActive = true) (free : b.txn = none) (due : b.due = []) :
    b.advance = { b with
      roundActive := false
      txn := if b.pass.isSome = true then some { kind := .pass, stretched := false, discarded := false } else none } := by
  unfold Sbc.advance
  simp [running, active, free, due]

/-- Out of RUNNING, or with a BUS_RESTART waiting, a round timer's expiry only counts the round (R31, R33, R34). -/
theorem Sbc.roundExpiry_waits (h : b.bus ≠ .running ∨ b.restartPending = true) (d : Nat) :
    b.roundExpiry d = { b with roundTimer := some (d + roundMs), roundNo := (b.roundNo + 1) % 10 } := by
  unfold Sbc.roundExpiry
  rcases h with h | h <;> simp [h]

/-- In RUNNING it begins the next round, a round cut off raising the overrun flag (R19, R20). -/
theorem Sbc.roundExpiry_begins (running : b.bus = .running) (free : b.restartPending = false) (d : Nat) :
    ∃ c : Sbc, b.roundExpiry d = c.advance ∧ c = { b with
      roundTimer := some (d + roundMs), roundNo := (b.roundNo + 1) % 10, roundActive := true
      overrun := b.overrun || (b.roundActive && (b.polling || !b.due.isEmpty)), due := b.dueRoles ((b.roundNo + 1) % 10) } := by
  unfold Sbc.roundExpiry
  simp only [running, free]
  exact ⟨_, rfl, rfl⟩

end rounds

/-- Settles O31: the expiry begins the next round in RUNNING (`Sbc.roundExpiry_begins`), which polls its first due entry, issues a
waiting passthrough, or waits behind a transaction. -/
theorem roundTimerRules : Obligations.RoundTimerRules := by
  intro d s powered timer come
  refine ⟨s.sbc.roundExpiry d, ?_, ?_⟩
  · exact (completes_powered powered).trans (by simp [roundTimerExpiry, timer, come])
  by_cases begins : s.sbc.bus = .running ∧ s.sbc.restartPending = false
  · obtain ⟨running, free⟩ := begins
    obtain ⟨c, e, hc⟩ := Sbc.roundExpiry_begins running free d
    rw [e]
    have due : c.due = (s.sbc.entries.filter (fun e => e.pd.enable && c.advance.roundNo % e.pd.period == 0)).map
        (fun e => e.pd.role) := by simp [hc, Sbc.dueRoles]
    have on : c.bus = .running ∧ c.roundActive = true ∧ c.txn = s.sbc.txn ∧ c.pass = s.sbc.pass := by simp [hc, running]
    obtain ⟨crunning, active, txn, pass⟩ := on
    refine ⟨by simp [hc, roundMs], by simp [hc], by simp [hc], by simp [hc], by simp [hc], fun h => absurd running h, fun _ _ => ?_⟩
    dsimp only
    rw [← due]
    refine ⟨fun active left => by simp [hc, active, left], fun inactive => by simp [hc, inactive], fun t on => ?_,
      fun idle r rest first => ?_, fun idle none => ?_⟩
    · rw [Sbc.advance_waits (.inr (.inr (by simp [txn, on])))]
      exact ⟨txn.trans on, rfl⟩
    · rw [Sbc.advance_polls crunning active (txn.trans idle) first]
      simp [hc, Sbc.addrOf, Sbc.entryOf]
    · rw [Sbc.advance_ends crunning active (txn.trans idle) none]
      exact ⟨none, rfl, by rw [pass]⟩
  · have waits := Sbc.roundExpiry_waits (b := s.sbc) (by
      by_contra h
      simp only [not_or, not_not, Bool.not_eq_true] at h
      exact begins h) d
    rw [waits]
    refine ⟨rfl, rfl, rfl, rfl, rfl, fun _ => ⟨rfl, rfl, rfl⟩, fun running free => absurd ⟨running, free⟩ begins⟩

end Sys2Proof.Machine
end

section
/-! PROOFS. The reset values, a port break, and the requests that read the bus (R18, R38 to R40, R216, R219): O3, O24 and O26. -/

namespace Sys2Proof.Machine

/-! ### The reset values -/

/-- Settles O3: the fields of `State.reset`, block by block. -/
theorem resetValues : Obligations.ResetValues := by
  refine ⟨?sbc, ?pos, ?wge, ?tlu, ?cpm, ?wt, ?hls, ?stc, ?mpt⟩
  case sbc => exact ⟨rfl, rfl, rfl, rfl, rfl, rfl, rfl, rfl⟩
  case pos => exact ⟨rfl, rfl, rfl, rfl, rfl, rfl⟩
  case wge => exact ⟨rfl, rfl, rfl, rfl, rfl, rfl, rfl, rfl⟩
  case tlu => exact ⟨by decide, rfl, rfl, rfl, rfl, rfl, rfl⟩
  case cpm => exact ⟨rfl, rfl, rfl, rfl, rfl, rfl, rfl, rfl, by decide⟩
  case wt => exact ⟨rfl, rfl, rfl, rfl⟩
  case hls => exact ⟨rfl, by decide, rfl, fun l => by cases l <;> decide⟩
  case stc => exact ⟨rfl, rfl, rfl⟩
  case mpt => exact ⟨rfl, rfl, fun p => by cases p <;> exact ⟨rfl, rfl, rfl, rfl, rfl, rfl⟩⟩

/-! ### A port break (R38, R216) -/

/-- A broken port has nothing to begin: its transmitter goes on with the frame being sent. -/
theorem PortState.broken_pump (q : PortState) : q.broken.pump = q.broken := by
  unfold PortState.pump PortState.broken
  cases q.tx <;> rfl

theorem Mpt.freePort_port (m : Mpt) (p q : Port) : (m.freePort p).port q = m.port q := by cases q <;> rfl

theorem Mpt.freePort_slot (m : Mpt) (p : Port) (i : Fin 4) :
    (m.freePort p).slots[i] = match m.slots[i] with
      | some d => if d.port = p then none else some d
      | none => none := by
  simp only [Mpt.freePort, Fin.getElem_fin, Vector.getElem_map]
  cases m.slots[i.val] <;> simp

/-- All that a break's drop changes: a passthrough not yet issued (R38). -/
theorem dropPass_eq (s : State) :
    dropPass s = s.setSbc { s.sbc with pass := if s.sbc.passWaiting = true then none else s.sbc.pass } := by
  unfold dropPass
  split
  · rfl
  · rw [← State.setSbc_self s]; rfl

/-- With no RESTART under way, a break empties its port and, on the service port, drops a passthrough not yet issued. -/
theorem portBreak_eq {p : Port} {s : State} (restart : s.stc.restart = .none_) (on : (s.port p).breakOn = false) :
    portBreak p s = (s.setMpt ((s.mpt.setPort p (s.port p).broken).freePort p)).setSbc
      { s.sbc with pass := if p = .service ∧ s.sbc.passWaiting = true then none else s.sbc.pass } := by
  have undue (u : State) (f : Option OutFrame) (h : u.stc.restart = .none_) : restartDue p f u = u := by
    unfold restartDue
    split <;> simp [h]
  have dropped (u : State) : (if p = .service then dropPass u else u) = u.setSbc
      { u.sbc with pass := if p = .service ∧ u.sbc.passWaiting = true then none else u.sbc.pass } := by
    cases p
    · rw [if_neg (by decide)]
      exact (State.setSbc_self u).symm
    · simp [dropPass_eq]
  unfold portBreak
  simp only [on, Bool.false_eq_true, if_false, dropped]
  exact undue _ _ restart

/-- Settles O24: `portBreak_eq`, the broken port having nothing to begin; a byte or a second break finds the mark. -/
theorem portBreak_holds : Obligations.PortBreak := by
  refine ⟨fun p s powered restart on => ?_, fun p s powered broken => ⟨?_, fun b => ?_⟩⟩
  · refine ⟨(portBreak p s).pump, completes_powered powered, ?_⟩
    rw [portBreak_eq restart on]
    refine ⟨?_, fun q other => ?_, fun i => ?_, rfl, rfl, rfl, rfl, rfl, rfl, rfl, rfl⟩
    · rw [pump_port, State.setSbc_port, State.setMpt_port, Mpt.freePort_port, Mpt.port_setPort_same, PortState.broken_pump]
      rfl
    · rw [pump_port, State.setSbc_port, State.setMpt_port, Mpt.freePort_port, Mpt.port_setPort_other _ _ other]
      rfl
    · have slot := Mpt.freePort_slot (s.mpt.setPort p (s.port p).broken) p i
      rw [Mpt.setPort_slots] at slot
      exact slot
  · exact (completes_powered powered).trans (by simp [lineIdle, broken])
  · exact (completes_powered powered).trans (by simp [byteIn, broken])

/-! ### The requests that read the bus -/

theorem beBytes_length (k : Nat) (v : Int) : (beBytes k v).length = k := by
  induction k with
  | zero => rfl
  | succ k ih => simp [beBytes, ih]

theorem be1_length (v : Nat) : (be1 v).length = 1 := beBytes_length 1 v
theorem be2_length (v : Nat) : (be2 v).length = 2 := beBytes_length 2 v
theorem be4_length (v : Nat) : (be4 v).length = 4 := beBytes_length 4 v
theorem s2_length (v : Int) : (s2 v).length = 2 := beBytes_length 2 v

theorem workPart_length (w : Wge) (now : Nat) : (workPart w now).length = 4 := by
  unfold workPart
  split <;> simp [be1_length, be2_length]

/-- The 63 bytes of R219, part by part. -/
theorem statusBody_length (s : State) (p : Port) : (statusBody s p).length = 63 := by
  simp only [statusBody, statePart, sensorSummary, weighPart, tallyPart, capPart, watchPart, holdPart, portPart, List.length_append,
    be1_length, be2_length, be4_length, s2_length, beBytes_length, workPart_length]

/-- STATUS reads nothing of the receiver. -/
theorem statusBody_heard (s : State) (p : Port) : statusBody (s.heard p) p = statusBody s p := by cases p <;> rfl

/-- Settles O26: each request's owner, admitted (`exec_admitted`). -/
theorem statusAndBusReads : Obligations.StatusAndBusReads := by
  refine ⟨fun p s h => ⟨?_, statusBody_length s p⟩, fun p s => ⟨fun h => ?_, fun h => ?_, fun h => ?_, fun h => ?_⟩⟩
  · have e := exec_admitted (r := .status) h
    simp only [serve, serveStatus, statusBody_heard] at e
    exact e
  · exact exec_admitted (r := .pose) h
  · exact exec_admitted (r := .sensors) h
  · exact exec_admitted (r := .pollRead) h
  · exact exec_admitted (r := .linesRead) h

end Sys2Proof.Machine
end

section
/-! PROOFS. Changes of the operating state (R35, R138, R179, R192, R196 to R200, R204): O18 and O60. -/

namespace Sys2Proof.Machine

/-! ### One hand-over among others -/

/-- Of hand-overs run in an open order, one finds and leaves what the others do not touch. -/
theorem runAny_around (R : State → State → Prop) (refl : ∀ s, R s s) (trans : ∀ s t u, R s t → R t u → R s u)
    (sched : ∀ s l, R s (s.setSched l)) {f : State → State} {rest fs : List (State → State)} (perm : fs.Perm (f :: rest))
    (each : ∀ g ∈ rest, ∀ s, R s (g s)) (s : State) : ∃ u, R s u ∧ R (f u) (runAny fs s) := by
  have fold : ∀ gs : List ((State → State) × List Nat), (∀ g ∈ gs, g.1 ∈ rest) → ∀ s,
      R s (gs.foldl (fun s g => g.1 (s.setSched g.2)) s) := by
    intro gs
    induction gs with
    | nil => exact fun _ s => refl s
    | cons g gs ih =>
      intro sub s
      exact trans _ _ _ (trans _ _ _ (sched s g.2) (each _ (sub g (by simp)) _)) (ih (fun x hx => sub x (by simp [hx])) _)
  obtain ⟨gs, order, e⟩ := runAny_inSomeOrder fs s
  have order := order.trans perm
  obtain ⟨g, mem, rfl⟩ := List.mem_map.1 (order.symm.subset (List.mem_cons_self (a := f) (l := rest)))
  obtain ⟨before, after, rfl⟩ := List.append_of_mem mem
  have others : ((before ++ after).map Prod.fst).Perm rest :=
    (List.perm_cons g.1).1 ((List.perm_middle.map Prod.fst).symm.trans order)
  have sub : ∀ x ∈ before ++ after, x.1 ∈ rest := fun x hx => others.subset (List.mem_map_of_mem hx)
  rw [List.foldl_append, List.foldl_cons] at e
  rw [e]
  exact ⟨_, trans _ _ _ (fold before (fun x hx => sub x (by simp [hx])) s) (sched _ _),
    fold after (fun x hx => sub x (by simp [hx])) _⟩

/-! ### The report of a change -/

theorem heard_quiet (kinds : List Report) (s : State) (p : Port) : Queued kinds [] s (s.heard p) :=
  .same fun q => by cases p <;> cases q <;> exact ⟨rfl, rfl, rfl⟩

theorem endWaitingPass_quiet (kinds : List Report) (c : WorkCode) (s : State) : Queued kinds [] s (endWaitingPass c s) := by
  unfold endWaitingPass
  split
  · exact (setSbc_quiet _ _ _).after (finishWork_quiet _ _ _ _)
  · exact .refl _ s

theorem busStart_quiet (kinds : List Report) (s : State) : Queued kinds [] s (busStart s) := by
  unfold busStart
  split
  · exact setSbc_quiet _ _ _
  · exact .refl _ s

/-- The STATE_CHANGE report of a change (R192). -/
def stateItems (new old : OpState) (bad : Bool) : List (Report × List Byte) := [(.stateChange, stateChangeBody new old bad)]

theorem stateItems_eq (new old : OpState) (bad : Bool) : stateItems new old bad = stateReport new.num old.num bad := by
  cases bad <;> rfl

/-- What the blocks do at a change of the operating state, less the report. -/
def stateOthers (old new : OpState) : List (State → State) :=
  (if stateMask old = stateMask new then [] else [present .state (stateMask new)]) ++
    ((if busRuns old = busRuns new then [] else if busRuns new then [busStart] else [busStop]) ++
      (if old = .service then [clearOverrides, endCal .aborted, endWaitingPass .aborted] else []))

theorem stateHandOvers_eq (old new : OpState) (bad : Bool) : stateHandOvers old new bad =
    (fun s => s.queueReport .stateChange (stateChangeBody new old bad)) :: stateOthers old new := by
  simp [stateHandOvers, stateOthers]

theorem mem_stateOthers {old new : OpState} {f : State → State} (hf : f ∈ stateOthers old new) :
    f = present .state (stateMask new) ∨ f = busStart ∨ f = busStop ∨
      f = clearOverrides ∨ f = endCal .aborted ∨ f = endWaitingPass .aborted := by
  unfold stateOthers at hf
  rcases List.mem_append.1 hf with hf | hf
  · split at hf
    · cases hf
    · exact .inl (List.mem_singleton.1 hf)
  · rcases List.mem_append.1 hf with hf | hf
    · split at hf
      · cases hf
      · split at hf
        · exact .inr (.inl (List.mem_singleton.1 hf))
        · exact .inr (.inr (.inl (List.mem_singleton.1 hf)))
    · split at hf
      · simp only [List.mem_cons, List.not_mem_nil, or_false] at hf
        exact .inr (.inr (.inr hf))
      · cases hf

theorem stateOthers_quiet {old new : OpState} {f : State → State} (hf : f ∈ stateOthers old new) (s : State) :
    Queued [.stateChange] [] s (f s) := by
  obtain rfl | rfl | rfl | rfl | rfl | rfl := mem_stateOthers hf
  · exact present_quiet (by decide) .state _ s
  · exact busStart_quiet _ s
  · exact setSbc_quiet _ s _
  · exact cpmTake_quiet (by unfold Avoids; decide) _ s
  · exact endCal_quiet _ s
  · exact endWaitingPass_quiet _ _ s

/-- A change of the operating state queues its STATE_CHANGE report, whatever order the blocks take it in (R192). -/
theorem changeState_queued (new : OpState) (s : State) :
    Queued [.stateChange] (stateReport new.num s.stc.op.num s.stc.settingsBad) s (changeState new s) := by
  rw [← stateItems_eq]
  unfold changeState
  rw [stateHandOvers_eq]
  generalize s.stc.op = old
  generalize s.stc.settingsBad = bad
  have first (u : State) : Queued [.stateChange] (stateItems new old bad) u
      (u.queueReport .stateChange (stateChangeBody new old bad)) := queueReport_queued [.stateChange] .stateChange _ u
  obtain ⟨items, perm, q⟩ := runAny_queued (kinds := [.stateChange])
    (((fun u => u.queueReport .stateChange (stateChangeBody new old bad)), stateItems new old bad) ::
      (stateOthers old new).map (fun f => (f, []))) (by
        intro f hf u
        obtain rfl | hf := List.mem_cons.1 hf
        · exact first u
        · obtain ⟨g, hg, rfl⟩ := List.mem_map.1 hf
          exact stateOthers_quiet hg u)
    (s.setStc { s.stc with op := new })
  have one : items = stateItems new old bad := by
    have none : (stateOthers old new).flatMap (fun _ => ([] : List (Report × List Byte))) = [] := by simp
    simpa [List.flatMap_map, stateItems, none] using perm
  rw [one] at q
  simp only [List.map_cons, List.map_map, Function.comp_def, List.map_id'] at q
  exact (setStc_quiet _ _ _).after q

/-! ### What a change of the operating state leaves -/

/-- All but the hold lines, the report queues and the schedule is as it was. -/
def SameBehindLines (s t : State) : Prop :=
  t.mpt.slots = s.mpt.slots ∧ t = { s with hls := t.hls, mpt := t.mpt, sched := t.sched }

theorem SameBehindLines.refl (s : State) : SameBehindLines s s := ⟨rfl, rfl⟩

theorem SameBehindLines.trans {s t u : State} (h : SameBehindLines s t) (k : SameBehindLines t u) : SameBehindLines s u := by
  obtain ⟨slots, e⟩ := h
  obtain ⟨slots', e'⟩ := k
  refine ⟨slots'.trans slots, ?_⟩
  rw [e', e]

theorem queueReport_sameBehindLines (s : State) (r : Report) (body : List Byte) :
    SameBehindLines s (s.queueReport r body) := ⟨rfl, rfl⟩

theorem present_sameBehindLines (src : HoldSource) (mask : LineMask) (s : State) : SameBehindLines s (present src mask s) := by
  obtain ⟨m, e, slots⟩ := present_rest src mask s
  rw [e]
  exact ⟨slots, rfl⟩

/-- SBC as the start or the stop of its bus leaves it. -/
def State.turned (s : State) (runs : Bool) : Sbc := ((if runs = true then busStart else busStop) s).sbc

theorem State.turned_congr {s u : State} (sbc : u.sbc = s.sbc) (now : u.now = s.now) (runs : Bool) :
    u.turned runs = s.turned runs := by
  unfold State.turned
  cases runs
  · simp [busStop, sbc, now]
  · simp [busStart, sbc, now, apply_ite State.sbc]

/-- A change between RUN and STANDBY, or out of START: the bus starts or stops, STATE presents its new mask, and beside them only
reports are queued (R179, R192). -/
theorem changeState_turns {new : OpState} {s : State} (work : s.stc.op ≠ .service) (turns : busRuns s.stc.op ≠ busRuns new) :
    let t := changeState new s
    t.mpt.slots = s.mpt.slots ∧ t.hls.masks.state = stateMask new ∧
      t = { s with
        sbc := s.turned (busRuns new), stc := { s.stc with op := new }, hls := t.hls, mpt := t.mpt, sched := t.sched } := by
  have masks : stateMask s.stc.op ≠ stateMask new := by
    revert turns work
    cases s.stc.op <;> cases new <;> decide
  have list : stateHandOvers s.stc.op new s.stc.settingsBad =
      [fun u => u.queueReport .stateChange (stateChangeBody new s.stc.op s.stc.settingsBad), present .state (stateMask new),
        if busRuns new = true then busStart else busStop] := by
    rw [stateHandOvers_eq]
    unfold stateOthers
    rw [if_neg masks, if_neg turns, if_neg work]
    split <;> rfl
  have perm : (stateHandOvers s.stc.op new s.stc.settingsBad).Perm ((if busRuns new = true then busStart else busStop) ::
      [fun u => u.queueReport .stateChange (stateChangeBody new s.stc.op s.stc.settingsBad), present .state (stateMask new)]) := by
    rw [list]
    exact List.perm_append_comm (l₁ := [_, _]) (l₂ := [_])
  unfold changeState
  have only (u : State) : (if busRuns new = true then busStart else busStop) u = u.setSbc (u.turned (busRuns new)) := by
    unfold State.turned
    split
    · unfold busStart
      split <;> simp
    · rfl
  have others : ∀ g ∈ [fun u : State => u.queueReport .stateChange (stateChangeBody new s.stc.op s.stc.settingsBad),
      present .state (stateMask new)], ∀ u, SameBehindLines u (g u) := by
    intro g hg u
    simp only [List.mem_cons, List.not_mem_nil, or_false] at hg
    rcases hg with rfl | rfl
    · exact queueReport_sameBehindLines _ _ _
    · exact present_sameBehindLines _ _ _
  obtain ⟨u, ⟨uslots, eu⟩, ⟨slots, e⟩⟩ := runAny_around SameBehindLines .refl (fun _ _ _ => .trans) (fun _ _ => ⟨rfl, rfl⟩)
    perm others (s.setStc { s.stc with op := new })
  have turned : u.turned (busRuns new) = s.turned (busRuns new) := State.turned_congr (by rw [eu]; rfl) (by rw [eu]; rfl) _
  rw [only, turned] at e slots
  refine ⟨slots.trans uslots, ?_, ?_⟩
  · rw [list]
    refine runAny_brings (fun u => u.hls.masks.state = stateMask new) (fun _ _ h => h) (fun f hf u hu => ?_)
      ⟨present .state (stateMask new), by simp, fun u => (present_get .state _ u .state).trans (if_pos rfl)⟩ _
    simp only [List.mem_cons, List.not_mem_nil, or_false] at hf
    rcases hf with rfl | rfl | rfl
    · exact hu
    · exact (present_get .state _ u .state).trans (if_pos rfl)
    · rw [only]
      exact hu
  · exact e.trans (by rw [eu]; rfl)

/-! ### The wake from STANDBY -/

/-- The bus as it leaves STOPPED: round 0 at once, every entry expecting its waking condition and owing its first sample (R35, R200). -/
theorem Sbc.run_fields (b : Sbc) (now : Nat) :
    (b.run now).bus = .running ∧ (b.run now).busFreeLow = false ∧ (b.run now).roundNo = 0 ∧
      (b.run now).roundTimer = some (now + 10) ∧
      (b.run now).entries = b.entries.map (fun e => { e with expectWaking := true, firstDue := true }) ∧
      (b.run now).stopping = b.stopping ∧ (b.run now).startPending = false ∧ (b.run now).stuckTimes = b.stuckTimes := by
  unfold Sbc.run Sbc.beginRound
  simp only [Sbc.advance_bus, Sbc.advance_busFreeLow, Sbc.advance_roundNo, Sbc.advance_roundTimer, Sbc.advance_entries,
    Sbc.advance_stopping, Sbc.advance_startPending, Sbc.advance_stuckTimes, Sbc.allFirstDue, Sbc.allExpectWaking, List.map_map]
  exact ⟨trivial, trivial, trivial, rfl, rfl, trivial, trivial, trivial⟩

theorem busStart_runs {s : State} (stopped : s.sbc.bus = .stopped) (still : s.sbc.stopping = false) :
    busStart s = s.setSbc (s.sbc.run s.now) := by
  simp [busStart, stopped, still]

/-- In STANDBY a frame of any kind is answered WAKING and wakes the part (R200). -/
theorem judgeFrame_standby {p : Port} {kind : Byte} {body : List Byte} {s : State} (op : s.stc.op = .standby) :
    judgeFrame p kind body s = (.refuse .waking, wake s) := by
  unfold judgeFrame
  split
  · simp [judgeKnown, op]
  · simp [judgeUnknown, op]

theorem Req.ofCode_code (r : Req) : Req.ofCode r.code = some r := by cases r <;> decide

/-- A frame of a request's kind is judged as its own command. -/
theorem judgeFrame_code (r : Req) (p : Port) (body : List Byte) (s : State) :
    judgeFrame p r.code body s = judgeKnown r (serve r) p body s := by
  simp [judgeFrame, Req.ofCode_code]

/-- An answer waits on its port, or is begun at once by an idle transmitter (R209). -/
theorem answered_sends (s : State) (p : Port) (kind : Byte) (c : Code) (body : List Byte) :
    ((s.answered p kind c body).port p).tx = some { kind := replyKind kind, status := c.byte, body := body } ∨
      ((s.answered p kind c body).port p).reply = some { kind := replyKind kind, status := c.byte, body := body } := by
  unfold State.answered
  rw [pump_port, State.port_setPort_same]
  unfold PortState.pump
  cases (s.port p).tx <;> simp

/-- Settles O18: the frame is answered WAKING (`judgeFrame_standby`), and the change to RUN starts the bus (`changeState_turns`). -/
theorem standbyWakes : Obligations.StandbyWakes := by
  refine ⟨fun p kind body s ready op stopped still => ?_, fun r p body s ready op => ?_⟩
  · have answer : exec (.standbyWake p kind body) s = .next ((wake (s.heard p)).answered p kind .waking []) := by
      have e := completes_takeFrame ready kind body (judgeFrame p kind body)
      rw [judgeFrame_standby (s := s.heard p) op] at e
      exact e
    have work : (s.heard p).stc.op ≠ .service := by simp [op]
    have turns : busRuns (s.heard p).stc.op ≠ busRuns .run := by rw [heard_stc, op]; decide
    obtain ⟨slots, mask, e⟩ := changeState_turns work turns
    have queued := (heard_quiet _ s p).after (changeState_queued .run (s.heard p))
    rw [heard_stc, op] at queued
    have runs : (s.heard p).turned true = s.sbc.run s.now := by
      show (busStart (s.heard p)).sbc = _
      rw [busStart_runs (s := s.heard p) stopped still]
      rfl
    rw [show busRuns .run = true from rfl, runs] at e
    have kept : (wake (s.heard p)).sbc = s.sbc.run s.now ∧ (wake (s.heard p)).stc = { s.stc with op := .run } ∧
        (wake (s.heard p)).tlu = s.tlu ∧ (wake (s.heard p)).wge = s.wge ∧ (wake (s.heard p)).pos = s.pos ∧
        (wake (s.heard p)).cpm = s.cpm ∧ (wake (s.heard p)).wt = s.wt := by
      unfold wake
      rw [e]
      exact ⟨rfl, rfl, rfl, rfl, rfl, rfl, rfl⟩
    obtain ⟨sbc, stc, tlu, wge, pos, cpm, wt⟩ := kept
    obtain ⟨bus, low, no, timer, entries, -⟩ := Sbc.run_fields s.sbc s.now
    refine ⟨_, wake (s.heard p), answer, rfl, queued, ?_, mask, ?_, ?_, ?_, ?_, ?_, tlu, wge, pos, cpm, wt, ?_, ?_⟩
    · rw [answered_stc, stc]
    · rw [answered_sbc, sbc, bus]
    · rw [answered_sbc, sbc, low]
    · rw [answered_sbc, sbc, no]
    · rw [answered_sbc, sbc, timer]
    · rw [answered_sbc, sbc, entries]
    · rw [answered_slots]
      exact slots.trans (heard_slots s p)
    · exact answered_sends _ _ _ _ _
  · rw [exec_frame]
    show completes (takeFrame p r.code body (judgeKnown r (serve r) p body)) s =
      completes (takeFrame p r.code body (judgeFrame p r.code body)) s
    rw [funext (judgeFrame_code r p body)]

end Sys2Proof.Machine
end

section
/-! PROOFS. ENTER_SERVICE, LEAVE_SERVICE, STANDBY and RESTART (R35, R38, R106, R138, R179, R196, R198, R199, R204): O60. -/

namespace Sys2Proof.Machine

/-! ### CPM after an evaluation keeps its copies -/

theorem Cpm.evaluated_copies (cfg : Settings) (c : Cpm) :
    (c.evaluated cfg).overrides = c.overrides ∧ (c.evaluated cfg).liftCopy = c.liftCopy ∧
      (c.evaluated cfg).liveCopy = c.liveCopy ∧ (c.evaluated cfg).poseCopy = c.poseCopy := by
  have figures : (c.formFigures cfg).overrides = c.overrides ∧ (c.formFigures cfg).liftCopy = c.liftCopy ∧
      (c.formFigures cfg).liveCopy = c.liveCopy ∧ (c.formFigures cfg).poseCopy = c.poseCopy := by
    unfold Cpm.formFigures
    split <;> exact ⟨rfl, rfl, rfl, rfl⟩
  have state (d : Cpm) : (d.formState cfg).overrides = d.overrides ∧ (d.formState cfg).liftCopy = d.liftCopy ∧
      (d.formState cfg).liveCopy = d.liveCopy ∧ (d.formState cfg).poseCopy = d.poseCopy := by
    unfold Cpm.formState
    dsimp only
    split
    case h_1 => exact ⟨rfl, rfl, rfl, rfl⟩
    all_goals split <;> exact ⟨rfl, rfl, rfl, rfl⟩
  obtain ⟨o, l, v, q⟩ := state (c.formFigures cfg)
  rw [figures.1] at o
  rw [figures.2.1] at l
  rw [figures.2.2.1] at v
  rw [figures.2.2.2] at q
  unfold Cpm.evaluated
  dsimp only
  split <;> exact ⟨o, l, v, q⟩

/-! ### A change between RUN and SERVICE -/

/-- A change from RUN to SERVICE is the report of it (R192, R196). -/
theorem changeState_service {s : State} (op : s.stc.op = .run) :
    changeState .service s =
      (s.setStc { s.stc with op := .service }).queueReport .stateChange (stateChangeBody .service .run s.stc.settingsBad) := by
  unfold changeState
  rw [stateHandOvers_eq, op]
  rfl

/-- What leaving SERVICE does beside its report, as each of it leaves the rest (R38, R106, R138). -/
structure LeftService (s t : State) : Prop where
  stc : t.stc = s.stc
  now : t.now = s.now
  pos : t.pos = s.pos
  tlu : t.tlu = s.tlu
  z : t.wge.z = s.wge.z
  span : t.wge.span = s.wge.span
  sbc : t.sbc = { s.sbc with pass := t.sbc.pass }

theorem LeftService.refl (s : State) : LeftService s s := ⟨rfl, rfl, rfl, rfl, rfl, rfl, rfl⟩

theorem LeftService.trans {s t u : State} (h : LeftService s t) (k : LeftService t u) : LeftService s u :=
  ⟨k.stc.trans h.stc, k.now.trans h.now, k.pos.trans h.pos, k.tlu.trans h.tlu, k.z.trans h.z, k.span.trans h.span, by
    rw [k.sbc, h.sbc]⟩

theorem HandedOn.leftService {s t : State} (h : HandedOn s t) : LeftService s t :=
  ⟨h.stc, h.now, h.pos, h.tlu, h.z, h.span, by rw [h.sbc]⟩

theorem endCal_leftService (c : WorkCode) (s : State) : LeftService s (endCal c s) := by
  constructor <;> simp [endCal_wge]

theorem endWaitingPass_leftService (c : WorkCode) (s : State) : LeftService s (endWaitingPass c s) := by
  unfold endWaitingPass
  split
  · constructor <;> rfl
  · exact .refl s

theorem endWaitingPass_cpm (c : WorkCode) (s : State) : (endWaitingPass c s).cpm = s.cpm := by
  unfold endWaitingPass; split <;> rfl

theorem endWaitingPass_wge (c : WorkCode) (s : State) : (endWaitingPass c s).wge = s.wge := by
  unfold endWaitingPass; split <;> rfl

/-- The clearing of the overrides: the slots empty, and the evaluation that follows (R138). -/
theorem clearOverrides_cpm (s : State) :
    (clearOverrides s).cpm = ({ s.cpm with overrides := Vector.replicate 3 .clear } : Cpm).evaluated s.cfg := cpmEvaluate_cpm _

/-- All that leaving SERVICE comes to, in whatever order (R38, R106, R138, R198). -/
theorem changeState_leaves {s : State} (op : s.stc.op = .service) :
    let t := changeState .run s
    LeftService (s.setStc { s.stc with op := .run }) t ∧
      t.cpm = ({ s.cpm with overrides := Vector.replicate 3 .clear } : Cpm).evaluated s.cfg ∧
      t.wge.cal = none ∧ (s.sbc.passWaiting = true → t.sbc.pass = none) := by
  obtain ⟨report, hr⟩ : ∃ f : State → State,
      f = fun u => u.queueReport .stateChange (stateChangeBody .run .service s.stc.settingsBad) := ⟨_, rfl⟩
  have reported (u : State) : HandedOn u (report u) ∧ (report u).cpm = u.cpm := by
    rw [hr]
    exact ⟨queueReport_handedOn _ _ _, rfl⟩
  have list : stateHandOvers s.stc.op .run s.stc.settingsBad =
      [report, clearOverrides, endCal .aborted, endWaitingPass .aborted] := by
    rw [stateHandOvers_eq, op, hr]
    rfl
  have cleared (u : State) : HandedOn u (clearOverrides u) := cpmTake_handedOn _ u
  unfold changeState
  rw [list]
  refine ⟨runAny_rel LeftService .refl (fun _ _ _ => .trans) (fun _ _ => ⟨rfl, rfl, rfl, rfl, rfl, rfl, rfl⟩) ?_ _, ?_, ?_, ?_⟩
  · intro f hf u
    simp only [List.mem_cons, List.not_mem_nil, or_false] at hf
    rcases hf with rfl | rfl | rfl | rfl
    · exact (reported u).1.leftService
    · exact (cleared u).leftService
    · exact endCal_leftService _ u
    · exact endWaitingPass_leftService _ u
  · obtain ⟨u, ⟨cpm, cfg⟩, e, -⟩ := runAny_around (fun s t => t.cpm = s.cpm ∧ t.cfg = s.cfg) (fun _ => ⟨rfl, rfl⟩)
      (fun _ _ _ h k => ⟨k.1.trans h.1, k.2.trans h.2⟩) (fun _ _ => ⟨rfl, rfl⟩)
      (f := clearOverrides) (rest := [report, endCal .aborted, endWaitingPass .aborted]) (.swap _ _ _) (fun f hf u => by
        simp only [List.mem_cons, List.not_mem_nil, or_false] at hf
        rcases hf with rfl | rfl | rfl
        · exact ⟨(reported u).2, (reported u).1.cfg⟩
        · exact ⟨endCal_cpm _ u, (endCal_delivered _ u).cfg⟩
        · exact ⟨endWaitingPass_cpm _ u, by simp [State.cfg, (endWaitingPass_leftService _ u).stc]⟩)
      (s.setStc { s.stc with op := .run })
    rw [e, clearOverrides_cpm, cpm, cfg]
    rfl
  · refine runAny_brings (fun u => u.wge.cal = none) (fun _ _ h => h) (fun f hf u hu => ?_)
      ⟨endCal .aborted, by simp, fun u => by rw [endCal_wge]⟩ _
    simp only [List.mem_cons, List.not_mem_nil, or_false] at hf
    rcases hf with rfl | rfl | rfl | rfl
    · exact (reported u).1.cal.trans hu
    · exact (cleared u).cal.trans hu
    · rw [endCal_wge]
    · rwa [endWaitingPass_wge]
  · intro waiting
    obtain ⟨u, sbc, e⟩ := runAny_around (fun s t => t.sbc = s.sbc) (fun _ => rfl) (fun _ _ _ h k => k.trans h) (fun _ _ => rfl)
      (fs := [report, clearOverrides, endCal .aborted, endWaitingPass .aborted]) (f := endWaitingPass .aborted)
      (rest := [report, clearOverrides, endCal .aborted])
      (List.perm_append_comm (l₁ := [_, _, _]) (l₂ := [_])) (fun f hf u => by
        simp only [List.mem_cons, List.not_mem_nil, or_false] at hf
        rcases hf with rfl | rfl | rfl
        · exact (reported u).1.sbc
        · exact (cleared u).sbc
        · exact endCal_sbc _ u)
      (s.setStc { s.stc with op := .run })
    have waits : u.sbc.passWaiting = true := by rw [sbc]; exact waiting
    rw [e, endWaitingPass, if_pos waits]
    rfl

/-! ### The requests -/

theorem enterService_rows (p : Port) (s : State) (h : Admitted p .enterService [] s) :
    (s.stc.op = .service → exec (.enterService p []) s = .next ((s.heard p).answered p 0x38#8 .wrongState [])) ∧
    (s.stc.op = .run → s.wge.lift.isSome = true →
      exec (.enterService p []) s = .next ((s.heard p).answered p 0x38#8 .busy [])) ∧
    (s.stc.op = .run → s.wge.lift = none →
      exec (.enterService p []) s = .next ((changeState .service (s.heard p)).answered p 0x38#8 .ok [])) := by
  refine ⟨fun op => exec_refused (r := .enterService) h ?_, fun op lift => exec_refused (r := .enterService) h ?_,
    fun op lift => (exec_admitted (r := .enterService) h).trans ?_⟩
  · simp [serve, serveEnterService, op]
  · simp [serve, serveEnterService, op, lift]
  · simp [serve, serveEnterService, op, lift]
    rfl

theorem leaveService_rows (p : Port) (s : State) (h : Admitted p .leaveService [] s) :
    (s.stc.op = .run → exec (.leaveService p []) s = .next ((s.heard p).answered p 0x39#8 .wrongState [])) ∧
    (s.stc.op = .service → s.committing = true →
      exec (.leaveService p []) s = .next ((s.heard p).answered p 0x39#8 .busy [])) ∧
    (s.stc.op = .service → s.committing = false →
      exec (.leaveService p []) s = .next ((changeState .run (s.heard p)).answered p 0x39#8 .ok [])) := by
  have committing : (s.heard p).committing = s.committing := rfl
  refine ⟨fun op => exec_refused (r := .leaveService) h ?_, fun op works => exec_refused (r := .leaveService) h ?_,
    fun op idle => (exec_admitted (r := .leaveService) h).trans ?_⟩
  · simp [serve, serveLeaveService, op]
  · simp [serve, serveLeaveService, op, committing, works]
  · simp [serve, serveLeaveService, op, committing, idle]
    rfl

/-- STANDBY is admitted in RUN alone (R199, R212). -/
theorem standby_admitted_run {p : Port} {s : State} (h : Admitted p .standby [] s) : s.stc.op = .run := by
  obtain ⟨-, op, admitted, -⟩ := h
  refine op.resolve_right (fun service => ?_)
  rw [service] at admitted
  revert admitted
  cases p <;> decide

theorem standby_rows (p : Port) (s : State) (h : Admitted p .standby [] s) :
    ((s.wge.lift.isSome = true ∨ s.cpm.permit.isSome = true) →
      exec (.standby p []) s = .next ((s.heard p).answered p 0x3A#8 .busy [])) ∧
    (s.wge.lift = none → s.cpm.permit = none →
      exec (.standby p []) s = .next ((changeState .standby (s.heard p)).answered p 0x3A#8 .ok [])) := by
  refine ⟨fun way => exec_refused (r := .standby) h ?_, fun lift permit => (exec_admitted (r := .standby) h).trans ?_⟩
  · simp only [serve, serveStandby, heard_wge, heard_cpm, way, if_true]
  · simp [serve, serveStandby, lift, permit]
    rfl

theorem restart_rows (p : Port) (s : State) (h : Admitted p .restart [] s) :
    (s.committing = true → exec (.restart p []) s = .next ((s.heard p).answered p 0x3C#8 .busy [])) ∧
    (s.committing = false → s.stc.restart ≠ .due →
      exec (.restart p []) s = .next (((s.heard p).setStc { s.stc with restart := .replying }).answered p 0x3C#8 .ok [])) := by
  have committing : (s.heard p).committing = s.committing := rfl
  refine ⟨fun works => exec_refused (r := .restart) h ?_, fun idle undue => (exec_admitted (r := .restart) h).trans ?_⟩
  · simp [serve, serveRestart, committing, works]
  · simp [serve, serveRestart, committing, idle, undue]
    rfl

/-- A stop halts the timers and empties the round at once; the line and the kept times follow with no transaction to wait for (R35;
notes/assumptions/12.md). -/
theorem Sbc.stop_fields (b : Sbc) (now : Nat) :
    (b.stop now).bus = .stopped ∧ (b.stop now).roundTimer = none ∧ (b.stop now).attemptTimer = none ∧ (b.stop now).due = [] ∧
      (b.stop now).entries = b.entries ∧ (b.txn = none → (b.stop now).busFreeLow = true ∧ (b.stop now).stuckTimes = []) := by
  unfold Sbc.stop Sbc.finishStop
  cases ht : b.txn <;> simp

/-- Settles O60: each request's rows, and what its change of the operating state comes to (`changeState_service`,
`changeState_leaves`, `changeState_turns`). -/
theorem stateRequestRows : Obligations.StateRequestRows := by
  intro s
  refine ⟨fun p h => ?enter, fun p h => ?leave, fun p h => ?standby, fun p h => restart_rows p s h⟩
  case enter =>
    obtain ⟨wrong, busy, taken⟩ := enterService_rows p s h
    refine ⟨wrong, busy, fun op lift => ⟨_, changeState .service (s.heard p), taken op lift, rfl, ?_, ?_⟩⟩
    · have queued := (heard_quiet _ s p).after (changeState_queued .service (s.heard p))
      rw [heard_stc, op] at queued
      exact queued
    · rw [changeState_service (s := s.heard p) op]
      simp only [answered_stc, answered_cpm, answered_wge, answered_sbc, answered_pos, answered_tlu, answered_hls, answered_wt,
        answered_slots]
      exact ⟨rfl, rfl, rfl, rfl, rfl, rfl, rfl, rfl, heard_slots s p⟩
  case leave =>
    obtain ⟨wrong, busy, taken⟩ := leaveService_rows p s h
    refine ⟨wrong, busy, fun op idle => ⟨_, changeState .run (s.heard p), taken op idle, rfl, ?_, ?_⟩⟩
    · have queued := (heard_quiet _ s p).after (changeState_queued .run (s.heard p))
      rw [heard_stc, op] at queued
      exact queued
    · obtain ⟨left, cpm, cal, pass⟩ := changeState_leaves (s := s.heard p) op
      have overrides := (Cpm.evaluated_copies s.cfg { s.cpm with overrides := Vector.replicate 3 .clear }).1
      rw [heard_cpm, heard_cfg] at cpm
      have all : (changeState .run (s.heard p)).cpm.overrides = Vector.replicate 3 .clear :=
        (congrArg Cpm.overrides cpm).trans overrides
      have cleared (i : Fin 3) : (changeState .run (s.heard p)).cpm.overrides[i] = ⟨0, 0, false⟩ := by
        rw [all, Fin.getElem_fin, Vector.getElem_replicate]
        rfl
      have evaluated : (changeState .run (s.heard p)).cpm =
          (cpmEvaluate (s.setCpm { s.cpm with overrides := (changeState .run (s.heard p)).cpm.overrides })).cpm := by
        rw [cpmEvaluate_cpm, all]
        exact cpm
      simp only [answered_stc, answered_wge, answered_sbc, answered_pos, answered_tlu]
      exact ⟨left.stc, cleared, evaluated, cal, pass, by rw [left.sbc]; rfl, by rw [left.sbc]; rfl, left.pos, left.tlu, left.z,
        left.span⟩
  case standby =>
    have op := standby_admitted_run h
    obtain ⟨busy, taken⟩ := standby_rows p s h
    refine ⟨busy, fun lift permit => ⟨_, changeState .standby (s.heard p), taken lift permit, rfl, ?_, ?_⟩⟩
    · have queued := (heard_quiet _ s p).after (changeState_queued .standby (s.heard p))
      rw [heard_stc, op] at queued
      exact queued
    · have work : (s.heard p).stc.op ≠ .service := by simp [op]
      have turns : busRuns (s.heard p).stc.op ≠ busRuns .standby := by rw [heard_stc, op]; decide
      obtain ⟨slots, mask, e⟩ := changeState_turns work turns
      obtain ⟨bus, round, attempt, due, entries, line⟩ := Sbc.stop_fields s.sbc s.now
      have kept : let t := changeState .standby (s.heard p)
          t.sbc = s.sbc.stop s.now ∧ t.stc = { s.stc with op := .standby } ∧
          t.pos = s.pos ∧ t.wge = s.wge ∧ t.tlu = s.tlu ∧ t.cpm = s.cpm ∧ t.wt = s.wt := by
        intro t
        rw [show t = _ from e]
        exact ⟨rfl, rfl, rfl, rfl, rfl, rfl, rfl⟩
      obtain ⟨sbc, stc, rest⟩ := kept
      simp only [answered_stc, answered_cpm, answered_wge, answered_sbc, answered_pos, answered_tlu, answered_hls, answered_wt,
        answered_slots, sbc]
      obtain ⟨pos, wge, tlu, cpm, wt⟩ := rest
      exact ⟨stc, mask, bus, round, attempt, due, entries, line, pos, wge, tlu, cpm, wt, slots.trans (heard_slots s p)⟩

end Sys2Proof.Machine
end

section
/-! PROOFS. What judging leaves of the watch table (R159, R161), and the end of START (R40, R92, R176, R192 to R195): O6. -/

namespace Sys2Proof.Machine

/-! ### What judging leaves of the watch table -/

/-- The live mass, the pose and the lift WT holds and the definitions of its entries are as they were. -/
structure WatchKept (s t : State) : Prop where
  live : t.wt.live = s.wt.live
  pose : t.wt.pose = s.wt.pose
  lift : t.wt.lift = s.wt.lift
  defs : ∀ k : Fin 8, t.wt.entries[k].d = s.wt.entries[k].d

theorem WatchKept.refl (s : State) : WatchKept s s := ⟨rfl, rfl, rfl, fun _ => rfl⟩

theorem WatchKept.trans {s t u : State} (h : WatchKept s t) (k : WatchKept t u) : WatchKept s u :=
  ⟨k.live.trans h.live, k.pose.trans h.pose, k.lift.trans h.lift, fun i => (k.defs i).trans (h.defs i)⟩

/-- WT is not touched at all. -/
theorem WatchKept.of_wt {s t : State} (h : t.wt = s.wt) : WatchKept s t := by
  constructor <;> simp [h]

theorem runAny_watchKept {fs : List (State → State)} (each : ∀ f ∈ fs, ∀ s, WatchKept s (f s)) (s : State) :
    WatchKept s (runAny fs s) :=
  runAny_rel WatchKept .refl (fun _ _ _ => .trans) (fun _ _ => .of_wt rfl) each s

theorem foldl_watchKept {α : Type} {f : State → α → State} (each : ∀ s a, WatchKept s (f s a)) (l : List α) (s : State) :
    WatchKept s (l.foldl f s) := by
  induction l generalizing s with
  | nil => exact .refl s
  | cons a l ih => exact (each s a).trans (ih _)

theorem queueReport_watchKept (s : State) (r : Report) (body : List Byte) : WatchKept s (s.queueReport r body) := .of_wt rfl

theorem present_watchKept (src : HoldSource) (mask : LineMask) (s : State) : WatchKept s (present src mask s) := by
  obtain ⟨m, e, -⟩ := present_rest src mask s
  rw [e]
  exact .of_wt rfl

/-- An entry with the same definition takes its place. -/
theorem Wt.setEntry_defs (w : Wt) (k : Fin 8) {x : WatchEntry} (h : x.d = w.entries[k].d) (i : Fin 8) :
    (w.setEntry k x).entries[i].d = w.entries[i].d := by
  by_cases e : i = k
  · subst e
    simpa [Wt.setEntry] using h
  · have ne : k.val ≠ i.val := fun h => e (Fin.ext h.symm)
    simp [Wt.setEntry, Vector.getElem_set_ne _ _ ne]

theorem setEntry_watchKept (s : State) (k : Fin 8) {x : WatchEntry} (h : x.d = s.wt.entries[k].d) :
    WatchKept s (s.setWt (s.wt.setEntry k x)) :=
  ⟨rfl, rfl, rfl, Wt.setEntry_defs s.wt k h⟩

theorem setPair_watchKept (s : State) (k : Fin 8) (b : Bool) : WatchKept s (s.setWt (s.wt.setPair k b)) :=
  ⟨rfl, rfl, rfl, fun _ => rfl⟩

theorem setHits_watchKept (s : State) (k : Fin 8) (p : Option (Fin 8)) : WatchKept s (s.setWt (s.wt.setHits k p)) := by
  have hit (u : State) (i : Fin 8) : WatchKept u (u.setWt (u.wt.setHit i)) := setEntry_watchKept u i rfl
  cases p with
  | none => exact hit s k
  | some i => exact (hit s i).trans (hit (s.setWt (s.wt.setHit i)) k)

theorem offerCapture_watchKept (k : Fin 8) (s : State) : WatchKept s (offerCapture k s) := by
  have record (u : State) (c : Option Capture) : WatchKept u (u.setWt { u.wt with capture := c }) := ⟨rfl, rfl, rfl, fun _ => rfl⟩
  unfold offerCapture
  split
  · exact (record s _).trans (queueReport_watchKept _ _ _)
  · exact rel_ite ((record s _).trans (queueReport_watchKept _ _ _)) (record s _)

theorem fire_watchKept (ev : SourceEvent) (k : Fin 8) (p : Option (Fin 8)) (s : State) : WatchKept s (fire ev k p s) := by
  unfold fire
  dsimp only
  split
  · exact (setHits_watchKept s k p).trans (queueReport_watchKept _ _ _)
  · exact (setHits_watchKept s k p).trans (offerCapture_watchKept k _)
  · exact (setHits_watchKept s k p).trans (present_watchKept _ _ _)

theorem withdraw_watchKept (k : Fin 8) (s : State) : WatchKept s (withdraw k s) :=
  rel_ite (present_watchKept _ _ s) (.refl s)

theorem judgeEdge_watchKept (ev : SourceEvent) (k : Fin 8) (was : Bool) (s : State) : WatchKept s (judgeEdge ev k was s) := by
  unfold judgeEdge
  refine rel_ite ?_ (rel_ite (fire_watchKept ev k none s) (rel_ite (withdraw_watchKept k s) (.refl s)))
  have pair := setPair_watchKept s k (s.wt.bothMatch k)
  exact rel_ite (pair.trans (fire_watchKept _ _ _ _)) (rel_ite (pair.trans (withdraw_watchKept _ _)) pair)

theorem evalEntry_watchKept (ev : SourceEvent) (vals : Quantity → Option Marked) (s : State) (k : Fin 8) :
    WatchKept s (evalEntry ev vals s k) := by
  unfold evalEntry
  dsimp only
  split
  · split
    · exact .refl s
    · refine .trans ?_ (judgeEdge_watchKept ev k _ _)
      exact rel_ite (setEntry_watchKept s k rfl) (.refl s)
  · exact .refl s

theorem watchEvaluate_watchKept (ev : SourceEvent) (vals : Quantity → Option Marked) (s : State) :
    WatchKept s (watchEvaluate ev vals s) :=
  rel_ite (foldl_watchKept (evalEntry_watchKept ev vals) _ s) (.refl s)

theorem wtUtil_watchKept (u : Marked) (s : State) : WatchKept s (wtUtil u s) :=
  have taken : WatchKept s (s.setWt { s.wt with u := u }) := ⟨rfl, rfl, rfl, fun _ => rfl⟩
  taken.trans (watchEvaluate_watchKept _ _ _)

/-- An evaluation of CPM hands WT the utilisation alone (R149). -/
theorem cpmEvaluate_watchKept (s : State) : WatchKept s (cpmEvaluate s) := by
  have formed (c : Cpm) : WatchKept s (s.setCpm c) := .of_wt rfl
  refine (formed _).trans (runAny_watchKept (fun f hf u => ?_) _)
  simp only [List.mem_cons, List.not_mem_nil, or_false] at hf
  rcases hf with rfl | rfl | rfl | rfl
  · unfold wgeUtil
    split
    · exact rel_ite (.refl u) (.of_wt rfl)
    · exact .refl u
  · exact wtUtil_watchKept _ u
  · unfold evalReports
    exact .trans (rel_ite (queueReport_watchKept _ _ _) (.refl u)) (rel_ite (queueReport_watchKept _ _ _) (.refl _))
  · exact rel_ite (present_watchKept _ _ u) (.refl u)

theorem cpmTake_watchKept (change : Cpm → Cpm) (s : State) : WatchKept s (cpmTake change s) :=
  have formed (c : Cpm) : WatchKept s (s.setCpm c) := .of_wt rfl
  (formed _).trans (cpmEvaluate_watchKept _)

/-- WT takes a live mass and keeps the rest. -/
theorem wtLive_holds (m : Marked) (s : State) :
    (wtLive m s).wt.live = m ∧ (wtLive m s).wt.pose = s.wt.pose ∧ ∀ k : Fin 8, (wtLive m s).wt.entries[k].d = s.wt.entries[k].d :=
  have k := watchEvaluate_watchKept .liveMass (fun q => if q = .liveMass then some m else none)
    (s.setWt { s.wt with live := m })
  ⟨k.live, k.pose, k.defs⟩

/-- WT takes a pose and keeps the rest. -/
theorem wtPose_holds (p : Pose) (s : State) :
    (wtPose p s).wt.pose = p ∧ (wtPose p s).wt.live = s.wt.live ∧ ∀ k : Fin 8, (wtPose p s).wt.entries[k].d = s.wt.entries[k].d :=
  have k := watchEvaluate_watchKept .poseUpdate (poseVals p) (s.setWt { s.wt with pose := p })
  ⟨k.pose, k.live, k.defs⟩

/-- A recomputation leaves the definitions of the watch entries. -/
theorem recompute_defs (s : State) (k : Fin 8) : (recompute s).wt.entries[k].d = s.wt.entries[k].d := by
  refine runAny_rel (fun s t => t.wt.entries[k].d = s.wt.entries[k].d) (fun _ => rfl) (fun _ _ _ h k => k.trans h)
    (fun _ _ => rfl) (fun f hf u => ?_) _
  simp only [List.mem_cons, List.not_mem_nil, or_false] at hf
  rcases hf with rfl | rfl
  · exact (cpmTake_watchKept _ u).defs k
  · exact (wtPose_holds _ u).2.2 k

/-! ### The entries at a start (R176) -/

/-- What each index holds once the entries are made: its starting definition, less a chain R176 takes off an OPEN entry. -/
theorem makeEntries_def (locked : Vector (Option WatchDef) 8) (s : State) (k : Fin 8) {d : WatchDef}
    (start : startDef locked[k] s.wt.entries[k].d = d) (fixed : d.owner = .locked ∨ d.chain = false) :
    (makeEntries locked s).wt.entries[k].d = d := by
  have presented (l : List (Fin 8)) (t : State) :
      (l.foldl (fun s k => present (.watch k) 0#6 s) t).wt = t.wt := by
    induction l generalizing t with
    | nil => rfl
    | cons i l ih =>
      obtain ⟨m, e, -⟩ := present_rest (.watch i) 0#6 t
      rw [List.foldl_cons, ih, e]
      rfl
  unfold makeEntries
  rw [presented]
  subst start
  rcases fixed with owner | chain
  · simp [unchain, WatchEntry.of] at owner ⊢
    simp [owner]
  · simp [unchain, WatchEntry.of] at chain ⊢
    simp [chain]

end Sys2Proof.Machine
end

section
/-! PROOFS. The end of START (R40, R92, R176, R179, R192 to R195): O6. -/

namespace Sys2Proof.Machine

/-! ### What each block takes of the settings (R194) -/

theorem installPose_handedOn (g : Geometry) (z : Zones) (s : State) :
    ∃ p, HandedOn ((s.setCfg { s.cfg with geo := g, zones := z }).setPos p) (installPose g z s) :=
  ⟨_, recompute_handedOn _⟩

theorem installWeigh_eq (keep : Bool) (c : ImageContents) (s : State) :
    installWeigh keep c s = (s.setCfg { s.cfg with weigh := c.settings.weigh }).setWge
      (if keep then s.wge else { s.wge with z := c.z, span := c.span }) := by
  unfold installWeigh
  cases keep <;> rfl

theorem installCapacity_handedOn (c : CapParams) (s : State) :
    HandedOn (s.setCfg { s.cfg with cap := c }) (installCapacity c s) := cpmEvaluate_handedOn _

/-- The hand-overs of an installation (R194). -/
def installers (keep : Bool) (c : ImageContents) : List (State → State) :=
  [installPollList c.pollList, installPose c.settings.geo c.settings.zones, installWeigh keep c,
    installCapacity c.settings.cap, makeEntries c.locked]

theorem install_eq (good : Bool) (c : ImageContents) (s : State) :
    install good c s = runAny (installers (good && s.stc.startWarm) c) (s.setCfg { s.cfg with sw := c.settings.sw }) := rfl

theorem mem_installers {keep : Bool} {c : ImageContents} {f : State → State} (hf : f ∈ installers keep c) :
    f = installPollList c.pollList ∨ f = installPose c.settings.geo c.settings.zones ∨ f = installWeigh keep c ∨
      f = installCapacity c.settings.cap ∨ f = makeEntries c.locked := by
  simpa [installers] using hf

/-- What an installation leaves: all of STC but the settings, all of SBC but the list, the tally and the time. -/
structure InstallKept (s t : State) : Prop where
  now : t.now = s.now
  tlu : t.tlu = s.tlu
  stc : t.stc = { s.stc with settings := t.cfg }
  sbc : t.sbc = { s.sbc with entries := t.sbc.entries }
  sw : t.cfg.sw = s.cfg.sw

theorem InstallKept.refl (s : State) : InstallKept s s := ⟨rfl, rfl, rfl, rfl, rfl⟩

theorem InstallKept.trans {s t u : State} (h : InstallKept s t) (k : InstallKept t u) : InstallKept s u :=
  ⟨k.now.trans h.now, k.tlu.trans h.tlu, by rw [k.stc, h.stc], by rw [k.sbc, h.sbc], k.sw.trans h.sw⟩

theorem HandedOn.installKept {s t : State} (h : HandedOn s t) : InstallKept s t :=
  ⟨h.now, h.tlu, by rw [h.cfg]; exact h.stc, by rw [h.sbc], by rw [h.cfg]⟩

theorem setCfg_installKept (s : State) (c : Settings) (sw : c.sw = s.cfg.sw) : InstallKept s (s.setCfg c) :=
  ⟨rfl, rfl, rfl, rfl, sw⟩

theorem installers_kept {keep : Bool} {c : ImageContents} {f : State → State} (hf : f ∈ installers keep c) (s : State) :
    InstallKept s (f s) := by
  obtain rfl | rfl | rfl | rfl | rfl := mem_installers hf
  · exact ⟨rfl, rfl, rfl, rfl, rfl⟩
  · obtain ⟨p, h⟩ := installPose_handedOn c.settings.geo c.settings.zones s
    have set : InstallKept s ((s.setCfg { s.cfg with geo := c.settings.geo, zones := c.settings.zones }).setPos p) :=
      ⟨rfl, rfl, rfl, rfl, rfl⟩
    exact set.trans h.installKept
  · rw [installWeigh_eq]
    exact ⟨rfl, rfl, rfl, rfl, rfl⟩
  · exact (setCfg_installKept s { s.cfg with cap := c.settings.cap } rfl).trans (installCapacity_handedOn _ s).installKept
  · exact (makeEntries_handedOn _ s).installKept

/-- The figures that an installation sets. -/
structure Installed where
  entries : List Entry
  geo : Geometry
  zones : Zones
  weigh : WeighParams
  cap : CapParams
  z : Int
  span : Nat

def State.installed (s : State) : Installed where
  entries := s.sbc.entries
  geo := s.cfg.geo
  zones := s.cfg.zones
  weigh := s.cfg.weigh
  cap := s.cfg.cap
  z := s.wge.z
  span := s.wge.span

theorem HandedOn.installed {s t : State} (h : HandedOn s t) : t.installed = s.installed := by
  simp [State.installed, h.sbc, h.cfg, h.z, h.span]

theorem installPose_installed (g : Geometry) (z : Zones) (s : State) :
    (installPose g z s).installed = { s.installed with geo := g, zones := z } := by
  obtain ⟨p, h⟩ := installPose_handedOn g z s
  exact h.installed

theorem installWeigh_installed (keep : Bool) (c : ImageContents) (s : State) :
    (installWeigh keep c s).installed = { s.installed with
      weigh := c.settings.weigh, z := if keep then s.wge.z else c.z, span := if keep then s.wge.span else c.span } := by
  rw [installWeigh_eq]
  cases keep <;> rfl

theorem installCapacity_installed (c : CapParams) (s : State) :
    (installCapacity c s).installed = { s.installed with cap := c } := (installCapacity_handedOn c s).installed

theorem makeEntries_installed (locked : Vector (Option WatchDef) 8) (s : State) :
    (makeEntries locked s).installed = s.installed := (makeEntries_handedOn locked s).installed

/-- What one hand-over of an installation brings about and the others keep, they leave. -/
theorem installers_bring {keep : Bool} {c : ImageContents} (P : Installed → Prop)
    (keeps : ∀ f ∈ installers keep c, ∀ s : State, P s.installed → P (f s).installed)
    (brings : ∃ f ∈ installers keep c, ∀ s : State, P (f s).installed) (s : State) : P (runAny (installers keep c) s).installed :=
  runAny_brings (fun s => P s.installed) (fun _ _ h => h) keeps brings s

/-- The blocks as an installation leaves them, in whatever order they take it (R194). -/
theorem installers_installed (keep : Bool) (c : ImageContents) (s : State) :
    (runAny (installers keep c) s).installed = {
      entries := c.pollList.map Entry.fresh, geo := c.settings.geo, zones := c.settings.zones, weigh := c.settings.weigh
      cap := c.settings.cap, z := if keep then s.wge.z else c.z, span := if keep then s.wge.span else c.span } := by
  have each (P : Installed → Prop) (list : ∀ x, P x → P { x with entries := c.pollList.map Entry.fresh })
      (pose : ∀ x, P x → P { x with geo := c.settings.geo, zones := c.settings.zones })
      (weigh : ∀ s : State, P s.installed → P (installWeigh keep c s).installed)
      (cap : ∀ x, P x → P { x with cap := c.settings.cap }) :
      ∀ f ∈ installers keep c, ∀ s : State, P s.installed → P (f s).installed := by
    intro f hf s h
    obtain rfl | rfl | rfl | rfl | rfl := mem_installers hf
    · exact list _ h
    · exact installPose_installed _ _ s ▸ pose _ h
    · exact weigh s h
    · exact installCapacity_installed _ s ▸ cap _ h
    · exact makeEntries_installed _ s ▸ h
  have bring (P : Installed → Prop) (list : ∀ x, P x → P { x with entries := c.pollList.map Entry.fresh })
      (pose : ∀ x, P x → P { x with geo := c.settings.geo, zones := c.settings.zones })
      (weigh : ∀ s : State, P s.installed → P (installWeigh keep c s).installed)
      (cap : ∀ x, P x → P { x with cap := c.settings.cap })
      (brings : ∃ f ∈ installers keep c, ∀ s : State, P (f s).installed) : P (runAny (installers keep c) s).installed :=
    installers_bring P (each P list pose weigh cap) brings s
  have weighed (s : State) := installWeigh_installed keep c s
  have entries := bring (fun x => x.entries = c.pollList.map Entry.fresh) (fun _ _ => rfl) (fun _ h => h)
    (fun s h => by rw [weighed]; exact h) (fun _ h => h)
    ⟨installPollList c.pollList, by simp [installers], fun _ => rfl⟩
  have pose := bring (fun x => x.geo = c.settings.geo ∧ x.zones = c.settings.zones) (fun _ h => h)
    (fun _ _ => ⟨rfl, rfl⟩) (fun s h => by rw [weighed]; exact h) (fun _ h => h)
    ⟨installPose c.settings.geo c.settings.zones, by simp [installers], fun s => by rw [installPose_installed]; exact ⟨rfl, rfl⟩⟩
  have weigh := bring (fun x => x.weigh = c.settings.weigh) (fun _ h => h) (fun _ h => h)
    (fun s _ => by rw [weighed]) (fun _ h => h)
    ⟨installWeigh keep c, by simp [installers], fun s => by rw [weighed]⟩
  have cap := bring (fun x => x.cap = c.settings.cap) (fun _ h => h) (fun _ h => h)
    (fun s h => by rw [weighed]; exact h) (fun _ _ => rfl)
    ⟨installCapacity c.settings.cap, by simp [installers], fun s => by rw [installCapacity_installed]⟩
  have zeroAndSpan : (runAny (installers keep c) s).installed.z = (if keep then s.wge.z else c.z) ∧
      (runAny (installers keep c) s).installed.span = if keep then s.wge.span else c.span := by
    cases keep with
    | true =>
      exact runAny_keeps (fun t => t.installed.z = s.wge.z ∧ t.installed.span = s.wge.span) (fun _ _ h => h)
        (each (fun x => x.z = s.wge.z ∧ x.span = s.wge.span) (fun _ h => h) (fun _ h => h)
          (fun t h => by rw [weighed]; exact h) (fun _ h => h)) ⟨rfl, rfl⟩
    | false =>
      exact bring (fun x => x.z = c.z ∧ x.span = c.span) (fun _ h => h) (fun _ h => h)
        (fun t _ => by rw [weighed]; exact ⟨rfl, rfl⟩) (fun _ h => h)
        ⟨installWeigh false c, by simp [installers], fun t => by rw [weighed]; exact ⟨rfl, rfl⟩⟩
  rw [← entries, ← pose.1, ← pose.2, ← weigh, ← cap, ← zeroAndSpan.1, ← zeroAndSpan.2]

/-- What each watch entry holds after an installation (R176). -/
theorem installers_def (keep : Bool) (c : ImageContents) (s : State) (k : Fin 8) {d : WatchDef}
    (start : startDef c.locked[k] s.wt.entries[k].d = d) (fixed : d.owner = .locked ∨ d.chain = false) :
    (runAny (installers keep c) s).wt.entries[k].d = d := by
  obtain ⟨u, before, after⟩ := runAny_around (fun s t => t.wt.entries[k].d = s.wt.entries[k].d) (fun _ => rfl)
    (fun _ _ _ h k => k.trans h) (fun _ _ => rfl) (fs := installers keep c) (f := makeEntries c.locked)
    (rest := [installPollList c.pollList, installPose c.settings.geo c.settings.zones, installWeigh keep c,
      installCapacity c.settings.cap])
    (List.perm_append_comm (l₁ := [_, _, _, _]) (l₂ := [_])) (fun f hf s => by
      simp only [List.mem_cons, List.not_mem_nil, or_false] at hf
      rcases hf with rfl | rfl | rfl | rfl
      · rfl
      · exact recompute_defs _ k
      · rw [installWeigh_eq]
        rfl
      · exact (cpmEvaluate_watchKept _).defs k) s
  rw [after]
  exact makeEntries_def c.locked u k (by rw [before, start]) fixed

theorem setCfg_quiet (kinds : List Report) (s : State) (c : Settings) : Queued kinds [] s (s.setCfg c) := setStc_quiet _ _ _

/-- An installation queues no report of a change of the operating state. -/
theorem install_quiet (good : Bool) (c : ImageContents) (s : State) : Queued [.stateChange] [] s (install good c s) := by
  have avoids : Avoids [.stateChange] Report.ofEvaluation := by unfold Avoids; decide
  rw [install_eq]
  refine (setCfg_quiet _ s _).after (runAny_quiet (fun f hf u => ?_) _)
  obtain rfl | rfl | rfl | rfl | rfl := mem_installers hf
  · exact setSbc_quiet _ u _
  · exact (setCfg_quiet _ u _).after (recompute_quiet avoids _)
  · rw [installWeigh_eq]
    exact (setCfg_quiet _ u _).after (setWge_quiet _ _ _)
  · exact (setCfg_quiet _ u _).after (cpmEvaluate_quiet avoids _)
  · exact makeEntries_quiet avoids.watch _ u

/-- The state an installation leaves, of what the end of START is judged by. -/
theorem install_leaves (good : Bool) (c : ImageContents) (s : State) :
    let t := install good c s
    let keep := good && s.stc.startWarm
    t.now = s.now ∧ t.tlu = s.tlu ∧ t.stc = { s.stc with settings := c.settings } ∧
      t.sbc = { s.sbc with entries := c.pollList.map Entry.fresh } ∧
      t.wge.z = (if keep then s.wge.z else c.z) ∧ t.wge.span = (if keep then s.wge.span else c.span) := by
  intro t keep
  have kept : InstallKept (s.setCfg { s.cfg with sw := c.settings.sw }) t :=
    runAny_rel InstallKept .refl (fun _ _ _ => .trans) (fun _ _ => ⟨rfl, rfl, rfl, rfl, rfl⟩)
      (fun _ hf => installers_kept hf) _
  have installed := installers_installed keep c (s.setCfg { s.cfg with sw := c.settings.sw })
  rw [show runAny (installers keep c) _ = t from rfl] at installed
  have settings : t.cfg = c.settings := by
    have geo : t.cfg.geo = _ := congrArg Installed.geo installed
    have zones : t.cfg.zones = _ := congrArg Installed.zones installed
    have weigh : t.cfg.weigh = _ := congrArg Installed.weigh installed
    have cap : t.cfg.cap = _ := congrArg Installed.cap installed
    have sw : t.cfg.sw = c.settings.sw := kept.sw
    rw [show t.cfg = ⟨t.cfg.geo, t.cfg.zones, t.cfg.weigh, t.cfg.cap, t.cfg.sw⟩ from rfl, geo, zones, weigh, cap, sw]
  refine ⟨kept.now, kept.tlu, ?_, ?_, congrArg Installed.z installed, congrArg Installed.span installed⟩
  · rw [kept.stc, settings]
    rfl
  · rw [kept.sbc, show t.sbc.entries = _ from congrArg Installed.entries installed]
    rfl

/-- PRELOAD_DONE, once the finding on the image is made: the contents installed, the marks set, the state changed (R194). -/
theorem preloadDone_eq {s : State} (loading : s.stc.preloading = true) (failed : Bool) {good : Bool}
    (found : s.stc.image.good failed = good) :
    preloadDone failed s =
      let c := if good = true then s.stc.image.contents else defaultContents
      let u := install good c s
      changeState (if good = true then .run else .service)
        (u.setStc { u.stc with preloading := false, settingsBad := !good, imageBad := !good, marker := true }) := by
  subst found
  unfold preloadDone
  rw [if_pos loading]

/-- The end of START, for contents found good or bad. -/
theorem preloadDone_leaves {s : State} (loading : s.stc.preloading = true) (start : s.stc.op = .start)
    (stopped : s.sbc.bus = .stopped) (still : s.sbc.stopping = false) (failed : Bool) {good : Bool}
    (found : s.stc.image.good failed = good) :
    let c := if good = true then s.stc.image.contents else defaultContents
    let keep := good && s.stc.startWarm
    let new : OpState := if good = true then .run else .service
    let t := preloadDone failed s
    Queued [.stateChange] (stateReport new.num 0 !good) s t ∧ t.hls.masks.state = 0#6 ∧ t.tlu = s.tlu ∧
      t.stc = { s.stc with
        op := new, settings := c.settings, preloading := false, settingsBad := !good, imageBad := !good, marker := true } ∧
      t.sbc = ({ s.sbc with entries := c.pollList.map Entry.fresh } : Sbc).run s.now ∧
      t.wge.z = (if keep = true then s.wge.z else c.z) ∧ t.wge.span = (if keep = true then s.wge.span else c.span) ∧
      ∀ (k : Fin 8) (d : WatchDef), startDef c.locked[k] s.wt.entries[k].d = d → d.owner = .locked ∨ d.chain = false →
        t.wt.entries[k].d = d := by
  intro c keep new t
  obtain ⟨now, tlu, stc, sbc, z, span⟩ := install_leaves good c s
  obtain ⟨u, hu⟩ : ∃ u, u = install good c s := ⟨_, rfl⟩
  have quiet := install_quiet good c s
  have defs (k : Fin 8) (d : WatchDef) (first : startDef c.locked[k] s.wt.entries[k].d = d)
      (fixed : d.owner = .locked ∨ d.chain = false) : u.wt.entries[k].d = d := by
    rw [hu]
    exact installers_def keep c (s.setCfg { s.cfg with sw := c.settings.sw }) k first fixed
  rw [← hu] at now tlu stc sbc z span quiet
  obtain ⟨w, hw⟩ : ∃ w, w =
      u.setStc { u.stc with preloading := false, settingsBad := !good, imageBad := !good, marker := true } := ⟨_, rfl⟩
  have change : t = changeState new w := by
    rw [hw, hu]
    exact preloadDone_eq loading failed found
  have op : w.stc.op = .start := by
    rw [hw, State.setStc_stc, stc]
    exact start
  have turns : busRuns w.stc.op ≠ busRuns new := by
    rw [op]
    unfold new
    cases good <;> decide
  have wsbc : w.sbc = { s.sbc with entries := c.pollList.map Entry.fresh } := by rw [hw]; exact sbc
  have runs : w.turned (busRuns new) = ({ s.sbc with entries := c.pollList.map Entry.fresh } : Sbc).run s.now := by
    have up : busRuns new = true := by unfold new; cases good <;> rfl
    rw [up]
    show (busStart w).sbc = _
    rw [busStart_runs (by rw [wsbc]; exact stopped) (by rw [wsbc]; exact still), State.setSbc_sbc, wsbc]
    rw [hw, State.setStc_now, now]
  have empty : stateMask new = 0#6 := by unfold new; cases good <;> rfl
  obtain ⟨-, mask, e⟩ := changeState_turns (s := w) (by rw [op]; decide) turns
  have queued := changeState_queued new w
  rw [op, show w.stc.settingsBad = !good by rw [hw]; rfl] at queued
  rw [runs] at e
  rw [← change] at mask e queued
  have marked : Queued [.stateChange] [] s w := by
    rw [hw]
    exact quiet.after (setStc_quiet _ _ _)
  refine ⟨marked.after queued, mask.trans empty, ?_, ?_, ?_, ?_, ?_, fun k d first fixed => ?_⟩
  · rw [e, hw]
    exact tlu
  · rw [e, hw]
    simp [stc]
  · rw [e]
  · rw [e, hw]
    exact z
  · rw [e, hw]
    exact span
  · rw [e, hw]
    exact defs k d first fixed

theorem StoredImage.good_iff (i : StoredImage) (failed : Bool) :
    i.good failed = true ↔ failed = false ∧ i.invalid = false ∧ i.check = Config.settingsCheck i.contents := by
  simp [StoredImage.good, and_assoc]

/-- Settles O6: what an installation leaves (`install_leaves`, `installers_def`), and the change of state after it. -/
theorem preloadInstalls : Obligations.PreloadInstalls := by
  intro failed s powered loading start stopped still i good
  obtain ⟨found, hf⟩ : ∃ b, s.stc.image.good failed = b := ⟨_, rfl⟩
  have isGood : good ↔ found = true := by
    rw [← hf]
    exact (StoredImage.good_iff _ _).symm
  obtain ⟨queued, mask, tlu, stc, sbc, z, span, defs⟩ := preloadDone_leaves loading start stopped still failed hf
  obtain ⟨bus, low, no, timer, entries, -⟩ := Sbc.run_fields
    { s.sbc with entries := (if found = true then s.stc.image.contents else defaultContents).pollList.map Entry.fresh } s.now
  refine ⟨_, preloadDone failed s, completes_powered powered, rfl, ?_, ?_, mask, ?_, ?_, ?_, ?_, ?_, tlu, fun g => ?_, fun b => ?_, ?_⟩
  · rw [pump_stc, stc]
  · rw [pump_sbc, sbc, bus]
  · rw [pump_sbc, sbc, low]
  · rw [pump_sbc, sbc, timer]
  · rw [pump_sbc, sbc, no]
  · rw [pump_stc, stc]
  · rw [pump_stc, stc]
  · obtain rfl := isGood.1 g
    refine ⟨queued, ?_, ?_, ?_, ?_, ?_, ?_, fun k d locked owner => defs k d ?_ (.inl owner)⟩
    · rw [pump_stc, stc]
      rfl
    · rw [pump_stc, stc]
      rfl
    · rw [pump_cfg, State.cfg, stc]
      rfl
    · rw [pump_sbc, sbc, entries]
      simp [Entry.fresh, Function.comp_def, i]
    · exact z
    · exact span
    · show startDef s.stc.image.contents.locked[k] _ = d
      rw [locked]
      rfl
  · obtain rfl : found = false := by simpa [isGood] using b
    refine ⟨queued, ?_, ?_, ?_, ?_, z, span, fun k locked => defs k _ ?_ (.inr rfl)⟩
    · rw [pump_stc, stc]
      rfl
    · rw [pump_stc, stc]
      rfl
    · rw [pump_cfg, State.cfg, stc]
      rfl
    · rw [pump_sbc, sbc, entries]
      rfl
    · have unheld : defaultContents.locked[k] = none := Vector.getElem_replicate k.isLt
      have closed : s.wt.entries[k].d.owner ≠ .open_ := fun h => nomatch locked.symm.trans h
      show startDef defaultContents.locked[k] _ = _
      rw [unheld]
      exact if_neg closed
  · rw [pump_sbc, sbc, entries]
    simp only [List.map_map, List.mem_map]
    rintro _ ⟨d, -, rfl⟩
    exact ⟨rfl, rfl, rfl, rfl, rfl⟩

end Sys2Proof.Machine
end

section
/-! PROOFS. TARE, CAL_SPAN, SENSOR_PASS and COMMIT as they are taken up (R33, R36, R98, R103, R203, R213 to R215): O46. -/

namespace Sys2Proof.Machine

/-! ### A delayed request that no slot answers (R213, R214) -/

theorem Mpt.matching_congr {m n : Mpt} (h : m.slots = n.slots) (p : Port) (k : DelayedKind) (body : List Byte) :
    m.matching p k body = n.matching p k body := by
  unfold Mpt.matching
  rw [h]

theorem Mpt.conflicting_congr {m n : Mpt} (h : m.slots = n.slots) (p : Port) (k : DelayedKind) (body : List Byte) :
    m.conflicting p k body = n.conflicting p k body := by
  unfold Mpt.conflicting
  rw [h]

theorem Mpt.freeSlot_congr {m n : Mpt} (h : m.slots = n.slots) : m.freeSlot = n.freeSlot := by
  unfold Mpt.freeSlot
  rw [h]

/-- A state with a request written into a slot, WORKING (R213). -/
def State.inSlot (s : State) (i : Fin 4) (p : Port) (k : DelayedKind) (body : List Byte) : State :=
  s.setMpt { s.mpt with slots := s.mpt.slots.set i (some { port := p, kind := k, body := body, state := .working }) }

theorem heard_inSlot (s : State) (i : Fin 4) (p : Port) (k : DelayedKind) (body : List Byte) :
    (s.heard p).inSlot i p k body = (s.heard p).setMpt { (s.heard p).mpt with
      slots := s.mpt.slots.set i (some { port := p, kind := k, body := body, state := .working }) } := by
  rw [← heard_slots s p]
  rfl

theorem takeSlot_free {s : State} {i : Fin 4} (free : s.mpt.freeSlot = some i) (p : Port) (k : DelayedKind) (body : List Byte) :
    s.takeSlot p k body = s.inSlot i p k body := by
  simp [State.takeSlot, State.inSlot, free]

section new
variable {r : Req} {p : Port} {k : DelayedKind} {body : List Byte} {judge : Bool → State → Option Code × State} {start : State → State}
  {s : State} (admitted : Admitted p r body s) (serves : ∀ u, serve r p body u = serveDelayed p k body judge start u)
  (unmatched : s.mpt.matching p k body = none) (alone : s.mpt.conflicting p k body = false)
include unmatched alone

theorem serveDelayed_refuses {c : Code} {u : State} (refuses : judge s.mpt.freeSlot.isSome (s.heard p) = (some c, u)) :
    serveDelayed p k body judge start (s.heard p) = (.refuse c, u) := by
  have slots := heard_slots s p
  have none := (Mpt.matching_congr slots p k body).trans unmatched
  have other := (Mpt.conflicting_congr slots p k body).trans alone
  simp only [serveDelayed, none, other, Bool.false_eq_true, if_false, Mpt.freeSlot_congr slots, refuses]

theorem serveDelayed_accepts {i : Fin 4} (free : s.mpt.freeSlot = some i) (accepts : judge true (s.heard p) = (none, s.heard p)) :
    serveDelayed p k body judge start (s.heard p) = (.refuse .pending, start ((s.heard p).inSlot i p k body)) := by
  have slots := heard_slots s p
  have none := (Mpt.matching_congr slots p k body).trans unmatched
  have other := (Mpt.conflicting_congr slots p k body).trans alone
  have free := (Mpt.freeSlot_congr slots).trans free
  simp only [serveDelayed, none, other, Bool.false_eq_true, if_false, free, Option.isSome_some, accepts, takeSlot_free free]

include admitted serves

/-- Its owner refuses it. -/
theorem delayed_refused {c : Code} {u : State} (refuses : judge s.mpt.freeSlot.isSome (s.heard p) = (some c, u)) :
    exec (r.frame p body) s = .next (u.answered p r.code c []) := by
  rw [exec_admitted admitted, serves, serveDelayed_refuses unmatched alone refuses]
  rfl

/-- Its owner accepts it, and the lowest free slot takes it. -/
theorem delayed_accepted {i : Fin 4} (free : s.mpt.freeSlot = some i)
    (accepts : judge true (s.heard p) = (none, s.heard p)) :
    exec (r.frame p body) s = .next ((start ((s.heard p).inSlot i p k body)).answered p r.code .pending []) := by
  rw [exec_admitted admitted, serves, serveDelayed_accepts unmatched alone free accepts]
  rfl

end new

/-! ### TARE (R98) -/

section tare
variable {p : Port} {s : State} (admitted : Admitted p .tare [] s) (unmatched : s.mpt.matching p .tare [] = none)
  (alone : s.mpt.conflicting p .tare [] = false)
include admitted unmatched alone

theorem tare_refused {c : Code} (refuses : (tareJudged s.mpt.freeSlot.isSome s).1 = some c) :
    exec (.tare p []) s = .next ((s.heard p).answered p 0x20#8 c []) :=
  delayed_refused (r := .tare) admitted (fun _ => rfl) unmatched alone (Prod.ext refuses rfl)

theorem tare_accepted {i : Fin 4} (idle : s.wge.tare = none) (open_ : s.wge.lift = none) (free : s.mpt.freeSlot = some i) :
    exec (.tare p []) s = .next ((acceptTare p ((s.heard p).inSlot i p .tare [])).answered p 0x20#8 .pending []) :=
  delayed_accepted (r := .tare) admitted (fun _ => rfl) unmatched alone free (by simp [tareJudged, idle, open_])

end tare

/-! ### CAL_SPAN (R103) -/

theorem natAt_two (hi lo : Byte) : natAt [hi, lo] 0 2 = hi.toNat * 256 + lo.toNat := by
  simp [natAt, beNat]

theorem liftState_of_stage {w : Wge} {l : Lift} (lift : w.lift = some l) (up : l.stage ≠ .gripped) :
    w.liftState ≠ .open_ ∧ w.liftState ≠ .gripped := by
  unfold Wge.liftState
  rw [lift]
  cases h : l.stage <;> simp [h, Stage.state] at up ⊢

theorem liftState_low {w : Wge} (low : ∀ l, w.lift = some l → l.stage = .gripped) :
    w.liftState = .open_ ∨ w.liftState = .gripped := by
  unfold Wge.liftState
  cases h : w.lift with
  | none => exact .inl rfl
  | some l => simp [low l h, Stage.state]

section calSpan
variable {p : Port} {hi lo : Byte} {s : State} (admitted : Admitted p .calSpan [hi, lo] s)
  (unmatched : s.mpt.matching p .calSpan [hi, lo] = none) (alone : s.mpt.conflicting p .calSpan [hi, lo] = false)
include admitted unmatched alone

theorem calSpan_refused {c : Code} (refuses : (calJudged (hi.toNat * 256 + lo.toNat) s.mpt.freeSlot.isSome s).1 = some c) :
    exec (.calSpan p [hi, lo]) s = .next ((s.heard p).answered p 0x21#8 c []) :=
  delayed_refused (r := .calSpan) admitted (fun _ => rfl) unmatched alone (Prod.ext (by rw [natAt_two]; exact refuses) rfl)

theorem calSpan_accepted {i : Fin 4} {l : Lift} (least : 500 ≤ hi.toNat * 256 + lo.toNat)
    (most : hi.toNat * 256 + lo.toNat ≤ 30000) (idle : s.wge.cal = none) (lift : s.wge.lift = some l) (up : l.stage ≠ .gripped)
    (free : s.mpt.freeSlot = some i) :
    exec (.calSpan p [hi, lo]) s =
      .next ((acceptCal (hi.toNat * 256 + lo.toNat) ((s.heard p).inSlot i p .calSpan [hi, lo])).answered p 0x21#8 .pending []) := by
  have allowed : ¬(hi.toNat * 256 + lo.toNat < 500 ∨ 30000 < hi.toNat * 256 + lo.toNat) := by omega
  obtain ⟨notOpen, notGripped⟩ := liftState_of_stage lift up
  rw [← natAt_two]
  rw [← natAt_two] at allowed
  exact delayed_accepted (r := .calSpan) admitted (fun _ => rfl) unmatched alone free
    (by simp [calJudged, allowed, idle, notOpen, notGripped])

end calSpan

/-! ### SENSOR_PASS (R36) -/

theorem passOf_eq (addr count : Byte) (w : List Byte) : passOf (addr :: count :: w) =
    if 8 ≤ addr.toNat ∧ addr.toNat ≤ 0x77 ∧ count.toNat ≤ 8 then
      some { addr := addr.toNat, count := count.toNat, writes := w } else none := by
  have a : natAt (addr :: count :: w) 0 1 = addr.toNat := by simp [natAt, beNat]
  have c : natAt (addr :: count :: w) 1 1 = count.toNat := by simp [natAt, beNat]
  simp [passOf, addrAllowed, a, c, and_assoc]

section sensorPass
variable {addr count : Byte} {w : List Byte} {s : State} (admitted : Admitted .service .sensorPass (addr :: count :: w) s)
  (unmatched : s.mpt.matching .service .sensorPass (addr :: count :: w) = none)
  (alone : s.mpt.conflicting .service .sensorPass (addr :: count :: w) = false)
include admitted unmatched alone

theorem sensorPass_refused {c : Code} {u : State}
    (refuses : passJudged (passOf (addr :: count :: w)) s.mpt.freeSlot.isSome (s.heard .service) = (some c, u)) :
    exec (.sensorPass .service (addr :: count :: w)) s = .next (u.answered .service 0x06#8 c []) :=
  delayed_refused (r := .sensorPass) admitted (fun _ => rfl) unmatched alone refuses

theorem sensorPass_accepted {i : Fin 4} {x : Passthrough} (allowed : passOf (addr :: count :: w) = some x)
    (idle : s.sbc.pass = none) (free : s.mpt.freeSlot = some i) :
    exec (.sensorPass .service (addr :: count :: w)) s = .next ((startPass x
      ((s.heard .service).inSlot i .service .sensorPass (addr :: count :: w))).answered .service 0x06#8 .pending []) := by
  have serves : ∀ u, serve .sensorPass .service (addr :: count :: w) u = serveDelayed .service .sensorPass (addr :: count :: w)
      (passJudged (some x)) (startPass x) u := fun u => by
    simp only [serve, serveSensorPass, allowed]
  exact delayed_accepted (r := .sensorPass) admitted serves unmatched alone free (by simp [passJudged, eitherRefusal, idle])

end sensorPass

/-- A passthrough accepted in DOWN is completed at once: its slot DONE with STUCK, the passthrough slot free again (R33). -/
theorem startPass_down {s : State} {i : Fin 4} {x : Passthrough} {p : Port} {body : List Byte} (down : s.sbc.bus = .down)
    (idle : s.sbc.pass = none) (noPass : ∀ t, s.sbc.txn = some t → t.kind ≠ .pass) :
    let t := startPass x (s.inSlot i p .sensorPass body)
    t.sbc = s.sbc ∧ t.wge = s.wge ∧ t.tlu = s.tlu ∧ t.mpt.slots[i] =
      some { port := p, kind := .sensorPass, body := body, state := .done [0x13#8, 0x00#8] (s.now + 5000) } := by
  have waits : ({ s.sbc with pass := some x } : Sbc).passWaiting = true := by
    unfold Sbc.passWaiting
    cases h : s.sbc.txn with
    | none => rfl
    | some t => simp [noPass t h]
  have ended : startPass x (s.inSlot i p .sensorPass body) = ((s.inSlot i p .sensorPass body).setSbc
      { s.sbc with pass := none }).finishWork .sensorPass (passResult .stuck []) := by
    show (if s.sbc.bus = .down then endWaitingPass .stuck _ else _) = _
    rw [if_pos down]
    exact if_pos waits
  intro t
  rw [show t = _ from ended, ← idle]
  refine ⟨rfl, rfl, rfl, ?_⟩
  simp [State.finishWork, State.inSlot, DelayedSlot.finish, passResult, be1, WorkCode.num, beBytes, discardMs]

/-- Settles O46: each request's rows as its owner judges them, and its work as it begins or ends at once. -/
theorem delayedAccepted : Obligations.DelayedAccepted := by
  refine ⟨?tare, ?calSpan, ?sensorPass, ?commit, ?tareRows, ?calSpanRows, ?sensorPassRows, ?commitRows⟩
  case tare =>
    intro p i s h unmatched alone idle open_ free fresh
    rw [tare_accepted h unmatched alone idle open_ free]
    have fresh : ((s.heard p).inSlot i p .tare []).linkIsStale = false := fresh
    simp only [acceptTare, fresh, Bool.false_eq_true, if_false]
    rw [heard_inSlot]
    rfl
  case calSpan =>
    intro p hi lo i l s h unmatched alone idle least most lift up free fresh
    rw [calSpan_accepted h unmatched alone least most idle lift up free]
    have fresh : ((s.heard p).inSlot i p .calSpan [hi, lo]).linkIsStale = false := fresh
    simp only [acceptCal, fresh, Bool.false_eq_true, if_false]
    rw [heard_inSlot]
    rfl
  case sensorPass =>
    intro addr count w i s h unmatched alone idle least most few free x slot
    have allowed : passOf (addr :: count :: w) = some x := by
      rw [passOf_eq, if_pos ⟨least, most, few⟩]
    rw [sensorPass_accepted h unmatched alone allowed idle free]
    refine ⟨fun up => ?_, fun down noPass => ?_⟩
    · have waits : startPass x ((s.heard .service).inSlot i .service .sensorPass (addr :: count :: w)) =
          ((s.heard .service).inSlot i .service .sensorPass (addr :: count :: w)).setSbc { s.sbc with pass := some x } := if_neg up
      rw [waits]
      rfl
    · obtain ⟨sbc, wge, tlu, done⟩ := startPass_down (s := s.heard .service) (i := i) (x := x) (p := .service)
        (body := addr :: count :: w) down idle noPass
      refine ⟨_, _, rfl, rfl, ?_, ?_, ?_, ?_⟩
      · rw [answered_sbc, sbc]
        rfl
      · rw [answered_slots]
        exact done
      · rw [answered_wge, wge]
        rfl
      · rw [answered_tlu, tlu]
        rfl
  case commit =>
    intro i s h unmatched alone idle free
    have idle : (s.heard .service).committing = false := by simp [State.committing, idle]
    exact delayed_accepted (r := .commit) (judge := commitJudged) (start := startCommit) h (fun _ => rfl) unmatched alone free
      (by simp [commitJudged, idle])
  case tareRows =>
    intro p s h unmatched alone answers
    refine ⟨fun works => ?_, fun idle up => ?_, fun idle open_ full => ?_, fun i idle open_ free stale => ?_⟩
    · exact tare_refused h unmatched alone (by simp [tareJudged, works])
    · exact tare_refused h unmatched alone (by simp [tareJudged, idle, up])
    · exact tare_refused h unmatched alone (by simp [tareJudged, idle, open_, full])
    · rw [tare_accepted h unmatched alone idle open_ free]
      have stale : ((s.heard p).inSlot i p .tare []).linkIsStale = true := stale
      simp only [acceptTare, stale, if_true]
      rw [heard_inSlot]
      have restored : { s.wge with az := .empty, tare := none } = { s.wge with az := AzWindow.empty } := by rw [← idle]
      have ended (m : Mpt) : endTare .sensorLost (startTare p ((s.heard p).setMpt m)) =
          (((s.heard p).setMpt m).setWge { s.wge with az := .empty, tare := none }).finishWork .tare
            (tareResult .sensorLost s.wge.z) := rfl
      rw [ended, restored]
      rfl
  case calSpanRows =>
    intro p hi lo s h unmatched alone mref allowed answers
    refine ⟨fun out => ?_, fun within works => ?_, fun within idle low => ?_, fun l within idle lift up full => ?_,
      fun l i within idle lift up free stale => ?_⟩
    · have out : mref < 500 ∨ 30000 < mref := by omega
      exact calSpan_refused h unmatched alone (by simp only [calJudged]; rw [if_pos out])
    · have within : ¬(mref < 500 ∨ 30000 < mref) := by omega
      exact calSpan_refused h unmatched alone (by simp only [calJudged]; rw [if_neg within, if_pos works])
    · have within : ¬(mref < 500 ∨ 30000 < mref) := by omega
      exact calSpan_refused h unmatched alone (by
        simp only [calJudged]; rw [if_neg within, if_neg (by simp [idle]), if_pos (liftState_low low)])
    · have within : ¬(mref < 500 ∨ 30000 < mref) := by omega
      obtain ⟨notOpen, notGripped⟩ := liftState_of_stage lift up
      exact calSpan_refused h unmatched alone (by
        simp only [calJudged]; rw [if_neg within, if_neg (by simp [idle]), if_neg (by simp [notOpen, notGripped]), if_pos (by simp [full])])
    · rw [calSpan_accepted h unmatched alone within.1 within.2 idle lift up free]
      have stale : ((s.heard p).inSlot i p .calSpan [hi, lo]).linkIsStale = true := stale
      simp only [acceptCal, stale, if_true]
      rw [heard_inSlot]
      have restored : { s.wge with cal := none } = s.wge := by rw [← idle]
      have ended (m : Mpt) : endCal .sensorLost (startCal (hi.toNat * 256 + lo.toNat) ((s.heard p).setMpt m)) =
          (((s.heard p).setMpt m).setWge { s.wge with cal := none }).finishWork .calSpan
            (calResult .sensorLost 0 s.wge.span) := rfl
      rw [ended, restored]
      rfl
  case sensorPassRows =>
    intro addr count w s h unmatched alone allowed room answers
    have judged (f : Bool) : passJudged (passOf (addr :: count :: w)) f (s.heard .service) =
        eitherRefusal (if allowed then none else some .badField) (if s.sbc.pass.isSome || !f then some .busy else none)
          (s.heard .service) := by
      rw [passOf_eq]
      unfold passJudged
      split <;> rfl
    have crowded (full : ¬room) : (s.sbc.pass.isSome || !s.mpt.freeSlot.isSome) = true := by
      cases hp : s.sbc.pass <;> simp [room, hp] at full ⊢
      exact full
    refine ⟨fun out spare => ?_, fun within full => ?_, fun out full => ?_⟩
    · exact sensorPass_refused h unmatched alone (by rw [judged, if_neg out]; simp [eitherRefusal, spare.1, spare.2])
    · exact sensorPass_refused h unmatched alone (by rw [judged, if_pos within, if_pos (crowded full)]; rfl)
    · obtain ⟨n, l, pick, -⟩ := (s.heard .service).pick_eq 2
      have refused := sensorPass_refused (c := if n = 0 then .badField else .busy) (u := (s.setSched l).heard .service)
        h unmatched alone (by rw [judged, if_neg out, if_pos (crowded full)]; simp only [eitherRefusal, pick]; rfl)
      refine ⟨l, ?_⟩
      split at refused
      · exact .inl refused
      · exact .inr refused
  case commitRows =>
    intro s h unmatched alone busy
    exact delayed_refused (r := .commit) (judge := commitJudged) (start := startCommit) h (fun _ => rfl) unmatched alone
      (Prod.ext (if_pos (by simpa [State.committing] using busy)) rfl)

end Sys2Proof.Machine
end

section
/-! PROOFS. The pose record and its arrivals (R43, R44, R46 to R54): the second and third parts of O32. -/

namespace Sys2Proof.Machine

/-! ### Fields of the record (R44, R46, R47) -/

theorem takeInput_taken {fresh : Bool} {held : Option Int} {v : Int} (f : fresh = true) (h : held = some v) (old : Marked) :
    takeInput fresh held old = { val := v, ok := true } := by
  subst f h
  rfl

theorem takeInput_stale {fresh : Bool} {held : Option Int} (h : fresh = false ∨ held = none) (old : Marked) :
    takeInput fresh held old = { old with ok := false } := by
  rcases h with rfl | rfl
  · rfl
  · cases fresh <;> rfl

theorem formField_formed {ok : Bool} (h : ok = true) (new : Int) (old : Marked) : formField ok new old = { val := new, ok := true } := by
  subst h
  rfl

theorem formField_kept {ok : Bool} (h : ok = false) (new : Int) (old : Marked) : formField ok new old = { old with ok := false } := by
  subst h
  rfl

theorem formExtension_held {fresh : Bool} {held : Option Int} {v : Int} (f : fresh = true) (h : held = some v) (teleMax : Nat)
    (old : Marked) (was : Bool) :
    formExtension true fresh held teleMax old was = ({ val := min v teleMax, ok := true }, decide ((teleMax : Int) < v)) := by
  subst f h
  by_cases le : v ≤ teleMax
  · simp [formExtension, le]
  · simp [formExtension, le, Int.lt_of_not_ge le, Int.le_of_lt (Int.lt_of_not_ge le)]

theorem formExtension_stale {fresh : Bool} {held : Option Int} (h : fresh = false ∨ held = none) (teleMax : Nat)
    (old : Marked) (was : Bool) : formExtension true fresh held teleMax old was = ({ old with ok := false }, was) := by
  rcases h with rfl | rfl
  · rfl
  · cases fresh <;> rfl

/-- The reach before its clamp, of a record (R48). -/
def Pose.rawReach (q : Pose) (g : Geometry) : Int := reachRaw g q.alpha.val q.gamma.val q.e.val

/-! ### Zones and sectors (R50, R51) -/

/-- The bunk's slew band as the manual gives it: it wraps when its low end exceeds its high end. -/
def InSlewBand (z : Zones) (s : Int) : Prop :=
  if z.slewLo ≤ z.slewHi then (z.slewLo : Int) ≤ s ∧ s ≤ z.slewHi else (z.slewLo : Int) ≤ s ∨ s ≤ z.slewHi

theorem inSlewBand_iff (z : Zones) (s : Int) : inSlewBand z s = true ↔ InSlewBand z s := by
  unfold inSlewBand InSlewBand
  split <;> simp

theorem inReachBand_iff (z : Zones) (r : Int) : inReachBand z r = true ↔ (z.reachLo : Int) ≤ r ∧ r ≤ z.reachHi := by
  simp [inReachBand]

theorem zoneOf_valid (z : Zones) (s r : Int) :
    zoneOf z true s r = if (inSlewBand z s && inReachBand z r) = true then .bunk else .field_ := rfl

theorem sectorOf_iff (s : Int) :
    (sectorOf s = .left ↔ 450 ≤ s ∧ s ≤ 1349) ∧ (sectorOf s = .rear ↔ 1350 ≤ s ∧ s ≤ 2249) ∧
      (sectorOf s = .right ↔ 2250 ≤ s ∧ s ≤ 3149) ∧ (sectorOf s = .front ↔ s ≤ 449 ∨ 3150 ≤ s) := by
  unfold sectorOf
  split
  · simp; omega
  split
  · simp; omega
  split
  · simp; omega
  split
  · simp; omega
  · simp; omega

/-! ### A recomputation (R43, R44, R149) -/

theorem recompute_pos (s : State) : (recompute s).pos = { s.pos with pose := s.pos.formPose s.sbc s.cfg } :=
  (recompute_handedOn s).pos

/-- CPM takes a figure beside a hand-over to another block, in either order, and evaluates (R142). -/
theorem runAny_cpmTake {change : Cpm → Cpm} {take other : State → State} (cpm : ∀ u, take u = cpmTake change u)
    (beside : ∀ u, (other u).cpm = u.cpm ∧ (other u).cfg = u.cfg) (s : State) :
    (runAny [take, other] s).cpm = (change s.cpm).evaluated s.cfg := by
  obtain ⟨u, ⟨same, cfg⟩, e, -⟩ := runAny_around (fun s t => t.cpm = s.cpm ∧ t.cfg = s.cfg) (fun _ => ⟨rfl, rfl⟩)
    (fun _ _ _ h k => ⟨k.1.trans h.1, k.2.trans h.2⟩) (fun _ _ => ⟨rfl, rfl⟩)
    (f := take) (rest := [other]) (fs := [take, other]) (.refl _) (fun f hf u => by
      rw [List.mem_singleton.1 hf]
      exact beside u) s
  rw [e, cpm, cpmTake, cpmEvaluate_cpm, ← same, ← cfg]
  rfl

theorem wtPose_cpm (p : Pose) (s : State) : (wtPose p s).cpm = s.cpm := watchEvaluate_cpm _ _ (s.setWt { s.wt with pose := p })

theorem wtLive_cpm (m : Marked) (s : State) : (wtLive m s).cpm = s.cpm := watchEvaluate_cpm _ _ (s.setWt { s.wt with live := m })

/-- What a pose update leaves CPM and WT with, in either order (R142, R159). -/
theorem poseUpdate_taken (s : State) :
    (poseUpdate s).wt.pose = s.pos.pose ∧ (poseUpdate s).cpm = ({ s.cpm with poseCopy := s.pos.pose } : Cpm).evaluated s.cfg := by
  unfold poseUpdate
  constructor
  · refine runAny_brings (fun u => u.wt.pose = s.pos.pose) (fun _ _ h => h) (fun f hf u h => ?_)
      ⟨wtPose s.pos.pose, by simp, fun u => (wtPose_holds s.pos.pose u).1⟩ s
    simp only [List.mem_cons, List.not_mem_nil, or_false] at hf
    rcases hf with rfl | rfl
    · have kept : WatchKept u (cpmPose s.pos.pose u) := cpmTake_watchKept _ u
      exact kept.pose.trans h
    · exact (wtPose_holds s.pos.pose u).1
  · exact runAny_cpmTake (change := fun c => { c with poseCopy := s.pos.pose }) (take := cpmPose s.pos.pose)
      (other := wtPose s.pos.pose) (fun _ => rfl) (fun u => ⟨wtPose_cpm _ u, (wtPose_handedOn _ u).cfg⟩) s

/-! ### Rates (R53, R54) -/

theorem shortestDiff_spec (a b : Int) :
    -1799 ≤ shortestDiff a b ∧ shortestDiff a b ≤ 1800 ∧ (3600 : Int) ∣ b - a - shortestDiff a b := by
  unfold shortestDiff modInt
  dsimp only
  split <;> omega

theorem takeRate_started {returning : Bool} {mem : Option RateMem} (h : returning = true ∨ mem = none)
    (diff : Int → Int → Int) (v : Int) (time : Nat) :
    takeRate diff mem returning v time = { value := v, time := time, rate := 0 } := by
  rcases h with rfl | rfl
  · cases mem <;> rfl
  · rfl

theorem takeRate_rated (diff : Int → Int → Int) {m : RateMem} {time : Nat} (order : m.time ≤ time) (v : Int) :
    takeRate diff (some m) false v time = {
      value := v, time := time
      rate := max (-32768) (min 32767 ((diff m.value v * 1000).tdiv (max 1 ((time : Int) - m.time)))) } := by
  have span : ((max 1 (time - m.time) : Nat) : Int) = max 1 ((time : Int) - m.time) := by omega
  unfold takeRate
  simp only [truncDiv, saturate, span]

/-! ### Arrivals and stale events (R43) -/

theorem takeSample_mems (p : Pos) (r : Role) (returning : Bool) (x : Sample) :
    p.takeSample r returning x = { p with
      fresh := p.fresh.set r true
      slewMem := if r = .slew then some (takeRate shortestDiff p.slewMem returning x.value x.time) else p.slewMem
      mainMem := if r = .main then some (takeRate plainDiff p.mainMem returning x.value x.time) else p.mainMem } := by
  cases r <;> rfl

theorem takeStale_mems (p : Pos) (r : Role) :
    p.takeStale r = { p with
      fresh := p.fresh.set r false
      slewMem := if r = .slew then none else p.slewMem
      mainMem := if r = .main then none else p.mainMem } := by
  cases r <;> rfl

theorem poseArrival_pos (r : Role) (returning : Bool) (x : Sample) (s : State) :
    ∃ q, (poseArrival r returning x s).pos = { s.pos.takeSample r returning x with pose := q } :=
  ⟨_, recompute_pos _⟩

theorem poseStale_pos (r : Role) (s : State) : ∃ q, (poseStale r s).pos = { s.pos.takeStale r with pose := q } :=
  ⟨_, recompute_pos _⟩

/-- The pose record that a recomputation forms, field by field (R44, R46 to R52). -/
theorem recompute_forms : ∀ s : State,
    let t := recompute s
    let q := t.pos.pose
    q = s.pos.formPose s.sbc s.cfg ∧ t.pos = { s.pos with pose := q } ∧ t.cpm.poseCopy = q ∧ t.wt.pose = q ∧
      t.cpm = (cpmEvaluate (s.setCpm { s.cpm with poseCopy := q })).cpm ∧
      InSomeOrder [cpmPose q, wtPose q] (s.setPos { s.pos with pose := q }) t ∧ t.sbc = s.sbc ∧ t.tlu = s.tlu ∧ t.stc = s.stc := by
  intro s t q
  have pos : t.pos = { s.pos with pose := s.pos.formPose s.sbc s.cfg } := recompute_pos s
  have hq : q = s.pos.formPose s.sbc s.cfg := congrArg Pos.pose pos
  have handed := recompute_handedOn s
  obtain ⟨wt, cpm⟩ := poseUpdate_taken (s.setPos { s.pos with pose := s.pos.formPose s.sbc s.cfg })
  rw [hq]
  refine ⟨rfl, pos, ?_, wt, ?_, runAny_inSomeOrder _ _, handed.sbc, handed.tlu, handed.stc⟩
  · show (poseUpdate _).cpm.poseCopy = _
    rw [cpm]
    exact (Cpm.evaluated_copies _ _).2.2.2
  · rw [cpmEvaluate_cpm]
    exact cpm

end Sys2Proof.Machine
end

section
/-! PROOFS. Stale events, the pose record and its arrivals (R28, R30, R43 to R54, R60, R62, R68, R77, R142): O32. -/

namespace Sys2Proof.Machine

/-! ### The record that a recomputation forms -/

theorem takeInput_takes (fresh : Bool) (held : Option Int) (old : Marked) :
    (∀ v, fresh = true → held = some v → takeInput fresh held old = { val := v, ok := true }) ∧
      ((fresh = false ∨ held = none) → takeInput fresh held old = { old with ok := false }) :=
  ⟨fun _ f h => takeInput_taken f h old, fun h => takeInput_stale h old⟩

/-! ### Stale events -/

/-- The previous record's reading stands, marked invalid, while its role is stale, and with it the pose (R28, R44). -/
theorem poseStale_record (s : State) :
    ((poseStale .slew s).pos.pose.valid = false ∧ (poseStale .slew s).pos.pose.s = { s.pos.pose.s with ok := false }) ∧
      ((poseStale .main s).pos.pose.valid = false ∧ (poseStale .main s).pos.pose.alpha = { s.pos.pose.alpha with ok := false }) := by
  refine ⟨⟨?_, ?_⟩, ?_, ?_⟩
  all_goals
    unfold poseStale
    rw [recompute_pos]
  · simp [Pos.formPose, Pos.takeStale, Freshness.set, takeInput]
  · simp [Pos.formPose, Pos.takeStale, Freshness.set, takeInput]
  · simp [Pos.formPose, Pos.takeStale, Freshness.set, takeInput]
  · simp [Pos.formPose, Pos.takeStale, Freshness.set, takeInput]

/-- WGE after the stale event of LINK, before the marked live mass is handed on (R60, R62, R77, R97, R101, R106). -/
def linkEnded (s : State) : State := endCal .sensorLost (endTare .sensorLost (s.setWge s.wge.linkLost))

theorem linkEnded_wge (s : State) : (linkEnded s).wge = { s.wge.linkLost with tare := none, cal := none } := by
  unfold linkEnded
  rw [endCal_wge, endTare_wge]
  simp only [State.setWge_wge]
  cases h : s.wge.tare <;> simp [Wge.linkLost, h]

theorem linkStale_handedOn (s : State) : HandedOn (linkEnded s) (linkStale s) :=
  runAny_handedOn (liveHandOvers_handedOn _) _

/-- A lift in CARRYING restarts its window when LINK goes stale (R77). -/
theorem linkStale_lift {s : State} {l : Lift} (lift : (linkStale s).wge.lift = some l) (carrying : l.stage = .carrying) :
    l.n = 0 ∧ l.sum = 0 ∧ l.flags.sensorGap = true := by
  have same := (linkStale_handedOn s).lift
  rw [lift, linkEnded_wge] at same
  cases h : s.wge.lift with
  | none => simp [Wge.linkLost, h] at same
  | some l' =>
    have same : l.besidePeak = l'.linkLost.besidePeak := by simpa [Wge.linkLost, h] using same
    have stage : l'.stage = .carrying := by
      have e := congrArg Lift.stage same
      change l.stage = l'.linkLost.stage at e
      rw [carrying] at e
      unfold Lift.linkLost at e
      cases hs : l'.stage <;> simp [hs] at e ⊢
    have n := congrArg Lift.n same
    have sum := congrArg Lift.sum same
    have flags := congrArg Lift.flags same
    simpa [Lift.besidePeak, Lift.linkLost, stage] using And.intro n (And.intro sum (congrArg LiftFlags.sensorGap flags))

/-- The marked live mass as CPM and WT take it, in either order (R142). -/
theorem liveHandOvers_taken (m : Marked) (s : State) :
    (runAny (liveHandOvers m) s).wt.live = m ∧
      (runAny (liveHandOvers m) s).cpm = ({ s.cpm with liveCopy := m } : Cpm).evaluated s.cfg := by
  unfold liveHandOvers
  constructor
  · refine runAny_brings (fun u => u.wt.live = m) (fun _ _ h => h) (fun f hf u h => ?_)
      ⟨wtLive m, by simp, fun u => (wtLive_holds m u).1⟩ s
    simp only [List.mem_cons, List.not_mem_nil, or_false] at hf
    rcases hf with rfl | rfl
    · have kept : WatchKept u (cpmLive m u) := cpmTake_watchKept _ u
      exact kept.live.trans h
    · exact (wtLive_holds m u).1
  · exact runAny_cpmTake (change := fun c => { c with liveCopy := m }) (take := cpmLive m) (other := wtLive m) (fun _ => rfl)
      (fun u => ⟨wtLive_cpm _ u, (wtLive_handedOn _ u).cfg⟩) s

/-- What the stale event of LINK leaves (R60, R62, R77, R97, R101, R106, R142). -/
theorem linkStale_leaves (s : State) :
    let t := linkStale s
    let lost : Marked := { val := s.wge.liveVal, ok := false }
    t.wge.live = [] ∧ t.wge.prev = none ∧ t.wge.tare = none ∧ t.wge.cal = none ∧ t.wge.az.count = 0 ∧ t.pos = s.pos ∧
      t.wt.live = lost ∧ t.cpm = ({ s.cpm with liveCopy := lost } : Cpm).evaluated s.cfg := by
  intro t lost
  have handed : HandedOn (linkEnded s) t := linkStale_handedOn s
  have wge := linkEnded_wge s
  have mass : (linkEnded s).wge.liveMass = lost := by
    rw [wge]
    rfl
  have pos : (linkEnded s).pos = s.pos := by simp [linkEnded]
  have cpm : (linkEnded s).cpm = s.cpm := by simp [linkEnded]
  have cfg : (linkEnded s).cfg = s.cfg := by simp [linkEnded, State.cfg]
  obtain ⟨live, taken⟩ := liveHandOvers_taken (linkEnded s).wge.liveMass (linkEnded s)
  rw [show runAny (liveHandOvers (linkEnded s).wge.liveMass) (linkEnded s) = t from rfl] at live taken
  rw [mass] at live taken
  rw [cpm, cfg] at taken
  refine ⟨handed.live.trans ?_, handed.prev.trans ?_, handed.tare.trans ?_, handed.cal.trans ?_, ?_, handed.pos.trans pos, live, taken⟩
  · rw [wge]
    rfl
  · rw [wge]
    rfl
  · rw [wge]
  · rw [wge]
  · rw [handed.az, wge]
    rfl

/-- A delivery queues no SENSOR_STATE report (R30). -/
theorem sensorState_avoidsDelivery : Avoids [.sensorState] Report.ofDelivery := by
  unfold Avoids
  decide

theorem deliverStale_sensorQuiet (r : Role) (s : State) : Queued [.sensorState] [] s (deliverStale r s) :=
  deliverStale_quiet sensorState_avoidsDelivery.evaluation r s

theorem reportEntry_queued (e : Entry) (s : State) :
    Queued [.sensorState] [(.sensorState, sensorStateBody e (!e.pd.enable))] s (reportEntry e s) :=
  queueReport_queued [.sensorState] .sensorState _ s

/-- SENSOR_STALE when the value's age has exceeded its limit: the entry is marked and reported, and the event delivered (R28, R30). -/
theorem sensorStale_delivers {r : Role} {e : Entry} {x : Sample} {s : State} (powered : s.powered = true)
    (listed : s.sbc.listedEntry r = some e) (held : e.slot = some x) (fresh : e.stale = false)
    (late : x.time + staleLimit r < s.now) :
    ∃ u : State, exec (.sensorStale r) s = .next (deliverStale r u).pump ∧
      Queued [.sensorState] [(.sensorState, sensorStateBody { e with stale := true } false)] s u ∧ u.mpt.slots = s.mpt.slots ∧
      u = { s with sbc := s.sbc.mapRole r (fun e => { e with stale := true }), mpt := u.mpt } := by
  have role : e.pd.role = r ∧ e.pd.enable = true := by simpa using List.find?_some listed
  obtain ⟨role, enabled⟩ := role
  have due : e.staleDue s.now = true := by simp [Entry.staleDue, held, fresh, role, late]
  refine ⟨reportEntry { e with stale := true } (s.setSbc (s.sbc.mapRole r (fun e => { e with stale := true }))), ?_, ?_, rfl, rfl⟩
  · refine (completes_powered powered).trans ?_
    simp [sensorStale, listed, due]
  · have report := reportEntry_queued { e with stale := true } (s.setSbc (s.sbc.mapRole r (fun e => { e with stale := true })))
    simp only [enabled, Bool.not_true] at report
    exact (setSbc_quiet _ _ _).after report

/-- Settles O32: the stale events role by role (`linkStale_leaves`, `poseStale_record`), the record field by field
(`recompute_forms`), and the arrivals by their rate memories (`takeRate_started`, `takeRate_rated`). -/
theorem staleEvents : Obligations.StaleEvents := by
  refine ⟨?stale, ?record, ?arrival⟩
  case record =>
    intro s t q old g z takes
    obtain ⟨hq, pos, copy, wt, cpm, order, sbc, tlu, stc⟩ := recompute_forms s
    have hq : q = s.pos.formPose s.sbc s.cfg := hq
    have e : (q.e, q.teleClamped) = formExtension (s.sbc.listed .tele) s.pos.fresh.tele (s.sbc.heldValue .tele) g.teleMax old.e
        old.teleClamped := by rw [hq]; rfl
    have gamma : q.gamma = formField (q.alpha.ok && q.beta.ok) (q.alpha.val + q.beta.val - 1800) old.gamma := by rw [hq]; rfl
    have valid : q.valid = (q.s.ok && q.alpha.ok && q.beta.ok && q.e.ok) := by rw [hq]; rfl
    have r : q.r = formField q.valid (saturate 0 20000 (q.rawReach g)) old.r := by rw [hq]; rfl
    have clamped : q.reachClamped = if q.valid = true then decide (q.rawReach g < 0 ∨ 20000 < q.rawReach g)
        else old.reachClamped := by rw [hq]; rfl
    have h : q.h = formField q.valid (heightOf g q.alpha.val q.gamma.val q.e.val) old.h := by rw [hq]; rfl
    have zone : q.zone = zoneOf z q.valid q.s.val q.r.val := by rw [hq]; rfl
    have slewRate : q.slewRate = formField q.valid ((s.pos.slewMem.map (·.rate)).getD old.slewRate.val) old.slewRate := by
      rw [hq]; rfl
    have mainRate : q.mainRate = formField q.valid ((s.pos.mainMem.map (·.rate)).getD old.mainRate.val) old.mainRate := by
      rw [hq]; rfl
    have sector : q.sector = if q.s.ok = true then sectorOf q.s.val else old.sector := by rw [hq]; rfl
    have downhill : q.t = formField (q.pitch.ok && q.roll.ok && q.s.ok) (downhillOf q.sector q.pitch.val q.roll.val) old.t := by
      rw [hq]; rfl
    refine ⟨?_, ?_, ?_, ?_, ?_, fun unlisted => ?_, fun v listed fresh held => ?_, fun listed stale => ?_, fun ok => ?_, fun bad => ?_,
      ?_, fun ok => ?formed, fun bad => ⟨r.trans (formField_kept bad _ _), h.trans (formField_kept bad _ _), ?_,
        slewRate.trans (formField_kept bad _ _), mainRate.trans (formField_kept bad _ _), ?_⟩, fun bad => ?_, fun ok => ?_,
      fun ok => ?_, fun bad => ?_, copy, wt, order, cpm, sbc, tlu, stc, pos⟩
    · rw [hq]; exact takeInput_takes _ _ _
    · rw [hq]; exact takeInput_takes _ _ _
    · rw [hq]; exact takeInput_takes _ _ _
    · rw [hq]; exact takeInput_takes _ _ _
    · rw [hq]; exact takeInput_takes _ _ _
    · rw [unlisted] at e
      exact Prod.mk.inj e
    · rw [listed, formExtension_held fresh held] at e
      obtain ⟨he, hc⟩ := Prod.mk.inj e
      exact ⟨he, by rw [hc, decide_eq_true_eq]⟩
    · rw [listed, formExtension_stale stale] at e
      exact Prod.mk.inj e
    · exact gamma.trans (formField_formed (by simp [ok]) _ _)
    · exact gamma.trans (formField_kept (by simpa using bad) _ _)
    · rw [valid]
      simp [and_assoc]
    case formed =>
      intro raw inBand
      refine ⟨r.trans (formField_formed ok _ _), ?_, h.trans (formField_formed ok _ _), ?_, fun m mem => ?_, fun m mem => ?_⟩
      · rw [clamped, if_pos ok, decide_eq_true_eq]
        exact .rfl
      · rw [zone, ok, zoneOf_valid]
        exact if_congr (by simp only [Bool.and_eq_true, inSlewBand_iff, inReachBand_iff]; exact .rfl) rfl rfl
      · rw [slewRate, mem]
        exact formField_formed ok _ _
      · rw [mainRate, mem]
        exact formField_formed ok _ _
    · rw [zone, bad]
      rfl
    · rw [clamped, if_neg (by simp [bad])]
    · rw [sector, if_neg (by simp [bad])]
    · rw [sector, if_pos ok]
      exact sectorOf_iff _
    · rw [downhill, formField_formed (by simp [ok])]
      refine ⟨rfl, ?_, ?_, ?_, ?_⟩ <;> (intro at_; rw [at_]; rfl)
    · exact downhill.trans (formField_kept (by simpa [and_assoc] using bad) _ _)
  case arrival =>
    intro returning x s slewed raised started rated
    obtain ⟨q, hs⟩ := poseArrival_pos .slew returning x s
    obtain ⟨q', hm⟩ := poseArrival_pos .main returning x s
    have slewMem : slewed.slewMem = some (takeRate shortestDiff s.pos.slewMem returning x.value x.time) := by
      rw [show slewed = _ from hs]; rfl
    have mainMem : raised.mainMem = some (takeRate plainDiff s.pos.mainMem returning x.value x.time) := by
      rw [show raised = _ from hm]; rfl
    refine ⟨by rw [show slewed = _ from hs]; rfl, by rw [show slewed = _ from hs]; rfl, by rw [show raised = _ from hm]; rfl,
      by rw [show raised = _ from hm]; rfl, fun r => ?_, fun f b => ⟨rfl, rfl, rfl, rfl, rfl⟩, fun first => ?_, fun first => ?_,
      fun m plain mem order => ?_, fun m plain mem order => ?_⟩
    · intro t
      obtain ⟨p, ht⟩ := poseArrival_pos r returning x s
      have ht : t.pos = _ := ht
      rw [ht, takeSample_mems]
      refine ⟨?_, fun other => if_neg other, fun other => if_neg other⟩
      show poseArrival r returning x s = _
      unfold poseArrival
      rw [takeSample_mems]
    · rw [slewMem, takeRate_started first]
    · rw [mainMem, takeRate_started first]
    · obtain ⟨lo, hi, mod⟩ := shortestDiff_spec m.value x.value
      refine ⟨shortestDiff m.value x.value, lo, hi, mod, ?_⟩
      rw [slewMem, plain, mem, takeRate_rated _ order]
    · rw [mainMem, plain, mem, takeRate_rated _ order]
      rfl
  case stale =>
    intro r e x s powered listed held fresh late
    obtain ⟨u, event, reported, slots, hu⟩ := sensorStale_delivers powered listed held fresh late
    have delivered := deliverStale_delivered r u
    obtain ⟨tlu, z, span, lift⟩ := deliverStale_keeps r u
    have rest : u.tlu = s.tlu ∧ u.stc = s.stc ∧ u.wge = s.wge ∧ u.pos = s.pos ∧ u.cpm = s.cpm ∧ u.wt = s.wt ∧ u.hls = s.hls ∧
        u.sbc = s.sbc.mapRole r (fun e => { e with stale := true }) := by
      rw [hu]
      exact ⟨rfl, rfl, rfl, rfl, rfl, rfl, rfl, rfl⟩
    obtain ⟨utlu, ustc, uwge, upos, ucpm, uwt, uhls, usbc⟩ := rest
    rw [utlu] at tlu
    rw [uwge] at z span lift
    refine ⟨_, deliverStale r u, event, rfl, reported.before (deliverStale_sensorQuiet r u), delivered.sbc.trans usbc, tlu,
      delivered.stc.trans ustc, z, span, lift, ?link, ?slew, ?main, ?pose, ?others, ?grip⟩
    case link =>
      rintro rfl
      obtain ⟨live, prev, tare, cal, az, pos, taken, cpm⟩ := linkStale_leaves u
      refine ⟨live, prev, tare, cal, az, pos.trans upos, fun l lift carrying => linkStale_lift (s := u) lift carrying, ?_⟩
      rw [uwge] at taken cpm
      rw [ucpm, State.cfg, ustc] at cpm
      exact ⟨taken, cpm.trans (cpmEvaluate_cpm (s.setCpm { s.cpm with liveCopy := ⟨s.wge.liveVal, false⟩ })).symm⟩
    case slew =>
      rintro rfl
      obtain ⟨q, pos⟩ := poseStale_pos .slew u
      obtain ⟨⟨valid, marked⟩, -⟩ := poseStale_record u
      rw [upos] at pos marked
      refine ⟨?_, ?_, valid, marked⟩
      · exact congrArg (fun p => p.slewMem) pos
      · exact congrArg (fun p => p.mainMem) pos
    case main =>
      rintro rfl
      obtain ⟨q, pos⟩ := poseStale_pos .main u
      obtain ⟨-, ⟨valid, marked⟩⟩ := poseStale_record u
      rw [upos] at pos marked
      refine ⟨?_, ?_, valid, marked⟩
      · exact congrArg (fun p => p.mainMem) pos
      · exact congrArg (fun p => p.slewMem) pos
    case pose =>
      intro link grip
      have event : deliverStale r u = poseStale r u := by cases r <;> trivial
      obtain ⟨q, pos⟩ := poseStale_pos r u
      rw [event]
      refine ⟨u.setPos (u.pos.takeStale r), rfl, slots, ?_⟩
      have sbc : (poseStale r u).sbc = u.sbc := (recompute_handedOn (u.setPos (u.pos.takeStale r))).sbc
      rw [pump_sbc, pump_pos, sbc, pos, upos, takeStale_mems]
      conv_lhs => rw [hu]
      rw [usbc]
      rfl
    case others =>
      intro other
      obtain ⟨q, pos⟩ := poseStale_pos r u
      rw [upos] at pos
      obtain rfl | rfl | rfl := other
      all_goals exact ⟨congrArg (fun p => p.slewMem) pos, congrArg (fun p => p.mainMem) pos⟩
    case grip =>
      rintro rfl
      exact ⟨uwge, upos, ucpm, uwt, uhls⟩

end Sys2Proof.Machine
end

section
/-! PROOFS. What a transaction's end does to the bus (R30 to R32, R34, R35, R37): O30, and the ground of O29, O33 and O34. -/

namespace Sys2Proof.Machine

/-! ### All but SBC and the ports -/

/-- Only SBC, the report queues and the delayed slots may have changed. -/
def OnlyBus (s t : State) : Prop := t = { s with sbc := t.sbc, mpt := t.mpt }

theorem OnlyBus.refl (s : State) : OnlyBus s s := rfl

theorem OnlyBus.trans {s t u : State} (h : OnlyBus s t) (k : OnlyBus t u) : OnlyBus s u := by
  unfold OnlyBus at h k ⊢
  rw [k, h]

theorem setSbc_onlyBus (s : State) (b : Sbc) : OnlyBus s (s.setSbc b) := rfl
theorem reportEntry_onlyBus (e : Entry) (s : State) : OnlyBus s (reportEntry e s) := rfl

theorem foldl_reports_onlyBus (l : List Entry) (s : State) : OnlyBus s (l.foldl (fun s e => reportEntry e s) s) := by
  induction l generalizing s with
  | nil => exact .refl s
  | cons e l ih => exact (reportEntry_onlyBus e s).trans (ih _)

section readings
variable {s t : State} (h : OnlyBus s t)
include h
theorem OnlyBus.now : t.now = s.now := by unfold OnlyBus at h; rw [h]
theorem OnlyBus.pos : t.pos = s.pos := by unfold OnlyBus at h; rw [h]
theorem OnlyBus.wge : t.wge = s.wge := by unfold OnlyBus at h; rw [h]
theorem OnlyBus.tlu : t.tlu = s.tlu := by unfold OnlyBus at h; rw [h]
theorem OnlyBus.cpm : t.cpm = s.cpm := by unfold OnlyBus at h; rw [h]
theorem OnlyBus.wt : t.wt = s.wt := by unfold OnlyBus at h; rw [h]
theorem OnlyBus.hls : t.hls = s.hls := by unfold OnlyBus at h; rw [h]
theorem OnlyBus.stc : t.stc = s.stc := by unfold OnlyBus at h; rw [h]
end readings

/-! ### Reports of a bus that enters DOWN (R30, R32) -/

theorem foldl_reports_queued (l : List Entry) (s : State) :
    Queued [.sensorState] (l.map (fun e => (.sensorState, sensorStateBody e (!e.pd.enable)))) s
      (l.foldl (fun s e => reportEntry e s) s) := by
  induction l generalizing s with
  | nil => exact .refl _ s
  | cons e l ih => exact (reportEntry_queued e s).trans (ih _)

theorem foldl_reports_slots (l : List Entry) (s : State) :
    (l.foldl (fun s e => reportEntry e s) s).mpt.slots = s.mpt.slots := by
  induction l generalizing s with
  | nil => rfl
  | cons e l ih => exact ih _

theorem Entry.state_missing_iff (e : Entry) : e.state = .missing ↔ 3 ≤ e.failures := by
  unfold Entry.state
  split
  · next h => simp [h]
  · split
    · next h => simp; omega
    · next h => simp; omega

/-- Every entry MISSING, and the reports of those that were not (R32). -/
theorem allMissing_queued (s : State) : Queued [.sensorState] (downReports s.sbc.entries) s (allMissing s) := by
  have items : downReports s.sbc.entries = ((s.sbc.entries.filter (fun e => e.state ≠ .missing)).map Entry.down).map
      (fun e => (.sensorState, sensorStateBody e (!e.pd.enable))) := by
    have same : (fun e : Entry => decide (e.state ≠ .missing)) = fun e => decide (e.failures < 3) := by
      funext e
      simp only [ne_eq, Entry.state_missing_iff, not_le]
    rw [same, List.map_map]
    rfl
  rw [items]
  exact (setSbc_quiet _ s _).after (foldl_reports_queued _ _)

theorem allMissing_onlyBus (s : State) : OnlyBus s (allMissing s) := (setSbc_onlyBus s _).trans (foldl_reports_onlyBus _ _)

theorem allMissing_sbc (s : State) : (allMissing s).sbc = { s.sbc with entries := s.sbc.entries.map Entry.down } :=
  (allMissing_bus s).sbc

theorem allMissing_slots (s : State) : (allMissing s).mpt.slots = s.mpt.slots := foldl_reports_slots _ _

theorem endWaitingPass_sbc (c : WorkCode) (s : State) :
    (endWaitingPass c s).sbc = { s.sbc with pass := if s.sbc.passWaiting = true then none else s.sbc.pass } := by
  unfold endWaitingPass
  split <;> rfl

theorem endWaitingPass_onlyBus (c : WorkCode) (s : State) : OnlyBus s (endWaitingPass c s) := by
  unfold endWaitingPass
  split <;> rfl

/-- SBC in DOWN: every entry MISSING, no time kept, the attempt timer begun, a waiting passthrough ended (R32, R33). -/
def Sbc.inDown (b : Sbc) (now : Nat) : Sbc :=
  { b with
    bus := .down, stuckTimes := [], due := [], roundActive := false, phase := .idle, busFreeLow := false
    attemptTimer := some (now + attemptMs), restartPending := false, entries := b.entries.map Entry.down
    pass := if b.passWaiting = true then none else b.pass }

theorem enterDown_sbc (s : State) : (enterDown s).sbc = s.sbc.inDown s.now := by
  unfold enterDown
  rw [endWaitingPass_sbc, allMissing_sbc]
  rfl

theorem enterDown_onlyBus (s : State) : OnlyBus s (enterDown s) :=
  (setSbc_onlyBus s _).trans ((allMissing_onlyBus _).trans (endWaitingPass_onlyBus _ _))

theorem enterDown_queued (s : State) : Queued [.sensorState] (downReports s.sbc.entries) s (enterDown s) :=
  have missing (u : State) (entries : u.sbc.entries = s.sbc.entries) :
      Queued [.sensorState] (downReports s.sbc.entries) u (endWaitingPass .stuck (allMissing u)) := by
    rw [← entries]
    exact (allMissing_queued u).before (endWaitingPass_quiet _ _ _)
  (setSbc_quiet _ s _).after (missing _ rfl)

/-- With no passthrough waiting the delayed slots stay as they are. -/
theorem enterDown_slots {s : State} (none : s.sbc.pass = none) : (enterDown s).mpt.slots = s.mpt.slots := by
  unfold enterDown endWaitingPass
  rw [if_neg]
  · exact allMissing_slots _
  · rw [allMissing_sbc]
    simp [Sbc.passWaiting, none]

/-! ### A STUCK outcome (R31, R32) -/

theorem busStuck_third {s : State} (third : s.sbc.thirdStuck s.now = true) : busStuck s = enterDown s := if_pos third

theorem busStuck_recovers {s : State} (third : s.sbc.thirdStuck s.now = false) :
    busStuck s = s.setSbc ((s.sbc.keepStuck s.now).enterRecovering s.now) := if_neg (by simp [third])

theorem busStuck_onlyBus (s : State) : OnlyBus s (busStuck s) := rel_ite (enterDown_onlyBus s) (setSbc_onlyBus s _)

theorem busStuck_queued (s : State) :
    Queued [.sensorState] (if s.sbc.thirdStuck s.now = true then downReports s.sbc.entries else []) s (busStuck s) := by
  split
  · next third => exact busStuck_third third ▸ enterDown_queued s
  · next third => exact busStuck_recovers (by simpa using third) ▸ setSbc_quiet _ s _

/-! ### What follows a transaction (R20, R31, R32, R34, R35) -/

section after
variable {s : State}

theorem afterTransaction_stuck (still : s.sbc.stopping = false) (running : s.sbc.bus = .running) :
    afterTransaction true s = busStuck s := by
  simp [afterTransaction, still, running]

theorem afterTransaction_goesOn (still : s.sbc.stopping = false) (free : s.sbc.restartPending = false) :
    afterTransaction false s = s.setSbc s.sbc.advance := by
  simp [afterTransaction, still, free]

theorem afterTransaction_restarts (still : s.sbc.stopping = false) (pending : s.sbc.restartPending = true) :
    afterTransaction false s = s.setSbc (s.sbc.enterRecovering s.now) := by
  simp [afterTransaction, still, pending]

theorem afterTransaction_onlyBus (stuck : Bool) (s : State) : OnlyBus s (afterTransaction stuck s) := by
  have stopped (t : State) : OnlyBus t (t.setSbc (t.sbc.finishStop t.now)) := rfl
  unfold afterTransaction
  exact rel_ite ((rel_ite (allMissing_onlyBus s) (.refl s)).trans (stopped _)) (rel_ite (busStuck_onlyBus s)
    (rel_ite (setSbc_onlyBus s _) (setSbc_onlyBus s _)))

end after

/-! ### The passthrough (R37) -/

theorem passOutcome_rows (p : Passthrough) (stretched : Bool) (obs : PassObs) :
    let c := passOutcome p stretched obs
    (obs.stuck = true → c = .stuck) ∧ (obs.stuck = false → obs.addrAcked = false → c = .nakAddr) ∧
      (obs.stuck = false → obs.addrAcked = true → p.writes ≠ [] → obs.dataAcked = false → c = .nakData) ∧
      (obs.stuck = false → obs.addrAcked = true → (p.writes = [] ∨ obs.dataAcked = true) →
        c = if stretched = true then .stretchTimeout else .ok) := by
  refine ⟨fun stuck => ?_, fun high nak => ?_, fun high ack writes nak => ?_, fun high ack sent => ?_⟩
  · simp [passOutcome, stuck]
  · simp [passOutcome, high, nak]
  · simp [passOutcome, high, ack, writes, nak]
  · have taken : ¬((!p.writes.isEmpty && !obs.dataAcked) = true) := by
      rcases sent with sent | sent <;> simp [sent]
    unfold passOutcome
    rw [if_neg (by simp [high]), if_neg (by simp [ack]), if_neg taken]

/-- PASSTHROUGH_DONE of the passthrough in progress: the bus and the passthrough slot free, its work ended, and what follows. -/
theorem passthroughDone_eq {s : State} {t : Txn} {p : Passthrough} (txn : s.sbc.txn = some t) (kind : t.kind = .pass)
    (pass : s.sbc.pass = some p) (obs : PassObs) :
    passthroughDone obs s =
      let c := passOutcome p t.stretched obs
      let bytes := if c = .ok then obs.bytes.toList.take p.count else []
      afterTransaction (c = .stuck) ((s.setSbc { s.sbc with txn := none, pass := none }).finishWork .sensorPass (passResult c bytes)) := by
  simp [passthroughDone, txn, pass, kind]

/-- Settles O30: the rows of R37 (`passOutcome_rows`), the slot's end, and what follows on the bus (`busStuck_queued`). -/
theorem stretchAndPassthrough : Obligations.StretchAndPassthrough := by
  refine ⟨fun t s powered txn => ?_, ?_⟩
  · refine (completes_powered powered).trans ?_
    simp [stretchTimeout, txn]
  intro obs t p s powered running still free txn kind pass c bytes
  obtain ⟨stuck, nakAddr, nakData, read⟩ := passOutcome_rows p t.stretched obs
  refine ⟨stuck, nakAddr, nakData, read, ?_⟩
  obtain ⟨w, hw⟩ : ∃ w, w =
    (s.setSbc { s.sbc with txn := none, pass := none }).finishWork .sensorPass (passResult c bytes) := ⟨_, rfl⟩
  have event : exec (.passthroughDone obs) s = .next (afterTransaction (decide (c = .stuck)) w).pump := by
    rw [hw]
    exact (completes_powered powered).trans (by rw [passthroughDone_eq txn kind pass])
  have ended : OnlyBus s w ∧ w.sbc = { s.sbc with txn := none, pass := none } ∧ Queued [.sensorState] [] s w := by
    rw [hw]
    exact ⟨rfl, rfl, (setSbc_quiet _ s _).after (finishWork_quiet _ _ _ _)⟩
  obtain ⟨wonly, wsbc, wquiet⟩ := ended
  have slot (i : Fin 4) : w.mpt.slots[i] = s.mpt.slots[i].map (fun d => if d.kind = .sensorPass ∧ d.state = .working then
      { d with state := .done (be1 c.num ++ be1 bytes.length ++ bytes) (s.now + 5000) } else d) := by
    rw [hw]
    simp only [State.finishWork, Fin.getElem_fin, State.setMpt_mpt, Vector.getElem_map]
    rfl
  have third : w.sbc.thirdStuck w.now = s.sbc.thirdStuck s.now := by rw [wsbc, wonly.now]; rfl
  have only := wonly.trans (afterTransaction_onlyBus (decide (c = .stuck)) w)
  refine ⟨_, _, event, rfl, ?_⟩
  have outside := And.intro only.stc (And.intro only.tlu (And.intro only.wge (And.intro only.pos (And.intro only.cpm
    (And.intro only.wt only.hls)))))
  by_cases h : c = .stuck
  · have moved : afterTransaction (decide (c = .stuck)) w = busStuck w := by
      rw [decide_eq_true h, afterTransaction_stuck (by rw [wsbc]; exact still) (by rw [wsbc]; exact running)]
    have queued := wquiet.after (busStuck_queued w)
    rw [third, wsbc] at queued
    rw [moved] at outside ⊢
    have rest : (busStuck w).sbc.pass = none ∧ (busStuck w).mpt.slots = w.mpt.slots ∧
        (busStuck w).sbc.bus = if s.sbc.thirdStuck s.now = true then .down else .recovering := by
      have none : w.sbc.pass = none := by rw [wsbc]
      cases ht : s.sbc.thirdStuck s.now with
      | true =>
        rw [busStuck_third (third.trans ht), enterDown_sbc, enterDown_slots none]
        exact ⟨by simp [Sbc.inDown, none], rfl, rfl⟩
      | false =>
        rw [busStuck_recovers (third.trans ht)]
        exact ⟨none, rfl, rfl⟩
    obtain ⟨pass, slots, bus⟩ := rest
    refine ⟨pass, by simpa [h] using queued, fun i => ?_, fun other => absurd h other, fun _ => bus, outside⟩
    rw [pump_slots, slots]
    exact slot i
  · have moved : afterTransaction (decide (c = .stuck)) w = w.setSbc w.sbc.advance := by
      rw [decide_eq_false h, afterTransaction_goesOn (by rw [wsbc]; exact still) (by rw [wsbc]; exact free)]
    rw [moved] at outside ⊢
    refine ⟨?_, by simpa [h] using wquiet.before (setSbc_quiet _ w _), slot, fun _ => ?_, fun stuck => absurd stuck h, outside⟩
    · simp [wsbc]
    · simp [wsbc, running]

end Sys2Proof.Machine
end

section
/-! PROOFS. A poll's outcome applied to its entry, reported and delivered (R23 to R27, R30, R54, R60): the ground of O29, O33, O34. -/

namespace Sys2Proof.Machine

/-! ### Outcomes (R23) -/

section outcome
variable {waking stretched : Bool} {r : Role} {obs : PollObs}

theorem recordRead_some {o : PollOutcome} (h : recordRead waking stretched obs = some o) :
    o = .stuck ∨ o = .waking ∨ o = .nakAddr ∨ o = .stretchTimeout ∨ o = .badCheck := by
  unfold recordRead at h
  split at h
  · simp_all
  split at h
  · cases waking <;> simp_all
  split at h
  · simp_all
  split at h
  · simp_all
  · cases h

theorem judgePoll_of_some {o : PollOutcome} (h : recordRead waking stretched obs = some o) : judgePoll waking stretched r obs = o := by
  unfold judgePoll
  rw [h]

theorem judgePoll_of_none (h : recordRead waking stretched obs = none) :
    judgePoll waking stretched r obs = .ok ∨ judgePoll waking stretched r obs = .notReady ∨
      judgePoll waking stretched r obs = .badValue := by
  unfold judgePoll
  rw [h]
  dsimp only
  split
  · exact .inr (.inl rfl)
  · split
    · exact .inr (.inr rfl)
    · exact .inl rfl

/-- A record is judged by its contents alone exactly when it was read whole (R23, R24). -/
theorem recordRead_isNone_iff : (recordRead waking stretched obs).isNone = true ↔
    judgePoll waking stretched r obs = .ok ∨ judgePoll waking stretched r obs = .notReady ∨
      judgePoll waking stretched r obs = .badValue := by
  cases h : recordRead waking stretched obs with
  | none => simpa using judgePoll_of_none h
  | some o =>
    rw [judgePoll_of_some h]
    rcases recordRead_some h with rfl | rfl | rfl | rfl | rfl <;> simp

theorem judgePoll_ne_none : judgePoll waking stretched r obs ≠ .none_ := by
  cases h : recordRead waking stretched obs with
  | none => rcases judgePoll_of_none (r := r) h with e | e | e <;> simp [e]
  | some o =>
    rw [judgePoll_of_some h]
    rcases recordRead_some h with rfl | rfl | rfl | rfl | rfl <;> simp

theorem judgePoll_stuck_iff :
    judgePoll waking stretched r obs = .stuck ↔ obs.lowAtStart = true ∨ obs.lowAtStop = true := by
  rw [← Bool.or_eq_true]
  refine ⟨fun h => ?_, judgePoll_low⟩
  by_contra low
  cases read : recordRead waking stretched obs with
  | none => rcases judgePoll_of_none (r := r) read with e | e | e <;> simp [e] at h
  | some o =>
    rw [judgePoll_of_some read] at h
    subst h
    unfold recordRead at read
    rw [if_neg low] at read
    split at read
    · cases waking <;> cases read
    split at read
    · cases read
    split at read <;> cases read

theorem countsRestart_waking (h : judgePoll waking stretched r obs = .waking) : countsRestart waking stretched obs = false := by
  have unread : (recordRead waking stretched obs).isNone = false := by
    rw [← Bool.not_eq_true, recordRead_isNone_iff (r := r), h]
    decide
  simp [countsRestart, unread]

end outcome

/-! ### The entry after its poll (R24 to R27) -/

section polled
variable (e : Entry) (st : Bool) (obs : PollObs) (now : Nat)

theorem Entry.polled_pd : (e.polled st obs now).pd = e.pd := by
  unfold Entry.polled
  dsimp only
  split <;> rfl

theorem Entry.polled_last : (e.polled st obs now).last = judgePoll e.expectWaking st e.pd.role obs := by
  unfold Entry.polled
  dsimp only
  split <;> rfl

theorem Entry.polled_failures :
    (e.polled st obs now).failures = failuresAfter (judgePoll e.expectWaking st e.pd.role obs) e.failures := by
  unfold Entry.polled
  dsimp only
  split <;> rfl

/-- A good sample of an enabled entry is held, and the entry fresh (R27). -/
theorem Entry.polled_good (ok : judgePoll e.expectWaking st e.pd.role obs = .ok) (enabled : e.pd.enable = true) :
    (e.polled st obs now).slot =
        some { value := recordValue obs.record, mark := obs.record.status.getLsbD 1, time := now } ∧
      (e.polled st obs now).stale = false ∧ (e.polled st obs now).firstDue = false := by
  unfold Entry.polled
  dsimp only
  rw [if_pos ⟨ok, enabled⟩]
  exact ⟨rfl, rfl, rfl⟩

/-- Otherwise what is held stays (R27; notes/assumptions/16.md). -/
theorem Entry.polled_held (h : ¬(judgePoll e.expectWaking st e.pd.role obs = .ok ∧ e.pd.enable = true)) :
    (e.polled st obs now).slot = e.slot ∧ (e.polled st obs now).stale = e.stale ∧ (e.polled st obs now).firstDue = e.firstDue := by
  unfold Entry.polled
  dsimp only
  rw [if_neg h]
  exact ⟨rfl, rfl, rfl⟩

theorem failuresAfter_eq {o : PollOutcome} (waking : o ≠ .waking) (none : o ≠ .none_) (n : Nat) :
    failuresAfter o n = if o = .ok then 0 else min 3 (n + 1) := by
  cases o <;> first | rfl | contradiction

theorem Entry.polled_restarts : (e.polled st obs now).restarts =
    if countsRestart e.expectWaking st obs = true then min 255 (e.restarts + 1) else e.restarts := by
  unfold Entry.polled
  dsimp only
  split <;> rfl

theorem Entry.polled_expectWaking : (e.polled st obs now).expectWaking = false := by
  unfold Entry.polled
  dsimp only
  split <;> rfl

/-- A poll that ended otherwise than WAKING, as R24 to R27 have it. -/
theorem Entry.polled_spec (awake : judgePoll e.expectWaking st e.pd.role obs ≠ .waking) :
    e.Polled (e.polled st obs now) (judgePoll e.expectWaking st e.pd.role obs) obs.record now := by
  refine ⟨e.polled_pd st obs now, e.polled_expectWaking st obs now, e.polled_last st obs now, ?_, ?_, fun ok enabled => ?_,
    fun bad => e.polled_held st obs now (fun h => bad h.1)⟩
  · rw [e.polled_failures, failuresAfter_eq awake judgePoll_ne_none]
  · rw [e.polled_restarts]
    refine if_congr ?_ rfl rfl
    have read := recordRead_isNone_iff (waking := e.expectWaking) (stretched := st) (r := e.pd.role) (obs := obs)
    simp only [countsRestart, Bool.and_eq_true, read, recordWake, Bool.not_eq_true']
    tauto
  · exact e.polled_good st obs now ok enabled

/-- WAKING leaves the entry as it was but for its mark and its last outcome (R25, R26). -/
theorem Entry.polled_waking (waking : judgePoll e.expectWaking st e.pd.role obs = .waking) :
    e.polled st obs now = { e with expectWaking := false, last := .waking } := by
  unfold Entry.polled
  simp [waking, countsRestart_waking waking, failuresAfter]

end polled

/-! ### The outcome applied (R26, R27, R30) -/

section applied
variable (e : Entry) (st : Bool) (obs : PollObs) (s : State)

/-- The entry changed and, at a change to or from MISSING or a returning sample, reported (R26, R30). -/
def pollReported : State :=
  let e' := e.polled st obs s.now
  let s1 := s.setSbc (s.sbc.mapRole e.pd.role (fun _ => e'))
  if ((e.state = .missing) ≠ (e'.state = .missing)) ∨ e.returned e' then reportEntry e' s1 else s1

theorem pollReported_onlyBus : OnlyBus s (pollReported e st obs s) := by
  unfold pollReported
  dsimp only
  split <;> rfl

theorem pollReported_queued : Queued [.sensorState] (pollReports e (e.polled st obs s.now)) s (pollReported e st obs s) := by
  have marked := setSbc_quiet [.sensorState] s (s.sbc.mapRole e.pd.role (fun _ => e.polled st obs s.now))
  have same : ((e.state = .missing) ≠ ((e.polled st obs s.now).state = .missing)) ∨ e.returned (e.polled st obs s.now) = true ↔
      ¬((3 ≤ e.failures ↔ 3 ≤ (e.polled st obs s.now).failures) ∧
        ¬(e.stale = true ∧ (e.polled st obs s.now).stale = false)) := by
    simp only [ne_eq, eq_iff_iff, Entry.state_missing_iff, Entry.returned, Bool.and_eq_true, Bool.not_eq_true']
    tauto
  unfold pollReported pollReports
  dsimp only
  by_cases h : (3 ≤ e.failures ↔ 3 ≤ (e.polled st obs s.now).failures) ∧
      ¬(e.stale = true ∧ (e.polled st obs s.now).stale = false)
  · rw [if_pos h, if_neg (fun k => same.1 k h)]
    exact marked
  · rw [if_neg h, if_pos (same.2 h)]
    exact marked.after (reportEntry_queued _ _)

/-- Nothing is delivered unless an enabled entry was OK (R27; notes/assumptions/16.md). -/
theorem applyPoll_undelivered (h : ¬(judgePoll e.expectWaking st e.pd.role obs = .ok ∧ e.pd.enable = true)) :
    applyPoll e st obs s = pollReported e st obs s := by
  unfold applyPoll
  dsimp only
  rw [e.polled_last]
  split
  · next ok enabled _ => exact absurd ⟨ok, enabled⟩ h
  · rfl

/-- A good sample of an enabled entry goes to the consumer of its role, which starts afresh at a first or returning one. -/
theorem applyPoll_delivers (ok : judgePoll e.expectWaking st e.pd.role obs = .ok) (enabled : e.pd.enable = true) :
    ∃ (returning afresh : Bool) (x : Sample), applyPoll e st obs s = deliverSample e.pd.role returning x
      (if afresh = true then startAfresh e.pd.role (pollReported e st obs s) else pollReported e st obs s) := by
  obtain ⟨slot, -, -⟩ := e.polled_good st obs s.now ok enabled
  refine ⟨e.returned (e.polled st obs s.now), e.startsAfresh (e.polled st obs s.now),
    { value := recordValue obs.record, mark := obs.record.status.getLsbD 1, time := s.now }, ?_⟩
  unfold applyPoll
  dsimp only
  rw [e.polled_last, ok, enabled, slot]
  rfl

theorem applyPoll_queued : Queued [.sensorState] (pollReports e (e.polled st obs s.now)) s (applyPoll e st obs s) := by
  by_cases h : judgePoll e.expectWaking st e.pd.role obs = .ok ∧ e.pd.enable = true
  · obtain ⟨returning, afresh, x, delivers⟩ := applyPoll_delivers e st obs s h.1 h.2
    rw [delivers]
    refine Queued.before ?_ (deliverSample_quiet sensorState_avoidsDelivery _ _ _ _)
    split
    · exact (pollReported_queued e st obs s).before (startAfresh_quiet _ _ _)
    · exact pollReported_queued e st obs s
  · rw [applyPoll_undelivered e st obs s h]
    exact pollReported_queued e st obs s

theorem applyPoll_stc : (applyPoll e st obs s).stc = s.stc ∧ (applyPoll e st obs s).now = s.now := by
  have reported := pollReported_onlyBus e st obs s
  by_cases h : judgePoll e.expectWaking st e.pd.role obs = .ok ∧ e.pd.enable = true
  · obtain ⟨returning, afresh, x, delivers⟩ := applyPoll_delivers e st obs s h.1 h.2
    have afreshed : Delivered (pollReported e st obs s)
        (if afresh = true then startAfresh e.pd.role (pollReported e st obs s) else pollReported e st obs s) :=
      rel_ite (startAfresh_delivered _ _) (.refl _)
    have delivered := afreshed.trans (deliverSample_delivered e.pd.role returning x _)
    rw [← delivers] at delivered
    exact ⟨delivered.stc.trans reported.stc, delivered.now.trans reported.now⟩
  · rw [applyPoll_undelivered e st obs s h]
    exact ⟨reported.stc, reported.now⟩

end applied

/-! ### Deliveries and the tally -/

theorem tareStep_tlu (cfg : Settings) (prev : Option Int) (c : Int) (x : Mass) (s : State) :
    (tareStep cfg prev c x s).tlu = s.tlu := by
  unfold tareStep
  split
  · split <;> rfl
  · rfl

theorem calStep_tlu (cfg : Settings) (pose : Pose) (prev : Option Int) (c : Int) (x : Mass) (s : State) :
    (calStep cfg pose prev c x s).tlu = s.tlu := by
  unfold calStep
  split
  · split <;> rfl
  · rfl

theorem linkWork_tlu (c : Int) (o : Bool) (s : State) : (linkWork c o s).tlu = s.tlu := by
  have dropped (before : LiftState) (u : State) : (dropEndsCal before u).tlu = u.tlu := by
    unfold dropEndsCal
    split
    · exact endCal_tlu _ _
    · rfl
  unfold linkWork workSample
  dsimp only
  rw [State.setWge_tlu, calStep_tlu, tareStep_tlu, dropped, State.setWge_tlu]

/-- Only a GRIP sample, which may release a load, reaches the tally (R61, R79). -/
theorem deliverSample_tlu {r : Role} (h : r ≠ .grip) (returning : Bool) (x : Sample) (s : State) :
    (deliverSample r returning x s).tlu = s.tlu := by
  have pose (r : Role) : (poseArrival r returning x s).tlu = s.tlu := by
    obtain ⟨p, handed⟩ := poseArrival_handedOn r returning x s
    exact handed.tlu
  cases r
  case grip => exact absurd rfl h
  case link => exact (linkArrival_handedOn _ _ _).tlu.trans (linkWork_tlu _ _ _)
  all_goals exact pose _

theorem startAfresh_tlu (r : Role) (s : State) : (startAfresh r s).tlu = s.tlu := by cases r <;> rfl

theorem applyPoll_tlu (e : Entry) (st : Bool) (obs : PollObs) (s : State) (h : e.pd.role ≠ .grip) :
    (applyPoll e st obs s).tlu = s.tlu := by
  have reported := (pollReported_onlyBus e st obs s).tlu
  by_cases good : judgePoll e.expectWaking st e.pd.role obs = .ok ∧ e.pd.enable = true
  · obtain ⟨returning, afresh, x, delivers⟩ := applyPoll_delivers e st obs s good.1 good.2
    rw [delivers, deliverSample_tlu h]
    split
    · rw [startAfresh_tlu, reported]
    · exact reported
  · rw [applyPoll_undelivered e st obs s good, reported]

/-! ### A first or returning sample (R54, R60, R95) -/

theorem calSample_az (w : Wge) (k : CalWork) (steady : Bool) (c : Int) :
    (w.calSample k steady c).1.az = w.az ∨ (w.calSample k steady c).1.az = .empty := by
  unfold Wge.calSample
  split
  · split
    · dsimp only
      split
      · exact .inr rfl
      · exact .inl rfl
    · exact .inl rfl
  · exact .inl rfl

theorem calStep_az (cfg : Settings) (pose : Pose) (prev : Option Int) (c : Int) (x : Mass) (s : State) :
    (calStep cfg pose prev c x s).wge.az = s.wge.az ∨ (calStep cfg pose prev c x s).wge.az = .empty := by
  unfold calStep
  split
  · next k _ =>
    have az := calSample_az s.wge k (windowSteady cfg pose prev x) c
    split
    all_goals
      next h =>
      rw [h] at az
      exact az
  · exact .inl rfl

/-- A LINK sample that finds no previous mass never enters auto-zero's window (R60, R95). -/
theorem linkWork_az {s : State} (prev : s.wge.prev = none) (on : s.cfg.sw.autoZero = true) (lift : s.wge.lift = none)
    (tare : s.wge.tare = none) (c : Int) (o : Bool) : (linkWork c o s).wge.az.count = 0 := by
  have steps (x : Mass) : (s.wge.steps123 s.cfg s.pos.pose c x).az = .empty ∧
      (s.wge.steps123 s.cfg s.pos.pose c x).tare = none := by
    simp [Wge.steps123, Wge.azRuns, Wge.takeLive, Wge.azSample, zeroSteady, diffSteady, prev, on, lift, tare]
  have dropped (before : LiftState) (u : State) :
      (dropEndsCal before u).wge.az = u.wge.az ∧ (dropEndsCal before u).wge.tare = u.wge.tare := by
    unfold dropEndsCal
    split
    · rw [endCal_wge]
      exact ⟨rfl, rfl⟩
    · exact ⟨rfl, rfl⟩
  unfold linkWork workSample
  dsimp only
  rw [State.setWge_wge]
  dsimp only
  obtain ⟨u, hu⟩ : ∃ u, u = dropEndsCal s.wge.liftState
    (s.setWge (s.wge.steps123 s.cfg s.pos.pose c (massOf s.wge.z s.wge.span c o))) := ⟨_, rfl⟩
  have before : u.wge.az = .empty ∧ u.wge.tare = none := by
    rw [hu, (dropped _ _).1, (dropped _ _).2]
    exact steps _
  rw [← hu, show tareStep _ _ _ _ u = u by simp [tareStep, before.2]]
  rcases calStep_az s.cfg s.pos.pose s.wge.prev c (massOf s.wge.z s.wge.span c o) u with h | h
  · rw [h, before.1]
    rfl
  · rw [h]
    rfl

/-- A sample that comes while its entry is stale, or first since the bus left STOPPED, starts SLEW's or MAIN's rate from 0, and one of
LINK stays out of auto-zero's window (R54, R58, R60, R95; notes/assumptions/35.md). -/
theorem SampleDelivered.restarts {e : Entry} {x : Sample} {list : List Entry} {s u : State} (h : SampleDelivered e x list s u)
    (first : e.stale = true ∨ e.firstDue = true) :
    (e.pd.role = .slew → u.pos.slewMem = some { value := x.value, time := x.time, rate := 0 }) ∧
      (e.pd.role = .main → u.pos.mainMem = some { value := x.value, time := x.time, rate := 0 }) ∧
      (e.pd.role = .link → s.cfg.sw.autoZero = true → s.wge.lift = none → s.wge.tare = none → u.wge.az.count = 0) := by
  obtain ⟨w, hw, -, ⟨wge, pos⟩, link, -, pose⟩ := h
  have afresh : (e.stale || e.firstDue) = true := by simpa using first
  have arrived (role : e.pd.role = .slew ∨ e.pd.role = .main) :
      ∃ q, u.pos = { w.pos.takeSample e.pd.role e.stale x with pose := q } := by
    obtain ⟨q, hq⟩ := poseArrival_pos e.pd.role e.stale x w
    refine ⟨q, ?_⟩
    rw [pose (by rcases role with r | r <;> simp [r]) (by rcases role with r | r <;> simp [r])]
    exact hq
  refine ⟨fun role => ?_, fun role => ?_, fun role on lift tare => ?_⟩
  · obtain ⟨q, hq⟩ := arrived (.inl role)
    have none : w.pos.slewMem = none := by rw [pos]; simp [role, afresh]
    rw [hq, role]
    exact congrArg some (takeRate_started (.inr none) _ _ _)
  · obtain ⟨q, hq⟩ := arrived (.inr role)
    have none : w.pos.mainMem = none := by rw [pos]; simp [role, afresh]
    rw [hq, role]
    exact congrArg some (takeRate_started (.inr none) _ _ _)
  · have prev : w.wge.prev = none := by rw [wge]; simp [role, afresh]
    have cfg : w.cfg = s.cfg := by rw [hw]; rfl
    rw [link role]
    show (linkArrival x.value x.mark w).wge.az.count = 0
    rw [(linkArrival_handedOn _ _ _).az]
    exact linkWork_az prev (by rw [cfg]; exact on) (by rw [wge]; exact lift) (by rw [wge]; exact tare) _ _

end Sys2Proof.Machine
end

section
/-! PROOFS. Polls and passthroughs that end with a BUS_RESTART waiting, the recovery timers, and an attempt's poll (R27, R30 to R34):
O33 and O34. -/

namespace Sys2Proof.Machine

/-! ### The entry polled, and the list after its poll -/

theorem Sbc.entryOf_role {b : Sbc} {r : Role} {e : Entry} (h : b.entryOf r = some e) : e.pd.role = r := by
  simpa using List.find?_some h

/-- The entries after a poll of `e` (R24 to R27). -/
def State.polledList (s : State) (e : Entry) (st : Bool) (obs : PollObs) : List Entry :=
  s.sbc.entries.map (fun y => if y.pd.role = e.pd.role then e.polled st obs s.now else y)

/-- A poll's outcome has been applied, the transaction off the bus, and nothing has followed on the bus yet. -/
structure PollTaken (e : Entry) (st : Bool) (obs : PollObs) (s w : State) : Prop where
  sbc : w.sbc = { s.sbc with txn := none, entries := s.polledList e st obs }
  now : w.now = s.now
  stc : w.stc = s.stc
  tlu : e.pd.role ≠ .grip → w.tlu = s.tlu
  queued : Queued [.sensorState] (pollReports e (e.polled st obs s.now)) s w
  undelivered : ¬(judgePoll e.expectWaking st e.pd.role obs = .ok ∧ e.pd.enable = true) → OnlyBus s w
  delivered : judgePoll e.expectWaking st e.pd.role obs = .ok → e.pd.enable = true →
    ∀ b : Sbc, SampleDelivered e { value := recordValue obs.record, mark := obs.record.status.getLsbD 1, time := s.now }
      (s.polledList e st obs) s (w.setSbc b).pump

theorem applyPoll_taken (e : Entry) (st : Bool) (obs : PollObs) (s : State) :
    PollTaken e st obs s (applyPoll e st obs (s.setSbc s.sbc.clearTxn)) := by
  obtain ⟨c, hc⟩ : ∃ c, c = s.setSbc s.sbc.clearTxn := ⟨_, rfl⟩
  have now : c.now = s.now := by rw [hc]; rfl
  have quiet : Queued [.sensorState] [] s c := by rw [hc]; exact setSbc_quiet _ s _
  have only : OnlyBus s c := by rw [hc]; rfl
  obtain ⟨stc, later⟩ := applyPoll_stc e st obs c
  constructor
  · rw [(applyPoll_bus e st obs _).sbc, State.setSbc_sbc, State.setSbc_now]
    rfl
  · rw [← hc, later, now]
  · rw [← hc, stc, only.stc]
  · rw [← hc]
    exact fun role => (applyPoll_tlu e st obs c role).trans only.tlu
  · have queued := quiet.after (applyPoll_queued e st obs c)
    rw [now] at queued
    rw [← hc]
    exact queued
  · intro h
    rw [← hc, applyPoll_undelivered e st obs c h]
    exact only.trans (pollReported_onlyBus e st obs c)
  · exact fun ok enabled b => applyPoll_delivered e st obs s b ok enabled

/-- With what the bus does next, the outcome applied is what R24 to R27, R30 and R32 state. -/
theorem PollTaken.applied {e : Entry} {st : Bool} {obs : PollObs} {s w v : State} (h : PollTaken e st obs s w)
    (awake : judgePoll e.expectWaking st e.pd.role obs ≠ .waking) {down : Bool} {list : List Entry}
    (entries : list = if down = true then (s.polledList e st obs).map (fun y => { y with failures := 3 }) else s.polledList e st obs)
    (moved : Queued [.sensorState] (if down = true then downReports (s.polledList e st obs) else []) w v) :
    PollApplied e (judgePoll e.expectWaking st e.pd.role obs) obs.record down s v list :=
  ⟨e.polled st obs s.now, e.polled_spec st obs s.now awake, entries, h.queued.trans moved⟩

/-! ### The completion of a poll (R17, R23, R25) -/

section done
variable {s : State} {t : Txn} {r : Role} {a : Nat} {e : Entry} {obs : PollObs}

theorem polledEntry_live (live : t.discarded = false) (entry : s.sbc.entryOf r = some e) : s.sbc.polledEntry t r = some e := by
  simp [Sbc.polledEntry, live, entry]

theorem polledEntry_gone (gone : t.discarded = true) : s.sbc.polledEntry t r = none := by
  simp [Sbc.polledEntry, gone]

variable (txn : s.sbc.txn = some t)
include txn

section kept
variable (live : t.discarded = false) (entry : s.sbc.entryOf r = some e)
include live entry

/-- WAKING: the entry's mark and outcome, and the same transaction again (R25). -/
theorem pollTransactionDone_waking (kind : t.kind = .poll r a ∨ t.kind = .attempt r a)
    (waking : judgePoll e.expectWaking t.stretched r obs = .waking) :
    pollTransactionDone obs s =
      applyPoll e t.stretched obs (s.setSbc { s.sbc with txn := some { t with stretched := false } }) := by
  unfold pollTransactionDone pollDone
  rcases kind with kind | kind <;>
    simp only [txn, kind, polledEntry_live live entry, waking, if_true]

theorem pollTransactionDone_poll (kind : t.kind = .poll r a) (awake : judgePoll e.expectWaking t.stretched r obs ≠ .waking) :
    pollTransactionDone obs s = afterTransaction (decide (judgePoll e.expectWaking t.stretched r obs = .stuck))
      (applyPoll e t.stretched obs (s.setSbc s.sbc.clearTxn)) := by
  unfold pollTransactionDone pollDone
  simp only [txn, kind, polledEntry_live live entry, if_neg awake]

theorem pollTransactionDone_attempt (kind : t.kind = .attempt r a)
    (awake : judgePoll e.expectWaking t.stretched r obs ≠ .waking) :
    pollTransactionDone obs s = afterAttempt (decide (judgePoll e.expectWaking t.stretched r obs = .ok))
      (applyPoll e t.stretched obs (s.setSbc s.sbc.clearTxn)) := by
  unfold pollTransactionDone pollDone
  simp only [txn, kind, polledEntry_live live entry, if_neg awake, Bool.true_and]

end kept

section gone
variable (gone : t.discarded = true)
include gone

theorem pollTransactionDone_discarded (kind : t.kind = .poll r a) :
    pollTransactionDone obs s =
      afterTransaction (decide (judgePoll false t.stretched r obs = .stuck)) (s.setSbc s.sbc.clearTxn) := by
  unfold pollTransactionDone pollDone
  simp only [txn, kind, polledEntry_gone gone]

theorem pollTransactionDone_attempt_discarded (kind : t.kind = .attempt r a) :
    pollTransactionDone obs s = afterAttempt false (s.setSbc s.sbc.clearTxn) := by
  unfold pollTransactionDone pollDone
  simp only [txn, kind, polledEntry_gone gone, Bool.false_and]

end gone

end done

theorem afterAttempt_fails {s : State} (still : s.sbc.stopping = false) : afterAttempt false s = s := by
  simp [afterAttempt, still]

theorem afterAttempt_succeeds {s : State} (still : s.sbc.stopping = false) (down : s.sbc.bus = .down) :
    afterAttempt true s = s.setSbc { s.sbc.backToRunning with stuckTimes := [] } := by
  simp [afterAttempt, still, down]

end Sys2Proof.Machine
end

section
/-! PROOFS. The recovery timers and an attempt's poll (R27, R30 to R33): O33. -/

namespace Sys2Proof.Machine

/-! ### Timers (R31 to R33) -/

theorem Sbc.inDown_missing {b : Sbc} {now : Nat} : ∀ x ∈ (b.inDown now).entries, x.failures = 3 := by
  simp only [Sbc.inDown, List.mem_map]
  rintro _ ⟨e, -, rfl⟩
  rfl

theorem recoveryWaitEnd_rows {s : State} {d : Nat} (powered : s.powered = true) (come : d ≤ s.now)
    (waits : s.sbc.phase = .wait d) (recovering : s.sbc.bus = .recovering) :
    exec (.recoveryWaitEnd true) s = .next (s.setSbc s.sbc.backToRunning).pump ∧
      exec (.recoveryWaitEnd false) s = .next (busStuck s).pump := by
  refine ⟨(completes_powered powered).trans ?_, (completes_powered powered).trans ?_⟩
  all_goals simp [recoveryWaitEnd, waits, come, recovering]

theorem attemptWaitEnd_rows {s : State} {d : Nat} (powered : s.powered = true) (come : d ≤ s.now)
    (waits : s.sbc.phase = .wait d) (down : s.sbc.bus = .down) :
    exec (.attemptWaitEnd false) s = .next (s.setSbc { s.sbc with phase := .idle }).pump ∧
      (∀ e, s.sbc.entries.find? (fun x => x.pd.enable) = some e →
        exec (.attemptWaitEnd true) s = .next (s.setSbc { s.sbc with
          phase := .idle
          txn := some { kind := .attempt e.pd.role e.pd.addr, stretched := false, discarded := false } }).pump) ∧
      ((∀ x ∈ s.sbc.entries, x.pd.enable = false) →
        exec (.attemptWaitEnd true) s = .next (s.setSbc { s.sbc with
          bus := .running, phase := .idle, attemptTimer := none, stuckTimes := [] }).pump) := by
  refine ⟨(completes_powered powered).trans ?_, fun e first => (completes_powered powered).trans ?_,
    fun off => (completes_powered powered).trans ?_⟩
  · simp [attemptWaitEnd, waits, come, down]
  · simp [attemptWaitEnd, waits, come, down, first]
  · have none : s.sbc.entries.find? (fun x => x.pd.enable) = none := by
      rw [List.find?_eq_none]
      simpa using off
    simp [attemptWaitEnd, waits, come, down, none, Sbc.backToRunning]

/-! ### An attempt's poll (R33) -/

section attempt
variable {obs : PollObs} {t : Txn} {r : Role} {a : Nat} {e : Entry} {s : State} (down : s.sbc.bus = .down)
  (still : s.sbc.stopping = false) (txn : s.sbc.txn = some t) (kind : t.kind = .attempt r a) (live : t.discarded = false)
  (entry : s.sbc.entryOf r = some e)
include down still txn kind live entry

/-- The outcome applied and, when it is OK, the bus in RUNNING with no time kept. -/
theorem attemptPoll_ends (awake : judgePoll e.expectWaking t.stretched r obs ≠ .waking) :
    ∃ w, PollTaken e t.stretched obs s w ∧ pollTransactionDone obs s =
      if judgePoll e.expectWaking t.stretched r obs = .ok then w.setSbc { w.sbc.backToRunning with stuckTimes := [] } else w := by
  refine ⟨_, applyPoll_taken e t.stretched obs s, ?_⟩
  rw [pollTransactionDone_attempt txn live entry kind awake]
  have taken := applyPoll_taken e t.stretched obs s
  have wstill : (applyPoll e t.stretched obs (s.setSbc s.sbc.clearTxn)).sbc.stopping = false := by rw [taken.sbc]; exact still
  have wdown : (applyPoll e t.stretched obs (s.setSbc s.sbc.clearTxn)).sbc.bus = .down := by rw [taken.sbc]; exact down
  split
  · next ok => rw [decide_eq_true ok, afterAttempt_succeeds wstill wdown]
  · next bad => rw [decide_eq_false bad, afterAttempt_fails wstill]

end attempt

/-- Settles O33: the timers' rows, and an attempt's poll by its outcome (`attemptPoll_ends`). -/
theorem recoveryTimers : Obligations.RecoveryTimers := by
  refine ⟨?timers, ?polls⟩
  case timers =>
    intro d s powered come b
    refine ⟨fun pulse => ?_, fun waits recovering => ?_, fun due down idle free => ?_,
      fun waits down => attemptWaitEnd_rows powered come waits down⟩
    · refine (completes_powered powered).trans ?_
      simp only [busFreePulseEnd, show s.sbc.phase = .pulse d from pulse, if_pos come]
      rfl
    · obtain ⟨high, low⟩ := recoveryWaitEnd_rows powered come waits recovering
      refine ⟨high, fun few => ?_, fun third => ?_⟩
      · rw [low, busStuck_recovers few, Sbc.enterRecovering, ← recovering]
        rfl
      · have queued := enterDown_queued s
        refine ⟨_, enterDown s, by rw [low, busStuck_third third], rfl, queued, ?_⟩
        rw [pump_sbc, enterDown_sbc]
        exact ⟨rfl, rfl, rfl, rfl, Sbc.inDown_missing⟩
    · refine (completes_powered powered).trans ?_
      have off : s.sbc.attempting = false := by simp [Sbc.attempting, show s.sbc.phase = .idle from idle, show s.sbc.txn = none from free]
      simp only [recoveryAttempt, show s.sbc.attemptTimer = some d from due]
      rw [if_pos ⟨come, down⟩, if_neg (by simp [off])]
      rfl
  case polls =>
    intro obs t r a s powered down still txn kind
    refine ⟨fun gone => (completes_powered powered).trans ?_, ?_⟩
    · have off : (s.setSbc s.sbc.clearTxn).sbc.stopping = false := still
      rw [pollTransactionDone_attempt_discarded txn gone kind, afterAttempt_fails off]
      rfl
    intro e live entry o
    refine ⟨_, completes_powered powered, ?_⟩
    have role := Sbc.entryOf_role entry
    by_cases waking : o = .waking
    · rw [pollTransactionDone_waking txn live entry (.inr kind) waking]
      obtain ⟨sbc, stc⟩ := And.intro (applyPoll_bus e t.stretched obs (s.setSbc { s.sbc with
        txn := some { t with stretched := false } })).sbc (applyPoll_stc e t.stretched obs (s.setSbc { s.sbc with
        txn := some { t with stretched := false } })).1
      refine ⟨stc, fun _ => ?_, fun h => absurd waking h, fun h => ?_, fun h => ?_, fun _ h => absurd waking h⟩
      · rw [pump_sbc, sbc]
        exact ⟨down, rfl, rfl⟩
      · rw [waking] at h; cases h
      · rw [waking] at h; cases h
    · obtain ⟨w, taken, moved⟩ := attemptPoll_ends (obs := obs) down still txn kind live entry waking
      rw [moved]
      subst role
      by_cases ok : o = .ok
      · rw [if_pos ok]
        have entries : w.sbc.entries = s.polledList e t.stretched obs := by rw [taken.sbc]
        refine ⟨taken.stc, fun h => absurd h waking, fun _ => ⟨?_, _, rfl, taken.applied waking ?_ ?_⟩, fun _ enabled => ?_,
          fun _ => ⟨rfl, rfl, rfl, rfl⟩, fun h => absurd ok h⟩
        · show w.sbc.txn = none
          rw [taken.sbc]
        · exact entries
        · exact setSbc_quiet _ w _
        · have delivered := taken.delivered ok enabled { w.sbc.backToRunning with stuckTimes := [] }
          rw [← entries] at delivered
          exact delivered
      · rw [if_neg ok]
        have entries : w.sbc.entries = s.polledList e t.stretched obs := by rw [taken.sbc]
        refine ⟨taken.stc, fun h => absurd h waking, fun _ => ⟨?_, _, rfl, taken.applied waking entries (.refl _ w)⟩,
          fun h => absurd h ok, fun h => absurd h ok, fun _ _ => ?_⟩
        · rw [pump_sbc, taken.sbc]
        · rw [pump_sbc, taken.sbc]
          exact ⟨down, rfl, rfl⟩

end Sys2Proof.Machine
end

section
/-! PROOFS. BUS_RESTART by the bus state, and the end of one that waits (R27, R31, R32, R34): O34. -/

namespace Sys2Proof.Machine

/-! ### The request (R34) -/

section request
variable {s : State} (h : Admitted .service .busRestart [] s)
include h

/-- What BUS_RESTART answers and does, as its owner gives it. -/
theorem busRestart_answered {c : Code} {b : Sbc}
    (serves : serveBusRestart .service [] (s.heard .service) = ({ code := c, body := [] }, (s.heard .service).setSbc b)) :
    exec (.busRestart .service []) s = .next (((s.heard .service).setSbc b).answered .service 0x07#8 c []) := by
  refine (exec_admitted (r := .busRestart) h).trans ?_
  rw [show serve .busRestart = serveBusRestart from rfl, serves]
  rfl

theorem busRestart_rows :
    let after (c : Code) (b' : Sbc) := exec (.busRestart .service []) s =
      .next (((s.heard .service).setSbc b').answered .service 0x07#8 c [])
    (s.sbc.bus = .running → s.sbc.txn = none → after .ok (s.sbc.enterRecovering s.now)) ∧
    (s.sbc.bus = .running → s.sbc.txn.isSome = true →
      after .ok { s.sbc with restartPending := true, due := [], roundActive := false }) ∧
    (s.sbc.bus = .recovering → after .busy s.sbc) ∧
    (s.sbc.bus = .down → s.sbc.attempting = false → after .ok (s.sbc.beginAttempt s.now)) ∧
    (s.sbc.bus = .down → s.sbc.attempting = true → after .busy s.sbc) := by
  refine ⟨fun bus free => ?_, fun bus busy => ?_, fun bus => ?_, fun bus idle => ?_, fun bus attempting => ?_⟩
  all_goals
    refine busRestart_answered h ?_
    unfold serveBusRestart
    rw [heard_sbc, bus]
    dsimp only
  · rw [free]
    rfl
  · rw [if_pos busy]
    rfl
  · rfl
  · rw [idle]
    rfl
  · rw [if_pos attempting]
    rfl

end request

/-! ### The end of one that waits (R34; notes/assumptions/18.md) -/

/-- The bus after a transaction that a BUS_RESTART has waited for: the restart spent, the bus in RECOVERING with its pulse, or in DOWN
when the transaction was STUCK for the third time. -/
structure Restarted (b : Sbc) (now : Nat) (stuck : Prop) (c : Sbc) : Prop where
  txn : c.txn = none
  spent : c.restartPending = false
  due : c.due = []
  round : c.roundActive = false
  recovers : ¬(stuck ∧ b.thirdStuck now = true) → c.bus = .recovering ∧ c.busFreeLow = true ∧ c.phase = .pulse (now + 1)
  goesDown : stuck ∧ b.thirdStuck now = true → c.bus = .down

theorem afterTransaction_restarted {w : State} {b : Sbc} {now : Nat} (hnow : w.now = now) (third : w.sbc.stuckTimes = b.stuckTimes)
    (still : w.sbc.stopping = false) (running : w.sbc.bus = .running) (pending : w.sbc.restartPending = true)
    (free : w.sbc.txn = none) (stuck : Prop) [Decidable stuck] :
    Restarted b now stuck (afterTransaction (decide stuck) w).sbc := by
  subst hnow
  have third : w.sbc.thirdStuck w.now = b.thirdStuck w.now := by unfold Sbc.thirdStuck; rw [third]
  by_cases h : stuck
  · rw [decide_eq_true h, afterTransaction_stuck still running]
    cases ht : b.thirdStuck w.now with
    | true =>
      rw [busStuck_third (third.trans ht), enterDown_sbc]
      exact ⟨free, rfl, rfl, rfl, fun few => absurd ⟨h, ht⟩ few, fun _ => rfl⟩
    | false =>
      rw [busStuck_recovers (third.trans ht)]
      exact ⟨free, rfl, rfl, rfl, fun _ => ⟨rfl, rfl, rfl⟩, fun down => by rw [ht] at down; cases down.2⟩
  · rw [decide_eq_false h, afterTransaction_restarts still pending]
    exact ⟨free, rfl, rfl, rfl, fun _ => ⟨rfl, rfl, rfl⟩, fun down => absurd down.1 h⟩

/-- Settles O34: the request's rows, and a waiting restart at the end of a poll or of a passthrough (`afterTransaction_restarted`). -/
theorem busRestartRows : Obligations.BusRestartRows := by
  refine ⟨fun s h => ?request, fun t s powered running still pending txn => ?ended⟩
  case request =>
    intro b after
    obtain ⟨free, busy, recovering, begins, attempts⟩ := busRestart_rows h
    refine ⟨free, busy, recovering, fun down idle none => ?_, fun down works => attempts down ?_⟩
    · exact begins down (by simp [Sbc.attempting, show s.sbc.phase = .idle from idle, show s.sbc.txn = Option.none from none])
    · have works : s.sbc.phase ≠ .idle ∨ s.sbc.txn.isSome = true := works
      simpa [Sbc.attempting] using works
  case ended =>
    intro ends
    refine ⟨fun obs r a e kind live entry => ?poll, fun obs x kind pass => ?pass⟩
    case poll =>
      intro o
      have role := Sbc.entryOf_role entry
      subst role
      have taken := applyPoll_taken e t.stretched obs s
      obtain ⟨w, hw⟩ : ∃ w, w = applyPoll e t.stretched obs (s.setSbc s.sbc.clearTxn) := ⟨_, rfl⟩
      rw [← hw] at taken
      have done (awake : o ≠ .waking) :
          exec (.pollTransactionDone obs) s = .next (afterTransaction (decide (o = .stuck)) w).pump := by
        rw [hw]
        exact (completes_powered powered).trans (by rw [pollTransactionDone_poll txn live entry kind awake])
      have wstill : w.sbc.stopping = false := by rw [taken.sbc]; exact still
      have wpending : w.sbc.restartPending = true := by rw [taken.sbc]; exact pending
      refine ⟨fun awake => ⟨_, done awake, ?_⟩, fun ok enabled => ⟨_, done (by rw [ok]; decide), ?_⟩⟩
      · have moved := afterTransaction_restarted (b := s.sbc) taken.now (by rw [taken.sbc]) wstill (by rw [taken.sbc]; exact running)
          wpending (by rw [taken.sbc]) (o = .stuck)
        exact ⟨(afterTransaction_onlyBus _ w).stc.trans taken.stc, moved.txn, moved.spent, moved.due, moved.round, moved.recovers,
          moved.goesDown⟩
      · have high : o ≠ .stuck := by rw [ok]; decide
        rw [decide_eq_false high, afterTransaction_restarts wstill wpending]
        have entries : w.sbc.entries = s.polledList e t.stretched obs := by rw [taken.sbc]
        have delivered := taken.delivered ok enabled (w.sbc.enterRecovering w.now)
        rw [← entries] at delivered
        exact delivered
    case pass =>
      refine ⟨_, (completes_powered powered).trans (by rw [passthroughDone_eq txn kind pass]), ?_⟩
      have moved := afterTransaction_restarted (b := s.sbc) (now := s.now) (w := (s.setSbc { s.sbc with txn := none, pass := none }).finishWork
        .sensorPass (passResult (passOutcome x t.stretched obs)
          (if passOutcome x t.stretched obs = .ok then obs.bytes.toList.take x.count else []))) rfl rfl still running pending rfl
        (passOutcome x t.stretched obs = .stuck)
      exact ⟨(afterTransaction_onlyBus _ _).stc, moved.txn, moved.spent, moved.due, moved.round, moved.recovers, moved.goesDown⟩

end Sys2Proof.Machine
end

section
/-! PROOFS. A round's poll completes: RUNNING, its entry gone, or on a stopping bus (R17, R19, R20, R23 to R27, R30 to R32, R35): O29. -/

namespace Sys2Proof.Machine

/-! ### The list after a poll -/

/-- A poll leaves every role's address as it was. -/
theorem addrOf_polledList {s : State} {e : Entry} (entry : s.sbc.entryOf e.pd.role = some e) (st : Bool) (obs : PollObs) {b : Sbc}
    (entries : b.entries = s.polledList e st obs) (r : Role) : b.addrOf r = s.sbc.addrOf r := by
  have same : ((fun x : Entry => x.pd.role == r) ∘
      fun y => if y.pd.role = e.pd.role then e.polled st obs s.now else y) = fun x => x.pd.role == r := by
    funext y
    dsimp only [Function.comp]
    split
    · next h => rw [Entry.polled_pd, h]
    · rfl
  have found : b.entryOf r = (s.sbc.entryOf r).map (fun y => if y.pd.role = e.pd.role then e.polled st obs s.now else y) := by
    unfold Sbc.entryOf
    rw [entries, State.polledList, List.find?_map, same]
  unfold Sbc.addrOf
  rw [found]
  cases hy : s.sbc.entryOf r with
  | none => rfl
  | some y =>
    simp only [Option.map_some, Option.getD_some]
    split
    · next role =>
      rw [← Sbc.entryOf_role hy, role, entry] at hy
      rw [Entry.polled_pd, Option.some.inj hy]
    · rfl

theorem map_down_eq (l : List Entry) : l.map Entry.down = l.map (fun y => { y with failures := 3 }) := rfl

/-! ### A round's poll in RUNNING -/

section running
variable {obs : PollObs} {e : Entry} {st : Bool} {s w : State} (taken : PollTaken e st obs s w)
include taken

theorem PollTaken.entries : w.sbc.entries = s.polledList e st obs := by rw [taken.sbc]

theorem PollTaken.third : w.sbc.thirdStuck w.now = s.sbc.thirdStuck s.now := by
  rw [taken.sbc, taken.now]
  rfl

variable (still : s.sbc.stopping = false)
include still

theorem poll_goesOn (free : s.sbc.restartPending = false) : afterTransaction false w = w.setSbc w.sbc.advance :=
  afterTransaction_goesOn (by rw [taken.sbc]; exact still) (by rw [taken.sbc]; exact free)

variable (running : s.sbc.bus = .running)
include running

theorem poll_stuck : afterTransaction true w = busStuck w :=
  afterTransaction_stuck (by rw [taken.sbc]; exact still) (by rw [taken.sbc]; exact running)

/-- The entries and the reports of a bus that a STUCK poll moves (R30 to R32). -/
theorem stuckPoll_reports : (afterTransaction true w).sbc.entries =
      (if s.sbc.thirdStuck s.now = true then (s.polledList e st obs).map (fun y => { y with failures := 3 })
        else s.polledList e st obs) ∧
      Queued [.sensorState] (if s.sbc.thirdStuck s.now = true then downReports (s.polledList e st obs) else []) w
        (afterTransaction true w) := by
  have queued := busStuck_queued w
  rw [taken.third, taken.entries] at queued
  rw [poll_stuck taken still running]
  refine ⟨?_, queued⟩
  cases ht : s.sbc.thirdStuck s.now with
  | true =>
    rw [busStuck_third (taken.third.trans ht), enterDown_sbc]
    show w.sbc.entries.map Entry.down = _
    rw [taken.entries, map_down_eq]
    rfl
  | false =>
    rw [busStuck_recovers (taken.third.trans ht)]
    exact taken.entries

/-- The first or second STUCK outcome: RECOVERING with its pulse, the time kept (R31, R32). -/
theorem stuckPoll_recovers (few : s.sbc.thirdStuck s.now = false) :
    let b := (afterTransaction true w).sbc
    b.bus = .recovering ∧ b.busFreeLow = true ∧ b.phase = .pulse (s.now + 1) ∧ b.due = [] ∧ b.txn = none ∧
      b.stuckTimes = lastN 2 (s.sbc.stuckTimes ++ [s.now]) := by
  rw [poll_stuck taken still running, busStuck_recovers (taken.third.trans few), taken.sbc, taken.now]
  exact ⟨rfl, rfl, rfl, rfl, rfl, rfl⟩

/-- The third: DOWN with every entry MISSING (R32). -/
theorem stuckPoll_down (third : s.sbc.thirdStuck s.now = true) :
    let b := (afterTransaction true w).sbc
    b.bus = .down ∧ b.attemptTimer = some (s.now + 1000) ∧ b.stuckTimes = [] ∧ b.due = [] ∧ b.txn = none ∧
      ∀ x ∈ b.entries, x.failures = 3 := by
  rw [poll_stuck taken still running, busStuck_third (taken.third.trans third), enterDown_sbc, taken.now]
  exact ⟨rfl, rfl, rfl, rfl, congrArg Sbc.txn taken.sbc, Sbc.inDown_missing⟩

omit still in
/-- After any other outcome the round goes on, or ends and puts a waiting passthrough on the bus (R19, R37). -/
theorem poll_advances (entry : s.sbc.entryOf e.pd.role = some e) :
    w.sbc.advance.bus = .running ∧
      (s.sbc.roundActive = true → s.sbc.due = [] → w.sbc.advance.roundActive = false ∧
        w.sbc.advance.txn =
          if s.sbc.pass.isSome = true then some { kind := .pass, stretched := false, discarded := false } else none) ∧
      (∀ r' rest, s.sbc.roundActive = true → s.sbc.due = r' :: rest → w.sbc.advance.due = rest ∧
        w.sbc.advance.txn = some { kind := .poll r' (s.sbc.addrOf r'), stretched := false, discarded := false }) := by
  have address := addrOf_polledList entry st obs taken.entries
  have on : w.sbc.bus = .running ∧ w.sbc.roundActive = s.sbc.roundActive ∧ w.sbc.due = s.sbc.due ∧ w.sbc.txn = none ∧
      w.sbc.pass = s.sbc.pass := by
    rw [taken.sbc]
    exact ⟨running, rfl, rfl, rfl, rfl⟩
  obtain ⟨wrunning, wround, wdue, wtxn, wpass⟩ := on
  refine ⟨(Sbc.advance_bus _).trans wrunning, fun active none => ?_, fun r' rest active due => ?_⟩
  · rw [Sbc.advance_ends wrunning (wround.trans active) wtxn (wdue.trans none), wpass]
    exact ⟨rfl, rfl⟩
  · rw [Sbc.advance_polls wrunning (wround.trans active) wtxn (wdue.trans due), address]
    exact ⟨rfl, rfl⟩

end running

/-- A poll of a round in RUNNING that ended otherwise than WAKING: what was applied, and what follows on the bus. -/
theorem runningPoll_applied {obs : PollObs} {t : Txn} {e : Entry} {s w : State} (taken : PollTaken e t.stretched obs s w)
    (running : s.sbc.bus = .running) (still : s.sbc.stopping = false) (free : s.sbc.restartPending = false) :
    let o := judgePoll e.expectWaking t.stretched e.pd.role obs
    let v := afterTransaction (decide (o = .stuck)) w
    o ≠ .waking → PollApplied e o obs.record (decide (o = .stuck) && s.sbc.thirdStuck s.now) s v v.sbc.entries := by
  intro o v awake
  by_cases stuck : o = .stuck
  · obtain ⟨entries, queued⟩ := stuckPoll_reports taken still running
    rw [show v = afterTransaction true w by unfold v; rw [decide_eq_true stuck], decide_eq_true stuck, Bool.true_and]
    exact taken.applied awake entries queued
  · rw [show v = w.setSbc w.sbc.advance by unfold v; rw [decide_eq_false stuck, poll_goesOn taken still free],
      decide_eq_false stuck, Bool.false_and]
    exact taken.applied awake ((Sbc.advance_entries _).trans taken.entries) (setSbc_quiet _ w _)

/-- A good sample of a round's poll is delivered before the round goes on (R27). -/
theorem runningPoll_delivered {obs : PollObs} {t : Txn} {e : Entry} {s w : State} (taken : PollTaken e t.stretched obs s w)
    (still : s.sbc.stopping = false) (free : s.sbc.restartPending = false)
    (ok : judgePoll e.expectWaking t.stretched e.pd.role obs = .ok) (enabled : e.pd.enable = true) :
    let v := afterTransaction (decide (judgePoll e.expectWaking t.stretched e.pd.role obs = .stuck)) w
    SampleDelivered e { value := recordValue obs.record, mark := obs.record.status.getLsbD 1, time := s.now }
      v.pump.sbc.entries s v.pump := by
  have delivered := taken.delivered ok enabled w.sbc.advance
  rw [← taken.entries, ← Sbc.advance_entries w.sbc] at delivered
  intro v
  have goes : v = w.setSbc w.sbc.advance := by
    unfold v
    rw [ok, decide_eq_false (by decide), poll_goesOn taken still free]
  rw [goes]
  exact delivered

/-! ### A poll that ends on a stopping bus (R35) -/

/-- The end of a stop with no wake meanwhile. -/
theorem Sbc.finishStop_stays {b : Sbc} (none : b.startPending = false) (now : Nat) :
    b.finishStop now = { b with busFreeLow := true, stuckTimes := [], stopping := false } := by
  unfold Sbc.finishStop
  dsimp only
  rw [none]
  rfl

/-- The end of a stop that a wake has waited for: round 0 at once (notes/assumptions/12.md). -/
theorem Sbc.finishStop_runs {b : Sbc} (wake : b.startPending = true) (now : Nat) :
    b.finishStop now = ({ b with busFreeLow := true, stuckTimes := [], stopping := false } : Sbc).run now := by
  unfold Sbc.finishStop
  dsimp only
  rw [wake]
  rfl

/-- The outcome applied, every entry MISSING at a third STUCK one, and then the end of the stop. -/
theorem stoppingPoll_ends {obs : PollObs} {e : Entry} {st : Bool} {s w : State} (taken : PollTaken e st obs s w)
    (stopping : s.sbc.stopping = true) (stuck : Bool) :
    let down := stuck && s.sbc.thirdStuck s.now
    let list := if down = true then (s.polledList e st obs).map (fun y => { y with failures := 3 }) else s.polledList e st obs
    ∃ x : State, OnlyBus w x ∧ x.sbc = { s.sbc with txn := none, entries := list } ∧
      Queued [.sensorState] (if down = true then downReports (s.polledList e st obs) else []) w x ∧
      afterTransaction stuck w = x.setSbc (x.sbc.finishStop s.now) ∧ (stuck = false → x = w) := by
  intro down list
  have third := taken.third
  have ends : afterTransaction stuck w =
      let x := if stuck = true ∧ w.sbc.thirdStuck w.now = true then allMissing w else w
      x.setSbc (x.sbc.finishStop x.now) := if_pos (by rw [taken.sbc]; exact stopping)
  by_cases h : stuck = true ∧ w.sbc.thirdStuck w.now = true
  · have isDown : down = true := by
      unfold down
      rw [← third, h.1, h.2]
      rfl
    refine ⟨allMissing w, allMissing_onlyBus w, ?_, ?_, ?_, fun high => by rw [high] at h; cases h.1⟩
    · unfold list
      rw [if_pos isDown, allMissing_sbc, taken.sbc, map_down_eq]
    · rw [if_pos isDown, ← taken.entries]
      exact allMissing_queued w
    · rw [ends, if_pos h]
      dsimp only
      rw [(allMissing_onlyBus w).now, taken.now]
  · have isUp : ¬down = true := by
      unfold down
      rw [← third, Bool.and_eq_true]
      exact h
    refine ⟨w, .refl w, ?_, ?_, ?_, fun _ => rfl⟩
    · unfold list
      rw [if_neg isUp, taken.sbc]
    · rw [if_neg isUp]
      exact .refl _ w
    · rw [ends, if_neg h]
      dsimp only
      rw [taken.now]

/-- Settles O29: in RUNNING by the outcome (`poll_advances`, `stuckPoll_recovers`, `stuckPoll_down`, `runningPoll_applied`,
`runningPoll_delivered`), with the entry gone, and on a stopping bus (`stoppingPoll_ends`). -/
theorem pollTransactionEnds : Obligations.PollTransactionEnds := by
  refine ⟨?running, ?discarded, ?stopped⟩
  case running =>
    intro obs t r a e s powered running still free txn kind live entry o
    have role := Sbc.entryOf_role entry
    subst role
    refine ⟨_, completes_powered powered, ?_⟩
    by_cases waking : o = .waking
    · obtain ⟨c, hc⟩ : ∃ c, c = s.setSbc { s.sbc with txn := some { t with stretched := false } } := ⟨_, rfl⟩
      have unlike : o ≠ .ok ∧ o ≠ .stuck := by
        rw [waking]
        decide
      have again : pollTransactionDone obs s = pollReported e t.stretched obs c := by
        rw [hc, pollTransactionDone_waking txn live entry (.inl kind) waking, applyPoll_undelivered]
        exact fun good => unlike.1 good.1
      have only : OnlyBus s (pollReported e t.stretched obs c) := by
        have first : OnlyBus s c := by rw [hc]; rfl
        exact first.trans (pollReported_onlyBus e t.stretched obs c)
      have sbc : (pollReported e t.stretched obs c).sbc = c.sbc.mapRole e.pd.role (fun _ => e.polled t.stretched obs c.now) := by
        unfold pollReported
        dsimp only
        split <;> rfl
      rw [again]
      refine ⟨fun _ => only.tlu, only.stc, fun h => absurd waking h, fun _ h => absurd waking h, fun ok => absurd ok unlike.1,
        fun ok => absurd ok unlike.1, fun _ => ⟨only.wge, only.pos, only.tlu, only.cpm, only.wt, only.hls⟩, fun _ => ?_,
        fun stuck => absurd stuck unlike.2, fun stuck => absurd stuck unlike.2⟩
      rw [pump_sbc, sbc, hc, Entry.polled_waking e t.stretched obs _ waking]
      exact ⟨running, rfl, rfl⟩
    · have taken := applyPoll_taken e t.stretched obs s
      rw [pollTransactionDone_poll txn live entry kind waking]
      obtain ⟨w, hw⟩ : ∃ w, w = applyPoll e t.stretched obs (s.setSbc s.sbc.clearTxn) := ⟨_, rfl⟩
      rw [← hw] at taken ⊢
      have only := afterTransaction_onlyBus (decide (o = .stuck)) w
      have applied := runningPoll_applied taken running still free waking
      have delivered := runningPoll_delivered taken still free
      have goes (high : o ≠ .stuck) : afterTransaction (decide (o = .stuck)) w = w.setSbc w.sbc.advance := by
        rw [decide_eq_false high, poll_goesOn taken still free]
      have moves (stuck : o = .stuck) : afterTransaction (decide (o = .stuck)) w = afterTransaction true w := by
        rw [decide_eq_true stuck]
      obtain ⟨v, hv⟩ : ∃ v, v = afterTransaction (decide (o = .stuck)) w := ⟨_, rfl⟩
      rw [← hv] at only goes moves ⊢
      rw [show afterTransaction (decide (judgePoll e.expectWaking t.stretched e.pd.role obs = .stuck)) w = v from hv.symm]
        at applied delivered
      refine ⟨fun r => only.tlu.trans (taken.tlu r), only.stc.trans taken.stc, fun _ => ⟨v, rfl, applied⟩, fun high _ => ?goes,
        ?restarts, delivered, fun undelivered => ?held,
        fun h => absurd h waking, fun stuck few => ?recovers, fun stuck third => ?down⟩
      case restarts =>
        intro ok enabled first mem
        obtain ⟨slew, main, link⟩ := (delivered ok enabled).restarts first
        exact ⟨fun role => by rw [slew role], fun role => by rw [main role], link⟩
      case goes =>
        rw [goes high]
        exact poll_advances taken running entry
      case held =>
        have nothing : ¬(o = .ok ∧ e.pd.enable = true) := by
          rintro ⟨ok, enabled⟩
          rcases undelivered with h | h
          · exact h ok
          · rw [enabled] at h; cases h
        have same := (taken.undelivered nothing).trans only
        exact ⟨same.wge, same.pos, same.tlu, same.cpm, same.wt, same.hls⟩
      case recovers =>
        rw [moves stuck]
        exact stuckPoll_recovers taken still running few
      case down =>
        rw [moves stuck]
        exact stuckPoll_down taken still running third
  case discarded =>
    intro obs t r a s powered running still free txn kind gone low
    refine ⟨_, completes_powered powered, ?_⟩
    rw [pollTransactionDone_discarded txn gone kind]
    obtain ⟨w, hw⟩ : ∃ w, w = s.setSbc s.sbc.clearTxn := ⟨_, rfl⟩
    rw [← hw]
    have sbc : w.sbc = { s.sbc with txn := none } := by rw [hw]; rfl
    have now : w.now = s.now := by rw [hw]; rfl
    have only : OnlyBus s w := by rw [hw]; rfl
    have third : w.sbc.thirdStuck w.now = s.sbc.thirdStuck s.now := by rw [sbc, now]; rfl
    have wstill : w.sbc.stopping = false := by rw [sbc]; exact still
    have isStuck : judgePoll false t.stretched r obs = .stuck ↔ low := judgePoll_stuck_iff
    have moves (h : low) : afterTransaction (decide (judgePoll false t.stretched r obs = .stuck)) w = busStuck w := by
      rw [decide_eq_true (isStuck.2 h), afterTransaction_stuck wstill (by rw [sbc]; exact running)]
    have goes (h : ¬low) : afterTransaction (decide (judgePoll false t.stretched r obs = .stuck)) w = w.setSbc w.sbc.advance := by
      rw [decide_eq_false (mt isStuck.1 h), afterTransaction_goesOn wstill (by rw [sbc]; exact free)]
    have all := only.trans (afterTransaction_onlyBus (decide (judgePoll false t.stretched r obs = .stuck)) w)
    refine ⟨all.pos, all.wge, all.tlu, all.cpm, all.stc, fun high => ?goes, fun h few => ?recovers, fun h out => ?down⟩
    case goes =>
      rw [goes high, pump_sbc, State.setSbc_sbc, Sbc.advance_bus, Sbc.advance_entries, Sbc.advance_stuckTimes]
      refine ⟨by rw [sbc]; exact running, by rw [sbc], by rw [sbc], fun r' rest active due => ?_⟩
      rw [Sbc.advance_polls (by rw [sbc]; exact running) (by rw [sbc]; exact active) (by rw [sbc]) (by rw [sbc]; exact due), sbc]
      rfl
    case recovers =>
      rw [moves h, busStuck_recovers (third.trans few), sbc]
      exact ⟨rfl, rfl⟩
    case down =>
      rw [moves h, busStuck_third (third.trans out), pump_sbc, enterDown_sbc]
      rfl
  case stopped =>
    intro obs t r a e s powered stopped stopping txn kind live entry o
    have role := Sbc.entryOf_role entry
    subst role
    refine ⟨_, completes_powered powered, ?_⟩
    by_cases waking : o = .waking
    · rw [pollTransactionDone_waking txn live entry (.inl kind) waking]
      obtain ⟨c, hc⟩ : ∃ c, c = s.setSbc { s.sbc with txn := some { t with stretched := false } } := ⟨_, rfl⟩
      rw [← hc]
      refine ⟨?_, fun _ => ?_, fun h => absurd waking h, fun h => absurd waking h, fun h => absurd waking h⟩
      · rw [pump_stc, (applyPoll_stc e t.stretched obs c).1, hc]
        rfl
      · rw [pump_sbc, (applyPoll_bus e t.stretched obs c).sbc, hc]
        exact ⟨stopped, stopping, rfl⟩
    · have taken := applyPoll_taken e t.stretched obs s
      rw [pollTransactionDone_poll txn live entry kind waking]
      obtain ⟨w, hw⟩ : ∃ w, w = applyPoll e t.stretched obs (s.setSbc s.sbc.clearTxn) := ⟨_, rfl⟩
      rw [← hw] at taken ⊢
      obtain ⟨x, only, sbc, queued, moved, quietly⟩ := stoppingPoll_ends taken stopping (decide (o = .stuck))
      rw [show afterTransaction (decide (judgePoll e.expectWaking t.stretched e.pd.role obs = .stuck)) w = _ from moved]
      have xpending : x.sbc.startPending = s.sbc.startPending := by rw [sbc]
      refine ⟨only.stc.trans taken.stc, fun h => absurd h waking, fun _ none => ?stays,
        fun _ => ⟨_, x.sbc.entries, rfl, ?applied, ?delivered, ?entries⟩,
        fun _ wake => ?runs⟩
      case stays =>
        rw [pump_sbc, State.setSbc_sbc, Sbc.finishStop_stays (xpending.trans none), sbc]
        exact ⟨stopped, rfl, rfl, rfl, rfl⟩
      case applied => exact taken.applied waking (by rw [sbc]) (queued.before (setSbc_quiet _ x _))
      case delivered =>
        intro ok enabled
        have high : decide (o = .stuck) = false := decide_eq_false (by rw [ok]; decide)
        rw [quietly high, taken.entries]
        exact taken.delivered ok enabled _
      case entries =>
        rw [pump_sbc, State.setSbc_sbc]
        split
        · next wake =>
          rw [Sbc.finishStop_runs (xpending.trans wake)]
          exact (Sbc.run_fields _ _).2.2.2.2.1
        · next none => rw [Sbc.finishStop_stays (xpending.trans (by simpa using none))]
      case runs =>
        rw [pump_sbc, State.setSbc_sbc, Sbc.finishStop_runs (xpending.trans wake)]
        obtain ⟨bus, low, no, timer, -, still, spent, times⟩ :=
          Sbc.run_fields { x.sbc with busFreeLow := true, stuckTimes := [], stopping := false } s.now
        exact ⟨bus, still, spent, low, times, no, timer⟩

end Sys2Proof.Machine
end

section
/-! PROOFS. POLL_WRITE: the list taken, and the events of the roles lost (R17, R30, R56). -/

namespace Sys2Proof.Machine

/-! ### The list taken (R16, R17) -/

theorem clampPeriod_self_iff (d : PollDef) : clampPeriod d = d ↔ periodTooLong d = false := by
  have period : clampPeriod d = d ↔ min d.period (maxPeriod d.role) = d.period :=
    ⟨fun h => congrArg PollDef.period h, fun h => by rw [clampPeriod, h]⟩
  rw [period, periodTooLong, decide_eq_false_iff_not]
  omega

/-- The list is taken as sent exactly when no period is too long. -/
theorem clamped_eq_iff (l : List PollDef) : l.map clampPeriod = l ↔ l.any periodTooLong = false := by
  induction l with
  | nil => simp
  | cons d l ih => rw [List.map_cons, List.cons.injEq, List.any_cons, Bool.or_eq_false_iff, clampPeriod_self_iff, ih]

theorem carryEntry_pd (old : List Entry) (d : PollDef) : (carryEntry old d).pd = d := by
  unfold carryEntry
  split
  · split <;> rfl
  · rfl

/-- Some entry of the new list has a role and an address exactly when the list taken names them. -/
theorem any_carryEntry (old : List Entry) (taken : List PollDef) (p : PollDef → Bool) :
    (taken.map (carryEntry old)).any (fun e => p e.pd) = taken.any p := by
  simp only [List.any_map, Function.comp_def, carryEntry_pd]

/-! ### What becomes of one old entry (R17, R30) -/

/-- The reports of the replacement for one entry that was listed. -/
def replaceItems (new : List Entry) (e : Entry) : List (Report × List Byte) :=
  let gone := { e with slot := none, stale := true }
  let lost := e.slot.isSome = true ∧ e.stale = false
  match new.find? (fun x => x.pd.role == e.pd.role) with
  | none => [(.sensorState, sensorStateBody gone true)]
  | some x =>
    if x.pd.enable = false then [(.sensorState, sensorStateBody (if x.pd.addr = e.pd.addr then x else gone) true)]
    else if x.pd.addr ≠ e.pd.addr ∧ lost then [(.sensorState, sensorStateBody x false)] else []

theorem Entry.fresh?_iff (e : Entry) : e.fresh? = true ↔ e.slot.isSome = true ∧ e.stale = false := by
  simp [Entry.fresh?]

section cases
variable {new : List Entry} {e x : Entry} (s : State)

/-- The role is absent from the new list. -/
theorem replaceEvent_absent (gone : new.find? (fun x => x.pd.role == e.pd.role) = none) :
    let item := sensorStateBody { e with slot := none, stale := true } true
    let u := s.queueReport .sensorState item
    replaceItems new e = [(.sensorState, item)] ∧
      replaceEvent new e s = if e.fresh? = true then deliverStale e.pd.role u else u := by
  unfold replaceItems replaceEvent
  rw [gone]
  exact ⟨rfl, rfl⟩

variable (found : new.find? (fun x => x.pd.role == e.pd.role) = some x)
include found

theorem found_role : x.pd.role = e.pd.role := by simpa using List.find?_some found

theorem found_same : sameEntry e.pd x.pd = true ↔ x.pd.addr = e.pd.addr := by
  have addr : e.pd.addr = x.pd.addr ↔ x.pd.addr = e.pd.addr := eq_comm
  simp [sameEntry, found_role found, addr]

/-- Its entry is disabled. -/
theorem replaceEvent_disabled (off : x.pd.enable = false) :
    let item := sensorStateBody (if x.pd.addr = e.pd.addr then x else { e with slot := none, stale := true }) true
    let u := s.queueReport .sensorState item
    replaceItems new e = [(.sensorState, item)] ∧
      replaceEvent new e s = if e.fresh? = true then deliverStale e.pd.role u else u := by
  have pick (a b : Entry) : (if sameEntry e.pd x.pd = true then a else b) = if x.pd.addr = e.pd.addr then a else b :=
    if_congr (found_same found) rfl rfl
  unfold replaceItems replaceEvent
  rw [found]
  dsimp only
  rw [if_pos off, off, pick]
  exact ⟨rfl, rfl⟩

/-- Its entry is the one it was. -/
theorem replaceEvent_same (on : x.pd.enable = true) (addr : x.pd.addr = e.pd.addr) :
    replaceItems new e = [] ∧ replaceEvent new e s = s := by
  unfold replaceItems replaceEvent
  rw [found]
  dsimp only
  rw [on]
  exact ⟨(if_neg Bool.noConfusion).trans (if_neg fun h => h.1 addr),
    (if_neg Bool.noConfusion).trans (if_pos ((found_same found).2 addr))⟩

/-- Another entry takes its place. -/
theorem replaceEvent_other (on : x.pd.enable = true) (addr : x.pd.addr ≠ e.pd.addr) :
    replaceItems new e = (if e.fresh? = true then [(.sensorState, sensorStateBody x false)] else []) ∧
      replaceEvent new e s = if e.fresh? = true then deliverStale e.pd.role (reportEntry x s) else s := by
  unfold replaceItems replaceEvent
  rw [found]
  dsimp only
  rw [on]
  exact ⟨(if_neg Bool.noConfusion).trans (if_congr ((and_iff_right addr).trans e.fresh?_iff.symm) rfl rfl),
    (if_neg Bool.noConfusion).trans (if_neg (mt (found_same found).1 addr))⟩

end cases

/-- The replacement reports, and then delivers a stale event or nothing; the event is delivered when the entry's fresh value is lost. -/
theorem replaceEvent_cases (new : List Entry) (e : Entry) (s : State) :
    ∃ u, OnlyBus s u ∧ u.sbc = s.sbc ∧ Queued [.sensorState] (replaceItems new e) s u ∧
      (replaceEvent new e s = deliverStale e.pd.role u ∨ replaceEvent new e s = u) ∧
      (e.fresh? = true → (∀ x ∈ new, x.pd.role = e.pd.role → x.pd.addr = e.pd.addr → x.pd.enable = false) →
        replaceEvent new e s = deliverStale e.pd.role u) := by
  have report (body : List Byte) : Queued [.sensorState] [(.sensorState, body)] s (s.queueReport .sensorState body) :=
    queueReport_queued [.sensorState] .sensorState body s
  have ite_cases (u : State) : (if e.fresh? = true then deliverStale e.pd.role u else u) = deliverStale e.pd.role u ∨
      (if e.fresh? = true then deliverStale e.pd.role u else u) = u := ite_eq_or_eq _ _ _
  cases found : new.find? (fun x => x.pd.role == e.pd.role) with
  | none =>
    obtain ⟨items, event⟩ := replaceEvent_absent s found
    rw [items, event]
    exact ⟨s.queueReport .sensorState _, rfl, rfl, report _, ite_cases _, fun fresh _ => if_pos fresh⟩
  | some x =>
    cases enabled : x.pd.enable with
    | false =>
      obtain ⟨items, event⟩ := replaceEvent_disabled s found enabled
      rw [items, event]
      exact ⟨s.queueReport .sensorState _, rfl, rfl, report _, ite_cases _, fun fresh _ => if_pos fresh⟩
    | true =>
      by_cases addr : x.pd.addr = e.pd.addr
      · obtain ⟨items, event⟩ := replaceEvent_same s found enabled addr
        rw [items, event]
        refine ⟨s, rfl, rfl, .refl _ s, .inr rfl, fun _ lost => ?_⟩
        have off := lost x (List.mem_of_find?_eq_some found) (found_role found) addr
        rw [enabled] at off
        cases off
      · obtain ⟨items, event⟩ := replaceEvent_other s found enabled addr
        rw [items, event]
        by_cases fresh : e.fresh? = true
        · rw [if_pos fresh, if_pos fresh]
          have queued := reportEntry_queued x s
          rw [enabled] at queued
          exact ⟨reportEntry x s, rfl, rfl, queued, .inl rfl, fun _ _ => rfl⟩
        · rw [if_neg fresh, if_neg fresh]
          exact ⟨s, rfl, rfl, .refl _ s, .inr rfl, fun h => absurd h fresh⟩

/-! ### The replacement of the whole list (R17, R56) -/

/-- The list installed, before the events of the roles lost. -/
def listInstalled (new : List Entry) (s : State) : State :=
  s.setSbc { s.sbc with entries := new, due := [], txn := s.sbc.txn.map (fun t => t.survive new) }

/-- The events of the roles lost, in an open order. -/
def replaceAll (old new : List Entry) : State → State := runAny ((old.filter (·.pd.enable)).map (replaceEvent new))

theorem takePollWrite_eq (list : List PollDef) (s : State) :
    takePollWrite list s = recompute (replaceAll s.sbc.entries (list.map (carryEntry s.sbc.entries))
      (listInstalled (list.map (carryEntry s.sbc.entries)) s)) := rfl

section all
variable (old new : List Entry)

theorem replaceAll_queued (s : State) : ∃ items, items.Perm ((old.filter (·.pd.enable)).flatMap (replaceItems new)) ∧
    Queued [.sensorState] items s (replaceAll old new s) := by
  obtain ⟨items, perm, queued⟩ := runAny_queued (kinds := [.sensorState])
    ((old.filter (·.pd.enable)).map (fun e => (replaceEvent new e, replaceItems new e))) (fun f hf u => by
      obtain ⟨e, -, rfl⟩ := List.mem_map.1 hf
      obtain ⟨w, -, -, reported, delivers, -⟩ := replaceEvent_cases new e u
      change Queued [.sensorState] (replaceItems new e) u (replaceEvent new e u)
      rcases delivers with h | h
      · exact h ▸ reported.before (deliverStale_sensorQuiet e.pd.role w)
      · exact h ▸ reported) s
  refine ⟨items, by simpa [List.flatMap_map] using perm, ?_⟩
  simpa [replaceAll, Function.comp_def] using queued

/-- What reports leave alone and every stale event keeps, the replacement keeps. -/
theorem replaceAll_rel {R : State → State → Prop} (refl : ∀ s, R s s) (trans : ∀ s t u, R s t → R t u → R s u)
    (sched : ∀ s l, R s (s.setSched l)) (reports : ∀ s u, OnlyBus s u → u.sbc = s.sbc → R s u)
    (stale : ∀ r s, R s (deliverStale r s)) (s : State) : R s (replaceAll old new s) :=
  runAny_rel R refl trans sched (fun f hf u => by
    obtain ⟨e, -, rfl⟩ := List.mem_map.1 hf
    obtain ⟨w, only, sbc, -, delivers, -⟩ := replaceEvent_cases new e u
    rcases delivers with h | h
    · exact h ▸ trans _ _ _ (reports u w only sbc) (stale e.pd.role w)
    · exact h ▸ reports u w only sbc) s

/-- What the stale event of a role brings about, no report disturbs and every stale event keeps, holds once that role is lost. -/
theorem replaceAll_brings {P : State → Prop} {r : Role} (sched : ∀ s l, P s → P (s.setSched l))
    (reports : ∀ s u, OnlyBus s u → P s → P u) (stale : ∀ r s, P s → P (deliverStale r s)) (brings : ∀ s, P (deliverStale r s))
    (lost : ∃ e ∈ old, e.pd.role = r ∧ e.pd.enable = true ∧ e.slot.isSome = true ∧ e.stale = false ∧
      ∀ x ∈ new, x.pd.role = e.pd.role → x.pd.addr = e.pd.addr → x.pd.enable = false) (s : State) :
    P (replaceAll old new s) := by
  obtain ⟨e, mem, rfl, listed, held, fresh, lost⟩ := lost
  refine runAny_brings P sched (fun f hf u hu => ?_) ⟨replaceEvent new e, ?_, fun u => ?_⟩ s
  · obtain ⟨e', -, rfl⟩ := List.mem_map.1 hf
    obtain ⟨w, only, -, -, delivers, -⟩ := replaceEvent_cases new e' u
    rcases delivers with h | h
    · exact h ▸ stale e'.pd.role w (reports u w only hu)
    · exact h ▸ reports u w only hu
  · exact List.mem_map_of_mem (List.mem_filter.2 ⟨mem, listed⟩)
  · obtain ⟨w, -, -, -, -, delivers⟩ := replaceEvent_cases new e u
    rw [delivers (e.fresh?_iff.2 ⟨held, fresh⟩) lost]
    exact brings w

end all

/-! ### What each stale event leaves of another (R54, R60, R77) -/

/-- LINK's stale event has been taken. -/
def LinkLost (s : State) : Prop := s.wge.live = [] ∧ s.wge.prev = none ∧ s.wge.tare = none ∧ s.wge.cal = none

theorem HandedOn.linkLost {s t : State} (h : HandedOn s t) (lost : LinkLost s) : LinkLost t := by
  obtain ⟨live, prev, tare, cal⟩ := lost
  exact ⟨h.live.trans live, h.prev.trans prev, h.tare.trans tare, h.cal.trans cal⟩

theorem linkStale_lost (s : State) : LinkLost (linkStale s) := by
  obtain ⟨live, prev, tare, cal, -⟩ := linkStale_leaves s
  exact ⟨live, prev, tare, cal⟩

theorem deliverStale_linkLost (r : Role) {s : State} (lost : LinkLost s) : LinkLost (deliverStale r s) := by
  have pose (r : Role) : LinkLost (poseStale r s) := by
    obtain ⟨p, handed⟩ := poseStale_handedOn r s
    exact handed.linkLost lost
  cases r
  case link => exact linkStale_lost s
  case grip => exact lost
  all_goals exact pose _

/-- A reading of POS that the stale event of a role marks: its freshness and, of SLEW and MAIN, the rate memory. -/
def Pos.marked (p : Pos) (r : Role) : Prop :=
  match r with
  | .slew => p.fresh.slew = false ∧ p.slewMem = none
  | .main => p.fresh.main = false ∧ p.mainMem = none
  | .outer => p.fresh.outer = false
  | .tele => p.fresh.tele = false
  | .tilt => p.fresh.tilt = false
  | .link | .grip => True

theorem Pos.takeStale_marked (p : Pos) (r : Role) : (p.takeStale r).marked r := by
  cases r <;> simp [Pos.takeStale, Pos.marked, Freshness.set]

theorem Pos.takeStale_keeps {p : Pos} {r : Role} (h : p.marked r) (other : Role) : (p.takeStale other).marked r := by
  cases r <;> cases other <;> simp_all [Pos.takeStale, Pos.marked, Freshness.set]

theorem Pos.marked_pose {p : Pos} {r : Role} (h : p.marked r) (q : Pose) : ({ p with pose := q } : Pos).marked r := by
  cases r <;> exact h

theorem deliverStale_marked (r : Role) (s : State) : (deliverStale r s).pos.marked r := by
  have pose (r : Role) : (poseStale r s).pos.marked r := by
    obtain ⟨q, hq⟩ := poseStale_pos r s
    rw [hq]
    exact Pos.marked_pose (Pos.takeStale_marked _ r) q
  cases r
  case link => trivial
  case grip => trivial
  all_goals exact pose _

theorem deliverStale_keepsMark {r : Role} {s : State} (h : s.pos.marked r) (other : Role) : (deliverStale other s).pos.marked r := by
  have pose (other : Role) : (poseStale other s).pos.marked r := by
    obtain ⟨q, hq⟩ := poseStale_pos other s
    rw [hq]
    exact Pos.marked_pose (Pos.takeStale_keeps h other) q
  cases other
  case link => exact (linkStale_leaves s).2.2.2.2.2.1 ▸ h
  case grip => exact h
  all_goals exact pose _

theorem recompute_keepsMark {r : Role} {s : State} (h : s.pos.marked r) : (recompute s).pos.marked r := by
  rw [recompute_pos]
  exact Pos.marked_pose h _

end Sys2Proof.Machine
end

section
/-! PROOFS. POLL_WRITE (R16, R17, R30, R56, R203): O35. -/

namespace Sys2Proof.Machine

/-! ### The answer (R16, R203) -/

theorem servePollWrite_refuses (p : Port) {body : List Byte} {s : State} {c : Code}
    (judged : eitherRefusal (if s.committing = true then some .busy else none) (pollRefusal (pollDefsOf body)) s = (some c, s)) :
    servePollWrite p body s = (.refuse c, s) := by
  unfold servePollWrite
  dsimp only
  rw [judged]

theorem servePollWrite_takes (p : Port) {body : List Byte} {l : List PollDef} {s : State} (read : pollDefsOf body = some l)
    (idle : s.committing = false) (clash : pollClash l = false) :
    servePollWrite p body s = ({ code := if l.map clampPeriod = l then .ok else .clamped
                                 body := be1 (l.map clampPeriod).length ++ ((l.map clampPeriod).map pollBytes).flatten },
      takePollWrite (l.map clampPeriod) s) := by
  have code : (if l.any periodTooLong = true then Code.clamped else .ok) = if l.map clampPeriod = l then .ok else .clamped := by
    cases long : l.any periodTooLong with
    | false => rw [if_pos ((clamped_eq_iff l).2 long)]; rfl
    | true => rw [if_neg fun h => Bool.noConfusion (long.symm.trans ((clamped_eq_iff l).1 h))]; rfl
  have judged : eitherRefusal (if s.committing = true then some .busy else none) (pollRefusal (pollDefsOf body)) s = (none, s) := by
    rw [read, idle, pollRefusal, clash]
    rfl
  unfold servePollWrite
  dsimp only
  rw [judged, read, ← code]
  rfl

/-! ### The transaction in progress (R17) -/

theorem Txn.survive_polled {x : Txn} {r : Role} {a : Nat} (kind : x.kind = .poll r a ∨ x.kind = .attempt r a) (old : List Entry)
    (taken : List PollDef) :
    x.survive (taken.map (carryEntry old)) =
      { x with discarded := x.discarded || !taken.any (fun d => d.role == r && d.addr == a) } := by
  rw [← any_carryEntry old taken]
  rcases kind with kind | kind <;> (unfold Txn.survive; rw [kind])

theorem Txn.survive_pass {x : Txn} (kind : x.kind = .pass) (new : List Entry) : x.survive new = x := by
  unfold Txn.survive
  rw [kind]

/-! ### What the events of the roles lost leave alone -/

/-- The bus, the stored settings, the tally, zero, span and the lift's state stay. -/
def BesideStale (s t : State) : Prop :=
  t.sbc = s.sbc ∧ t.stc = s.stc ∧ t.tlu = s.tlu ∧ t.wge.z = s.wge.z ∧ t.wge.span = s.wge.span ∧ t.wge.liftState = s.wge.liftState

theorem BesideStale.refl (s : State) : BesideStale s s := ⟨rfl, rfl, rfl, rfl, rfl, rfl⟩

theorem BesideStale.trans {s t u : State} (h : BesideStale s t) (k : BesideStale t u) : BesideStale s u := by
  obtain ⟨sbc, stc, tlu, z, span, lift⟩ := h
  obtain ⟨sbc', stc', tlu', z', span', lift'⟩ := k
  exact ⟨sbc'.trans sbc, stc'.trans stc, tlu'.trans tlu, z'.trans z, span'.trans span, lift'.trans lift⟩

theorem HandedOn.besideStale {s t : State} (h : HandedOn s t) : BesideStale s t :=
  ⟨h.sbc, h.stc, h.tlu, h.z, h.span, h.liftState⟩

theorem recompute_besideStale (s : State) : BesideStale s (recompute s) := (recompute_handedOn s).besideStale

theorem replaceAll_besideStale (old new : List Entry) (s : State) : BesideStale s (replaceAll old new s) :=
  replaceAll_rel old new BesideStale.refl (fun _ _ _ => .trans) (fun s _ => .refl s)
    (fun _ _ only sbc => ⟨sbc, only.stc, only.tlu, congrArg _ only.wge, congrArg _ only.wge, congrArg _ only.wge⟩)
    (fun r s => ⟨(deliverStale_delivered r s).sbc, (deliverStale_delivered r s).stc, deliverStale_keeps r s⟩) s

/-! ### A role lost with a fresh value (R17) -/

/-- An entry of the role held a fresh value, and the new list does not go on with it. -/
def RoleLost (old new : List Entry) (r : Role) : Prop :=
  ∃ e ∈ old, e.pd.role = r ∧ e.pd.enable = true ∧ e.slot.isSome = true ∧ e.stale = false ∧
    ∀ x ∈ new, x.pd.role = e.pd.role → x.pd.addr = e.pd.addr → x.pd.enable = false

theorem replaceAll_linkLost {old new : List Entry} (lost : RoleLost old new .link) (s : State) : LinkLost (replaceAll old new s) :=
  replaceAll_brings old new (fun _ _ h => h) (fun _ _ only h => by rwa [LinkLost, only.wge]) (fun r _ => deliverStale_linkLost r)
    linkStale_lost lost s

theorem replaceAll_marked {old new : List Entry} {r : Role} (lost : RoleLost old new r) (s : State) :
    (replaceAll old new s).pos.marked r :=
  replaceAll_brings old new (P := fun s => s.pos.marked r) (fun _ _ h => h) (fun _ _ only h => by rwa [only.pos])
    (fun other _ h => deliverStale_keepsMark h other) (deliverStale_marked r) lost s

/-- An entry of the list taken that the role's address names is disabled, so the new list does not go on with the role. -/
theorem roleLost_ofTaken {old : List Entry} {taken : List PollDef} {r : Role}
    (lost : ∃ e ∈ old, e.pd.role = r ∧ e.pd.enable = true ∧ e.slot.isSome = true ∧ e.stale = false ∧
      ∀ d ∈ taken, d.role = r → d.addr = e.pd.addr → d.enable = false) : RoleLost old (taken.map (carryEntry old)) r := by
  obtain ⟨e, mem, rfl, listed, held, fresh, gone⟩ := lost
  refine ⟨e, mem, rfl, listed, held, fresh, fun x hx => ?_⟩
  obtain ⟨d, hd, rfl⟩ := List.mem_map.1 hx
  rw [carryEntry_pd]
  exact gone d hd

/-! ### A list taken (R17, R30, R56) -/

section taken
variable (taken : List PollDef) (s : State)

theorem takePollWrite_besideStale : BesideStale (listInstalled (taken.map (carryEntry s.sbc.entries)) s) (takePollWrite taken s) :=
  (replaceAll_besideStale _ _ _).trans (recompute_besideStale _)

/-- The last that is done is the recomputation, on the bus as the list leaves it. -/
theorem takePollWrite_recomputes : ∃ w : State, takePollWrite taken s = recompute w ∧ w.sbc = (takePollWrite taken s).sbc ∧
    w.stc = s.stc := by
  obtain ⟨-, stc, -⟩ := replaceAll_besideStale s.sbc.entries (taken.map (carryEntry s.sbc.entries))
    (listInstalled (taken.map (carryEntry s.sbc.entries)) s)
  exact ⟨_, takePollWrite_eq taken s, (recompute_besideStale _).1.symm, stc⟩

theorem takePollWrite_queued : ∃ items,
    items.Perm ((s.sbc.entries.filter (·.pd.enable)).flatMap (replaceItems (taken.map (carryEntry s.sbc.entries)))) ∧
      Queued [.sensorState] items s (takePollWrite taken s) := by
  obtain ⟨items, perm, queued⟩ := replaceAll_queued s.sbc.entries (taken.map (carryEntry s.sbc.entries))
    (listInstalled (taken.map (carryEntry s.sbc.entries)) s)
  have recomputed := queued.before (recompute_quiet sensorState_avoidsDelivery.evaluation _)
  exact ⟨items, perm, (setSbc_quiet _ _ _).after recomputed⟩

variable {taken s}

theorem takePollWrite_linkLost (lost : RoleLost s.sbc.entries (taken.map (carryEntry s.sbc.entries)) .link) :
    LinkLost (takePollWrite taken s) :=
  (recompute_handedOn _).linkLost (replaceAll_linkLost lost _)

theorem takePollWrite_marked {r : Role} (lost : RoleLost s.sbc.entries (taken.map (carryEntry s.sbc.entries)) r) :
    (takePollWrite taken s).pos.marked r :=
  recompute_keepsMark (replaceAll_marked lost _)

end taken

/-- Settles O35: the list is installed, each role lost has its event, and the pose is recomputed. -/
theorem pollWriteTakesTheList : Obligations.PollWriteTakesTheList := by
  intro body s h
  have refuses {c : Code} (judged : eitherRefusal (if s.committing = true then some .busy else none)
      (pollRefusal (pollDefsOf body)) (s.heard .service) = (some c, s.heard .service)) :
      exec (.pollWrite .service body) s = .next ((s.heard .service).answered .service 0x05#8 c []) :=
    exec_refused (r := .pollWrite) h (servePollWrite_refuses .service judged)
  refine ⟨fun idle read => refuses ?_, fun l read idle clash => refuses ?_, fun l read busy clash => refuses ?_,
    fun l read idle clash => ?_⟩
  · rw [idle, read]; rfl
  · rw [idle, read, pollRefusal, clash]; rfl
  · rw [busy, read, pollRefusal, clash]; rfl
  intro taken
  have served : serve .pollWrite .service body (s.heard .service) = _ := servePollWrite_takes .service read idle clash
  have event := exec_admitted (r := .pollWrite) h
  rw [served] at event
  obtain ⟨sbc, stc, tlu, z, span, lift⟩ := takePollWrite_besideStale taken (s.heard .service)
  obtain ⟨items, perm, queued⟩ := takePollWrite_queued taken (s.heard .service)
  have recomputes := takePollWrite_recomputes taken (s.heard .service)
  have linkLost := takePollWrite_linkLost (taken := taken) (s := s.heard .service)
  have marked {r : Role} := takePollWrite_marked (taken := taken) (s := s.heard .service) (r := r)
  obtain ⟨u, hu⟩ : ∃ u, u = takePollWrite taken (s.heard .service) := ⟨_, rfl⟩
  rw [← hu] at sbc stc tlu z span lift queued recomputes linkLost marked
  have entries : u.sbc.entries = taken.map (carryEntry s.sbc.entries) := congrArg Sbc.entries sbc
  have txn : u.sbc.txn = s.sbc.txn.map (fun x => x.survive (taken.map (carryEntry s.sbc.entries))) := congrArg Sbc.txn sbc
  refine ⟨_, u, event.trans (hu ▸ rfl), rfl, entries, ?_, ?_, ?_, ⟨items, ?_, (heard_quiet _ s .service).after queued⟩, recomputes,
    ?_, ?_⟩
  · intro x r a running kind
    refine txn.trans ?_
    rw [running, Option.map_some, Txn.survive_polled kind]
  · intro x running kind
    refine txn.trans ?_
    rw [running, Option.map_some, Txn.survive_pass kind]
  · intro none
    refine txn.trans ?_
    rw [none, Option.map_none]
  · rw [answered_sbc, entries]
    exact perm
  · exact ⟨fun lost => linkLost (roleLost_ofTaken lost), fun lost => marked (roleLost_ofTaken lost),
      fun lost => marked (roleLost_ofTaken lost), fun lost => marked (roleLost_ofTaken lost),
      fun lost => marked (roleLost_ofTaken lost), fun lost => marked (roleLost_ofTaken lost)⟩
  · have due : u.sbc.due = [] := congrArg Sbc.due sbc
    have bus : u.sbc.bus = s.sbc.bus := (congrArg Sbc.bus sbc :)
    have roundNo : u.sbc.roundNo = s.sbc.roundNo := (congrArg Sbc.roundNo sbc :)
    have pass : u.sbc.pass = s.sbc.pass := (congrArg Sbc.pass sbc :)
    exact ⟨due, bus, roundNo, pass, tlu, stc, z, span, lift⟩

end Sys2Proof.Machine
end

section
/-! PROOFS. The parameters as PARAM_WRITE reads and stores them (R55, R92, R93, R141, R201, R202): the ground of O59. -/

namespace Sys2Proof.Machine

/-! ### Reading a parameter (R92, R202) -/

/-- A parameter is read of the working settings, or of the retained zero or span. -/
theorem Param.read_congr (q : Param) {s t : State} (cfg : t.cfg = s.cfg) (z : q = .z → t.wge.z = s.wge.z)
    (span : q = .span → t.wge.span = s.wge.span) : q.read t = q.read s := by
  cases q
  case z => exact z rfl
  case span => exact congrArg Int.ofNat (span rfl)
  all_goals simp only [Param.read, cfg]

@[simp] theorem Param.read_heard (q : Param) (s : State) (p : Port) : q.read (s.heard p) = q.read s :=
  q.read_congr rfl (fun _ => rfl) (fun _ => rfl)

@[simp] theorem Param.read_answered (q : Param) (s : State) (p : Port) (kind : Byte) (c : Code) (body : List Byte) :
    q.read (s.answered p kind c body) = q.read s :=
  q.read_congr rfl (fun _ => rfl) (fun _ => rfl)

/-! ### One parameter stored -/

/-- What every parameter reads after one is stored: z and s are no part of the settings (R92). -/
theorem Param.read_store (q q' : Param) (v : Nat) (s : State) (c : Settings) :
    q'.read (s.setCfg (q.store v c)) =
      if q' = q ∧ q ≠ .z ∧ q ≠ .span then (v : Int) else q'.read (s.setCfg c) := by
  cases q <;> cases q' <;> rfl

/-- No parameter is a switch or a page of the chart (R201). -/
theorem Param.store_leaves (q : Param) (v : Nat) (c : Settings) :
    (q.store v c).sw = c.sw ∧ (q.store v c).cap.chart = c.cap.chart := by
  cases q <;> exact ⟨rfl, rfl⟩

/-! ### The companions (R202) -/

/-- Companions stored after the written parameter, each by its own value. -/
def storeAll (moved : List (Param × Int)) (c : Settings) : Settings := moved.foldl (fun c m => m.1.store m.2.toNat c) c

theorem takeParam_eq (q : Param) (v : Int) (s : State) :
    takeParam q v s = q.act v (s.setCfg (storeAll (q.companions s.cfg v) (q.store v.toNat s.cfg))) := rfl

theorem storeAll_leaves (moved : List (Param × Int)) (c : Settings) :
    (storeAll moved c).sw = c.sw ∧ (storeAll moved c).cap.chart = c.cap.chart := by
  induction moved generalizing c with
  | nil => exact ⟨rfl, rfl⟩
  | cons m moved ih =>
    obtain ⟨sw, chart⟩ := ih (m.1.store m.2.toNat c)
    obtain ⟨sw', chart'⟩ := m.1.store_leaves m.2.toNat c
    exact ⟨sw.trans sw', chart.trans chart'⟩

theorem read_storeAll_other {q' : Param} {moved : List (Param × Int)} (other : ∀ m ∈ moved, m.1 ≠ q') (s : State)
    (c : Settings) :
    q'.read (s.setCfg (storeAll moved c)) = q'.read (s.setCfg c) := by
  induction moved generalizing c with
  | nil => rfl
  | cons m moved ih =>
    obtain ⟨first, rest⟩ := List.forall_mem_cons.1 other
    refine (ih rest _).trans ?_
    rw [Param.read_store, if_neg fun h => first h.1.symm]

/-- The companions of a write: settings other than the written one, each once, with values that a setting holds. -/
structure Movable (q : Param) (moved : List (Param × Int)) : Prop where
  once : (moved.map Prod.fst).Nodup
  other : ∀ m ∈ moved, m.1 ≠ q
  setting : ∀ m ∈ moved, m.1 ≠ .z ∧ m.1 ≠ .span
  nonneg : ∀ m ∈ moved, 0 ≤ m.2

theorem Movable.sublist {q : Param} {moved all : List (Param × Int)} (h : Movable q all) (part : moved.Sublist all) :
    Movable q moved where
  once := h.once.sublist (part.map _)
  other := fun m hm => h.other m (part.subset hm)
  setting := fun m hm => h.setting m (part.subset hm)
  nonneg := fun m hm => h.nonneg m (part.subset hm)

theorem read_storeAll_moved {q : Param} {moved : List (Param × Int)} (movable : Movable q moved) (s : State) (c : Settings) :
    ∀ m ∈ moved, m.1.read (s.setCfg (storeAll moved c)) = m.2 := by
  induction moved generalizing c with
  | nil => nofun
  | cons m moved ih =>
    refine List.forall_mem_cons.2 ⟨?_, ih (movable.sublist (List.sublist_cons_self _ _)) _⟩
    have fresh : m.1 ∉ moved.map Prod.fst := (List.nodup_cons.1 movable.once).1
    have later : ∀ x ∈ moved, x.1 ≠ m.1 := fun x hx e => fresh (e ▸ List.mem_map_of_mem hx)
    have setting := movable.setting m List.mem_cons_self
    have nonneg := movable.nonneg m List.mem_cons_self
    refine (read_storeAll_other later s _).trans ?_
    rw [Param.read_store, if_pos ⟨rfl, setting⟩, Int.toNat_of_nonneg nonneg]

/-- Every range but that of z begins at 0 or above (R201). -/
theorem Param.range_nonneg {q : Param} (c : Settings) (notZ : q ≠ .z) : 0 ≤ (q.range c).1 := by
  cases q
  case z => exact absurd rfl notZ
  all_goals exact Int.natCast_nonneg _

theorem ite_singleton_sublist {α : Type} (c : Prop) [Decidable c] (x : α) : (if c then [x] else []).Sublist [x] := by
  split
  · exact List.Sublist.refl _
  · exact List.nil_sublist _

/-- The companions of a value from the range on (R202): U_hold is at least 600 and N at least 16. -/
theorem companions_movable {q : Param} {c : Settings} {v : Int} (above : (q.range c).1 ≤ v) : Movable q (q.companions c v) := by
  cases q
  case uHold =>
    have least : (600 : Int) ≤ v := above
    have all : Movable .uHold [(.uWarn, v), (.uRel, v - 10)] :=
      ⟨by simp, by simp, by simp, by simp; omega⟩
    exact all.sublist ((ite_singleton_sublist _ _).append (ite_singleton_sublist _ _))
  case n =>
    have least : (16 : Int) ≤ v := above
    have all : Movable .n [(.nMin, v)] := ⟨List.nodup_singleton _, by simp, by simp, by simp; omega⟩
    exact all.sublist (ite_singleton_sublist _ _)
  all_goals exact ⟨List.nodup_nil, nofun, nofun, nofun⟩

/-! ### The block's own act (R55, R86, R93, R141) -/

theorem Param.act_recomputes {q : Param}
    (geometry : q ∈ [Param.l1, .l2, .teleMax, .column, .slewOff, .slewLo, .slewHi, .reachLo, .reachHi]) (v : Int) :
    q.act v = recompute := by
  simp only [List.mem_cons, List.not_mem_nil, or_false] at geometry
  rcases geometry with rfl | rfl | rfl | rfl | rfl | rfl | rfl | rfl | rfl <;> rfl

theorem Param.act_evaluates {q : Param} (capacity : q ∈ [Param.pageSize, .k, .fMin, .uWarn, .uHold, .uRel]) (v : Int) :
    q.act v = cpmEvaluate := by
  simp only [List.mem_cons, List.not_mem_nil, or_false] at capacity
  rcases capacity with rfl | rfl | rfl | rfl | rfl | rfl <;> rfl

/-- What the act of a block leaves alone whatever the parameter, and what becomes of zero and span (R93). -/
structure ActLeaves (q : Param) (v : Int) (s t : State) : Prop where
  stc : t.stc = s.stc
  sbc : t.sbc = s.sbc
  tlu : t.tlu = s.tlu
  z : t.wge.z = if q = .z then v else s.wge.z
  span : t.wge.span = if q = .span then v.toNat else s.wge.span

theorem Param.act_leaves (q : Param) (v : Int) (s : State) : ActLeaves q v s (q.act v s) := by
  have recomputes := recompute_handedOn s
  have evaluates := cpmEvaluate_handedOn s
  cases q
  case l1 | l2 | teleMax | column | slewOff | slewLo | slewHi | reachLo | reachHi =>
    exact ⟨recomputes.stc, recomputes.sbc, recomputes.tlu, recomputes.z, recomputes.span⟩
  case pageSize | k | fMin | uWarn | uHold | uRel =>
    exact ⟨evaluates.stc, evaluates.sbc, evaluates.tlu, evaluates.z, evaluates.span⟩
  case z | span | lMin | d | rs | rm | n | nMin | zb | permitS => exact ⟨rfl, rfl, rfl, rfl, rfl⟩

/-- Every parameter after the act: WGE alone stores what the settings do not hold, its zero and span (R93). -/
theorem Param.read_act {q : Param} {v : Int} (nonneg : q ≠ .z → 0 ≤ v) (q' : Param) (s : State) :
    q'.read (q.act v s) = if q' = q ∧ (q = .z ∨ q = .span) then v else q'.read s := by
  have left := q.act_leaves v s
  split
  · next own =>
    obtain ⟨rfl, rfl | rfl⟩ := own
    · rfl
    · exact Int.toNat_of_nonneg (nonneg (by decide))
  · next notOwn =>
    exact q'.read_congr (congrArg Stc.settings left.stc)
      (fun atZ => left.z.trans (if_neg fun e => notOwn ⟨atZ.trans e.symm, .inl e⟩))
      (fun atSpan => left.span.trans (if_neg fun e => notOwn ⟨atSpan.trans e.symm, .inr e⟩))

/-! ### A taken write (R202) -/

section taken
variable {q : Param} {v : Int} {s : State} (above : (q.range s.cfg).1 ≤ v)
include above

theorem Param.above_nonneg (notZ : q ≠ .z) : 0 ≤ v := (q.range_nonneg s.cfg notZ).trans above

/-- The written parameter reads the value taken: of the settings, or of WGE. -/
theorem takeParam_reads : q.read (takeParam q v s) = v := by
  have movable := companions_movable above
  rw [takeParam_eq, Param.read_act (Param.above_nonneg above)]
  by_cases own : q = .z ∨ q = .span
  · exact if_pos ⟨rfl, own⟩
  · obtain ⟨notZ, notSpan⟩ := not_or.1 own
    rw [if_neg fun h => own h.2, read_storeAll_other movable.other, Param.read_store, if_pos ⟨rfl, notZ, notSpan⟩,
      Int.toNat_of_nonneg (Param.above_nonneg above notZ)]

theorem takeParam_moves : ∀ m ∈ q.companions s.cfg v, m.1.read (takeParam q v s) = m.2 := by
  have movable := companions_movable above
  intro m hm
  rw [takeParam_eq, Param.read_act (Param.above_nonneg above), if_neg fun h => movable.other m hm h.1]
  exact read_storeAll_moved movable s _ m hm

theorem takeParam_keeps {q' : Param} (other : q' ≠ q) (unmoved : ∀ m ∈ q.companions s.cfg v, m.1 ≠ q') :
    q'.read (takeParam q v s) = q'.read s := by
  rw [takeParam_eq, Param.read_act (Param.above_nonneg above), if_neg fun h => other h.1, read_storeAll_other unmoved,
    Param.read_store, if_neg fun h => other h.1]
  exact q'.read_congr rfl (fun _ => rfl) (fun _ => rfl)

end taken

theorem takeParam_stc (q : Param) (v : Int) (s : State) :
    (takeParam q v s).stc = { s.stc with settings := (takeParam q v s).stc.settings } := by
  rw [takeParam_eq, (q.act_leaves v _).stc]
  rfl

theorem takeParam_sbc (q : Param) (v : Int) (s : State) : (takeParam q v s).sbc = s.sbc := (q.act_leaves v _).sbc

theorem takeParam_tlu (q : Param) (v : Int) (s : State) : (takeParam q v s).tlu = s.tlu := (q.act_leaves v _).tlu

theorem takeParam_cfg (q : Param) (v : Int) (s : State) :
    (takeParam q v s).cfg = storeAll (q.companions s.cfg v) (q.store v.toNat s.cfg) :=
  congrArg Stc.settings (q.act_leaves v _).stc

/-- A write leaves the switches and the chart alone. -/
theorem takeParam_leaves (q : Param) (v : Int) (s : State) :
    (takeParam q v s).cfg.sw = s.cfg.sw ∧ (takeParam q v s).cfg.cap.chart = s.cfg.cap.chart := by
  obtain ⟨sw, chart⟩ := storeAll_leaves (q.companions s.cfg v) (q.store v.toNat s.cfg)
  obtain ⟨sw', chart'⟩ := q.store_leaves v.toNat s.cfg
  rw [takeParam_cfg]
  exact ⟨sw.trans sw', chart.trans chart'⟩

/-- A write of the geometry or of the zones recomputes the pose (R55). -/
theorem takeParam_pos {q : Param}
    (geometry : q ∈ [Param.l1, .l2, .teleMax, .column, .slewOff, .slewLo, .slewHi, .reachLo, .reachHi]) (v : Int) (s : State) :
    (takeParam q v s).pos = { s.pos with pose := s.pos.formPose s.sbc (takeParam q v s).cfg } := by
  rw [takeParam_cfg, takeParam_eq, Param.act_recomputes geometry, recompute_pos]
  rfl

/-- A write of the capacity settings has CPM evaluate (R141, R148). -/
theorem takeParam_cpm {q : Param} (capacity : q ∈ [Param.pageSize, .k, .fMin, .uWarn, .uHold, .uRel]) (v : Int) (s : State) :
    (takeParam q v s).cpm = s.cpm.evaluated (takeParam q v s).cfg := by
  rw [takeParam_cfg, takeParam_eq, Param.act_evaluates capacity, cpmEvaluate_cpm]
  rfl

end Sys2Proof.Machine
end

section
/-! PROOFS. PARAM_WRITE and FEATURES (R55, R97, R107, R141, R142, R201, R202): O59. -/

namespace Sys2Proof.Machine

/-! ### PARAM_WRITE as its owner judges it (R202) -/

theorem badPageSize_eq_false {q : Param} {v : Int} :
    badPageSize q v = false ↔ (q ≠ .pageSize ∨ v = 125 ∨ v = 250 ∨ v = 500) := by
  simp only [badPageSize, Bool.and_eq_false_iff, beq_eq_false_iff_ne, bne_eq_false_iff_eq]
  tauto

section write
variable {body : List Byte} {q : Param} (named : Param.ofCode (natAt body 0 1) = some q) (p : Port) {s : State}
include named

theorem serveParamWrite_badField (bad : badPageSize q (intAt body 1 4) = true) :
    serveParamWrite p body s = (.refuse .badField, s) := by
  unfold serveParamWrite
  rw [named]
  exact if_pos bad

theorem serveParamWrite_busy (good : badPageSize q (intAt body 1 4) = false) (busy : s.committing = true) :
    serveParamWrite p body s = (.refuse .busy, s) := by
  unfold serveParamWrite
  simp [named, good, busy]

theorem serveParamWrite_takes (good : badPageSize q (intAt body 1 4) = false) (idle : s.committing = false) :
    let w := q.taken s.cfg (intAt body 1 4)
    let moved := q.companions s.cfg w
    serveParamWrite p body s =
      ({ code := if w = intAt body 1 4 ∧ moved = [] then .ok else .clamped, body := paramBody q w moved }, takeParam q w s) := by
  intro w moved
  have code : (if w ≠ intAt body 1 4 ∨ (!moved.isEmpty) = true then Code.clamped else .ok) =
      if w = intAt body 1 4 ∧ moved = [] then .ok else .clamped := by
    by_cases exactly : w = intAt body 1 4 <;> by_cases alone : moved = [] <;> simp [exactly, alone]
  unfold serveParamWrite
  simp only [named, good, idle, Bool.false_eq_true, if_false]
  rw [← code]

theorem paramWrite_taken (admitted : Admitted .service .paramWrite body s) (good : badPageSize q (intAt body 1 4) = false)
    (idle : s.committing = false) :
    let w := q.taken s.cfg (intAt body 1 4)
    let moved := q.companions s.cfg w
    exec (.paramWrite .service body) s = .next ((takeParam q w (s.heard .service)).answered .service 0x31#8
      (if w = intAt body 1 4 ∧ moved = [] then .ok else .clamped) (paramBody q w moved)) := by
  intro w moved
  have served : serve .paramWrite .service body (s.heard .service) = _ := serveParamWrite_takes named .service good idle
  refine (exec_admitted (r := .paramWrite) admitted).trans ?_
  rw [served]
  rfl

end write

/-! ### FEATURES (R97, R107, R141) -/

/-- One condition of a flags byte, read of a byte of them. -/
theorem bitOf_getLsbD (k : Nat) (b : Byte) : bitOf k (b.getLsbD k) = b.toNat / 2 ^ k % 2 * 2 ^ k := by
  rw [BitVec.getLsbD, Nat.testBit_eq_decide_div_mod_eq, bitOf]
  rcases Nat.mod_two_eq_zero_or_one (b.toNat / 2 ^ k) with h | h <;> simp [h]

/-- The reply to FEATURES carries the low three bits of the byte sent. -/
theorem switchBits_switchesOf (b : Byte) : switchBits (switchesOf [b]) = b.toNat % 8 := by
  have bits : switchBits (switchesOf [b]) = bitOf 0 (b.getLsbD 0) + (bitOf 1 (b.getLsbD 1) + (bitOf 2 (b.getLsbD 2) + 0)) := rfl
  rw [bits, bitOf_getLsbD, bitOf_getLsbD, bitOf_getLsbD]
  omega

/-- What the writing of the switches leaves, and what becomes of the auto-zero window and of CPM. -/
structure SwitchesTaken (w : Switches) (s t : State) : Prop where
  stc : t.stc = { s.stc with settings := { s.cfg with sw := w } }
  cpm : t.cpm = (cpmEvaluate (s.setCfg { s.cfg with sw := w })).cpm
  az : t.wge.az = if w.autoZero = s.cfg.sw.autoZero then s.wge.az else .empty
  z : t.wge.z = s.wge.z
  span : t.wge.span = s.wge.span
  tlu : t.tlu = s.tlu
  sbc : t.sbc = s.sbc
  pos : t.pos = s.pos

theorem takeSwitches_taken (w : Switches) (s : State) : SwitchesTaken w s (takeSwitches w s) := by
  unfold takeSwitches
  dsimp only
  split
  · next same =>
    have handed := cpmEvaluate_handedOn (s.setCfg { s.cfg with sw := w })
    exact ⟨handed.stc, rfl, handed.az.trans (if_pos same).symm, handed.z, handed.span, handed.tlu, handed.sbc, handed.pos⟩
  · next changed =>
    have handed := cpmEvaluate_handedOn
      ((s.setCfg { s.cfg with sw := w }).setWge { (s.setCfg { s.cfg with sw := w }).wge with az := .empty })
    refine ⟨handed.stc, ?_, handed.az.trans (if_neg changed).symm, handed.z, handed.span, handed.tlu, handed.sbc, handed.pos⟩
    rw [cpmEvaluate_cpm, cpmEvaluate_cpm]
    rfl

theorem features_taken {b : Byte} {s : State} (admitted : Admitted .service .features [b] s) (idle : s.committing = false) :
    exec (.features .service [b]) s =
      .next ((takeSwitches (switchesOf [b]) (s.heard .service)).answered .service 0x32#8 .ok (be1 (b.toNat % 8))) := by
  have served : serve .features .service [b] (s.heard .service) = _ := if_neg (Bool.eq_false_iff.1 idle)
  refine (exec_admitted (r := .features) admitted).trans ?_
  rw [served, switchBits_switchesOf]
  rfl

/-! ### Both requests -/

/-- Settles O59: PARAM_WRITE stores and acts as `takeParam` does (`takeParam_reads`, `takeParam_moves`, `takeParam_keeps`),
FEATURES as `takeSwitches` does (`takeSwitches_taken`). -/
theorem parameterAndFeatureWrites : Obligations.ParameterAndFeatureWrites := by
  refine ⟨fun body q s admitted named => ?_, fun b s admitted => ?_⟩
  · refine ⟨fun bad => ?_, fun good busy => ?_, fun good idle _ => ?_⟩
    · have refused := Bool.of_not_eq_false fun h => bad (badPageSize_eq_false.1 h)
      exact exec_refused (r := .paramWrite) admitted (serveParamWrite_badField named .service refused)
    · exact exec_refused (r := .paramWrite) admitted (serveParamWrite_busy named .service (badPageSize_eq_false.2 good) busy)
    · intro w moved
      have above : (q.range s.cfg).1 ≤ w := le_max_left _ _
      obtain ⟨sw, chart⟩ := takeParam_leaves q w (s.heard .service)
      refine ⟨_, takeParam q w (s.heard .service), paramWrite_taken named admitted (badPageSize_eq_false.2 good) idle, rfl, ?_⟩
      simp only [Param.read_answered, answered_cpm, answered_pos, answered_stc, answered_tlu, answered_sbc, answered_cfg]
      refine ⟨takeParam_reads above, takeParam_moves (s := s.heard .service) above, fun q' other unmoved => ?_, fun capacity => ?_,
        fun permit => ?_, fun geometry => ?_, takeParam_stc q w _, takeParam_tlu q w _, takeParam_sbc q w _, sw, chart⟩
      · exact (takeParam_keeps (s := s.heard .service) above other unmoved).trans (q'.read_heard s _)
      · rw [cpmEvaluate_cpm]
        exact takeParam_cpm capacity w _
      · subst permit
        rfl
      · rw [recompute_pos]
        exact takeParam_pos geometry w _
  · refine ⟨fun busy => exec_refused (r := .features) admitted (if_pos busy), fun idle => ?_⟩
    intro w
    have taken := takeSwitches_taken w (s.heard .service)
    have cfg : (takeSwitches w (s.heard .service)).cfg = { s.cfg with sw := w } := congrArg Stc.settings taken.stc
    refine ⟨_, takeSwitches w (s.heard .service), features_taken admitted idle, rfl, ?_⟩
    simp only [answered_cpm, answered_pos, answered_stc, answered_tlu, answered_sbc, answered_wge, answered_cfg]
    refine ⟨taken.stc, ?_, fun changed => taken.az.trans (if_neg changed), fun same => taken.az.trans (if_pos same),
      taken.z, taken.span, taken.tlu, taken.sbc, taken.pos⟩
    rw [cpmEvaluate_cpm]
    refine (taken.cpm.trans (cpmEvaluate_cpm _)).trans ?_
    exact congrArg (Cpm.evaluated · s.cpm) cfg.symm

end Sys2Proof.Machine
end

section
/-! PROOFS. What WT's judgements leave of the other blocks and of WT's own copies, and what an evaluation of CPM forms and hands on
(R85, R137, R142 to R153): O52, and the ground of O44 and O45. -/

namespace Sys2Proof.Machine

/-! ### What WT's judgements leave (R159, R161) -/

/-- What WT has taken of the other blocks. -/
def Wt.copies (w : Wt) : Pose × Marked × Marked × LiftState × Option Nat := (w.pose, w.live, w.u, w.lift, w.tag)

/-- Only WT beside its copies, the hold lines and the ports may have changed. -/
structure Judged (s t : State) : Prop where
  rest : t = { s with wt := t.wt, hls := t.hls, mpt := t.mpt }
  copies : t.wt.copies = s.wt.copies

theorem Judged.refl (s : State) : Judged s s := ⟨rfl, rfl⟩

theorem Judged.trans {s t u : State} (h : Judged s t) (k : Judged t u) : Judged s u :=
  ⟨by rw [k.rest, h.rest], k.copies.trans h.copies⟩

section readings
variable {s t : State} (h : Judged s t)
include h

theorem Judged.wge : t.wge = s.wge := by rw [h.rest]
theorem Judged.cpm : t.cpm = s.cpm := by rw [h.rest]
theorem Judged.cfg : t.cfg = s.cfg := by rw [h.rest]; rfl
theorem Judged.wtLift : t.wt.lift = s.wt.lift := congrArg (fun c => c.2.2.2.1) h.copies
theorem Judged.wtTag : t.wt.tag = s.wt.tag := congrArg (fun c => c.2.2.2.2) h.copies
theorem Judged.wtLive : t.wt.live = s.wt.live := congrArg (fun c => c.2.1) h.copies
theorem Judged.wtU : t.wt.u = s.wt.u := congrArg (fun c => c.2.2.1) h.copies

end readings

theorem setWt_judged (s : State) {w : Wt} (h : w.copies = s.wt.copies) : Judged s (s.setWt w) := ⟨rfl, h⟩
theorem queueReport_judged (s : State) (r : Report) (body : List Byte) : Judged s (s.queueReport r body) := ⟨rfl, rfl⟩

theorem present_judged (src : HoldSource) (mask : LineMask) (s : State) : Judged s (present src mask s) := by
  obtain ⟨m, e, -⟩ := present_rest src mask s
  rw [e]
  exact ⟨rfl, rfl⟩

theorem foldl_judged {α : Type} {f : State → α → State} (each : ∀ s a, Judged s (f s a)) (l : List α) (s : State) :
    Judged s (l.foldl f s) := by
  induction l generalizing s with
  | nil => exact .refl s
  | cons a l ih => exact (each s a).trans (ih _)

theorem offerCapture_judged (k : Fin 8) (s : State) : Judged s (offerCapture k s) := by
  have filled (c : Option Capture) : Judged s (s.setWt { s.wt with capture := c }) := setWt_judged s rfl
  unfold offerCapture
  split
  · exact (filled _).trans (queueReport_judged _ _ _)
  · exact rel_ite ((filled _).trans (queueReport_judged _ _ _)) (filled _)

theorem fire_judged (ev : SourceEvent) (k : Fin 8) (p : Option (Fin 8)) (s : State) : Judged s (fire ev k p s) := by
  have hits : Judged s (s.setWt (s.wt.setHits k p)) := setWt_judged s (by cases p <;> rfl)
  unfold fire
  dsimp only
  split
  · exact hits.trans (queueReport_judged _ _ _)
  · exact hits.trans (offerCapture_judged k _)
  · exact hits.trans (present_judged _ _ _)

theorem withdraw_judged (k : Fin 8) (s : State) : Judged s (withdraw k s) := rel_ite (present_judged _ _ s) (.refl s)

theorem judgeEdge_judged (ev : SourceEvent) (k : Fin 8) (was : Bool) (s : State) : Judged s (judgeEdge ev k was s) := by
  have pair : Judged s (s.setWt (s.wt.setPair k (s.wt.bothMatch k))) := setWt_judged s rfl
  unfold judgeEdge
  refine rel_ite ?_ (rel_ite (fire_judged ev k none s) (rel_ite (withdraw_judged k s) (.refl s)))
  exact rel_ite (pair.trans (fire_judged _ _ _ _)) (rel_ite (pair.trans (withdraw_judged _ _)) pair)

theorem evalEntry_judged (ev : SourceEvent) (vals : Quantity → Option Marked) (s : State) (k : Fin 8) :
    Judged s (evalEntry ev vals s k) := by
  unfold evalEntry
  refine rel_ite ?_ (.refl s)
  split
  · exact .refl s
  · refine .trans ?_ (judgeEdge_judged ev k _ _)
    exact rel_ite (setWt_judged s rfl) (.refl s)

theorem watchEvaluate_judged (ev : SourceEvent) (vals : Quantity → Option Marked) (s : State) :
    Judged s (watchEvaluate ev vals s) := rel_ite (foldl_judged (evalEntry_judged ev vals) _ s) (.refl s)

theorem resetLiftMass_judged (s : State) (k : Fin 8) : Judged s (resetLiftMass s k) := by
  refine rel_ite (.trans ?_ (judgeEdge_judged _ _ _ _)) (.refl s)
  exact setWt_judged s rfl

/-- WT takes the utilisation, the live mass, and a lift state with its tag, and judges (R149, R159, R168). -/
theorem wtUtil_judged (u : Marked) (s : State) : Judged (s.setWt { s.wt with u := u }) (wtUtil u s) := watchEvaluate_judged _ _ _

theorem wtLive_judged (m : Marked) (s : State) : Judged (s.setWt { s.wt with live := m }) (wtLive m s) := watchEvaluate_judged _ _ _

theorem wtLift_judged (old new : LiftState) (tag mass : Option Nat) (s : State) :
    Judged (s.setWt { s.wt with lift := new, tag := tag }) (wtLift old new tag mass s) := by
  have reset : Judged (s.setWt { s.wt with lift := new, tag := tag }) (if old = .open_ ∧ new = .gripped then
      (List.finRange 8).foldl resetLiftMass (s.setWt { s.wt with lift := new, tag := tag })
      else s.setWt { s.wt with lift := new, tag := tag }) := rel_ite (foldl_judged resetLiftMass_judged _ _) (.refl _)
  unfold wtLift
  dsimp only
  split
  · exact reset.trans (watchEvaluate_judged _ _ _)
  · exact reset

/-! ### The peak of a lift (R85) -/

/-- WGE once a handed U has entered the peak of a lift in CARRYING or WEIGHED (R85). -/
def Wge.peaked (w : Wge) (u : Nat) : Wge :=
  { w with lift := w.lift.map (fun l => if l.stage = .gripped then l else { l with peakU := max l.peakU u }) }

theorem Wge.peaked_gripped {w : Wge} (low : ∀ l, w.lift = some l → l.stage = .gripped) (u : Nat) : w.peaked u = w := by
  have same : w.lift.map (fun l => if l.stage = .gripped then l else { l with peakU := max l.peakU u }) = w.lift := by
    cases lift : w.lift with
    | none => rfl
    | some l => simp [low l lift]
  unfold Wge.peaked
  rw [same]

theorem Wge.peaked_raised {w : Wge} {l : Lift} (lift : w.lift = some l) (up : l.stage ≠ .gripped) (u : Nat) :
    (w.peaked u).lift = some { l with peakU := max l.peakU u } := by simp [Wge.peaked, lift, up]

theorem wgeUtil_wge (u : Nat) (s : State) : (wgeUtil u s).wge = s.wge.peaked u := by
  unfold wgeUtil
  split
  · next l lift =>
    split
    · next gripped => exact (Wge.peaked_gripped (fun k held => by rw [lift] at held; cases held; exact gripped) u).symm
    · next up => simp [Wge.peaked, lift, up]
  · next none => exact (Wge.peaked_gripped (by simp [none]) u).symm

/-! ### Hand-overs of an evaluation, one among the others (R149) -/

/-- WGE, CPM and the settings are as they were: no part of the hand-overs to WT, to HLS and to the ports. -/
def SameWeighing (s t : State) : Prop := t.wge = s.wge ∧ t.cpm = s.cpm ∧ t.cfg = s.cfg

theorem SameWeighing.refl (s : State) : SameWeighing s s := ⟨rfl, rfl, rfl⟩

theorem SameWeighing.trans {s t u : State} (h : SameWeighing s t) (k : SameWeighing t u) : SameWeighing s u :=
  ⟨k.1.trans h.1, k.2.1.trans h.2.1, k.2.2.trans h.2.2⟩

theorem Judged.sameWeighing {s t : State} (h : Judged s t) : SameWeighing s t := ⟨h.wge, h.cpm, h.cfg⟩

theorem wtUtil_sameWeighing (u : Marked) (s : State) : SameWeighing s (wtUtil u s) := (wtUtil_judged u s).sameWeighing
theorem wtLive_sameWeighing (m : Marked) (s : State) : SameWeighing s (wtLive m s) := (wtLive_judged m s).sameWeighing
theorem wtLift_sameWeighing (old new : LiftState) (tag mass : Option Nat) (s : State) :
    SameWeighing s (wtLift old new tag mass s) := (wtLift_judged old new tag mass s).sameWeighing

theorem evalReports_judged (old new : Cpm) (s : State) : Judged s (evalReports old new s) :=
  .trans (rel_ite (queueReport_judged _ _ _) (.refl s)) (rel_ite (queueReport_judged _ _ _) (.refl _))

theorem presentCap_judged (old new : Cpm) (s : State) : Judged s (presentCap old new s) := rel_ite (present_judged _ _ s) (.refl s)

/-- WGE after an evaluation: U has entered the peak (R85, R149). -/
theorem cpmEvaluate_wge (s : State) : (cpmEvaluate s).wge = s.wge.peaked (s.cpm.evaluated s.cfg).u := by
  obtain ⟨u, before, after⟩ := runAny_around SameWeighing .refl (fun _ _ _ => .trans) (fun s _ => .refl s)
    (rest := [wtUtil (s.cpm.evaluated s.cfg).uMarked, evalReports s.cpm (s.cpm.evaluated s.cfg), presentCap s.cpm (s.cpm.evaluated s.cfg)])
    (.refl _) (fun f hf u => by
      simp only [List.mem_cons, List.not_mem_nil, or_false] at hf
      rcases hf with rfl | rfl | rfl
      · exact wtUtil_sameWeighing _ u
      · exact (evalReports_judged _ _ u).sameWeighing
      · exact (presentCap_judged _ _ u).sameWeighing) (s.setCpm (s.cpm.evaluated s.cfg))
  exact after.1.trans ((wgeUtil_wge _ _).trans (by rw [before.1]; rfl))

/-- WT holds the U of the latest evaluation (R149). -/
theorem cpmEvaluate_wtU (s : State) : (cpmEvaluate s).wt.u = (s.cpm.evaluated s.cfg).uMarked := by
  refine runAny_brings (fun t => t.wt.u = (s.cpm.evaluated s.cfg).uMarked) (fun _ _ h => h) (fun f hf t h => ?_)
    ⟨wtUtil (s.cpm.evaluated s.cfg).uMarked, by simp, fun t => (wtUtil_judged _ t).wtU⟩ _
  simp only [List.mem_cons, List.not_mem_nil, or_false] at hf
  rcases hf with rfl | rfl | rfl | rfl
  · unfold wgeUtil
    split
    · split <;> exact h
    · exact h
  · exact (wtUtil_judged _ t).wtU
  · exact (evalReports_judged _ _ t).wtU.trans h
  · exact (presentCap_judged _ _ t).wtU.trans h

/-- An evaluation's own reports, in their order (R149, R151, R153). -/
def evaluationItems (old new : Cpm) : List (Report × List Byte) :=
  (if old.monitor = new.monitor then [] else [(.capacity, capacityBody old.monitor new)]) ++
    (if old.permit.isSome = true ∧ new.permit = none then [(.permitEnd, be1 new.endCause.num)] else [])

theorem evalReports_queued (old new : Cpm) (s : State) :
    Queued [.capacity, .permitEnd] (evaluationItems old new) s (evalReports old new s) := by
  have queued (r : Report) (mem : r ∈ [Report.capacity, .permitEnd]) (b : List Byte) (s : State) :
      Queued [.capacity, .permitEnd] [(r, b)] s (s.queueReport r b) := by
    have k := queueReport_queued [.capacity, .permitEnd] r b s
    rwa [if_pos mem] at k
  have change : Queued [.capacity, .permitEnd]
      (if old.monitor = new.monitor then [] else [(.capacity, capacityBody old.monitor new)]) s
      (if old.monitor ≠ new.monitor then s.queueReport .capacity (capacityBody old.monitor new) else s) := by
    by_cases same : old.monitor = new.monitor
    · simpa [same] using Queued.refl _ s
    · simpa [same] using queued .capacity (by simp) _ s
  unfold evalReports
  refine change.trans ?_
  by_cases ended : old.permit.isSome = true ∧ new.permit = none
  · simpa [ended] using queued .permitEnd (by simp) _ _
  · have runs : ¬(old.permit.isSome && new.permit.isNone) = true := by simpa using ended
    rw [if_neg ended, if_neg runs]
    exact .refl _ _

theorem cpmEvaluate_queued (s : State) :
    Queued [.capacity, .permitEnd] (evaluationItems s.cpm (s.cpm.evaluated s.cfg)) s (cpmEvaluate s) := by
  have apart : Avoids [.capacity, .permitEnd] Report.ofWatch := by unfold Avoids; decide
  obtain ⟨u, before, after⟩ := runAny_around (Queued [.capacity, .permitEnd] []) (.refl _) (fun _ _ _ => .after)
    (fun _ _ => .same fun _ => ⟨rfl, rfl, rfl⟩) (f := evalReports s.cpm (s.cpm.evaluated s.cfg))
    (rest := [wgeUtil (s.cpm.evaluated s.cfg).u, wtUtil (s.cpm.evaluated s.cfg).uMarked, presentCap s.cpm (s.cpm.evaluated s.cfg)])
    (fs := [wgeUtil (s.cpm.evaluated s.cfg).u, wtUtil (s.cpm.evaluated s.cfg).uMarked, evalReports s.cpm (s.cpm.evaluated s.cfg),
      presentCap s.cpm (s.cpm.evaluated s.cfg)])
    (List.perm_middle (l₁ := [_, _])) (fun f hf u => by
      simp only [List.mem_cons, List.not_mem_nil, or_false] at hf
      rcases hf with rfl | rfl | rfl
      · exact wgeUtil_quiet _ _ u
      · exact wtUtil_quiet apart _ u
      · exact rel_ite (present_quiet (apart _ (by decide)) _ _ u) (.refl _ u)) (s.setCpm (s.cpm.evaluated s.cfg))
  exact (setCpm_quiet _ s _).after ((before.after (evalReports_queued _ _ u)).before after)

/-! ### The chart and the derating (R137, R144) -/

/-- The first enabled override slot that names a page (R137, R138). -/
theorem overrideFor_first {ovs : Vector Override 3} {page : Nat} {i : Fin 3} (here : ovs[i].enable = true ∧ ovs[i].page = page)
    (first : ∀ j : Fin 3, j.val < i.val → ¬(ovs[j].enable = true ∧ ovs[j].page = page)) : overrideFor ovs page = some i := by
  unfold overrideFor
  rw [List.find?_eq_some_iff_getElem]
  refine ⟨by simpa using here, i.val, by simp, by simp, fun j below => ?_⟩
  simpa [imp_iff_not_or] using first ⟨j, by omega⟩ below

theorem overrideFor_none {ovs : Vector Override 3} {page : Nat} (none : ∀ j : Fin 3, ¬(ovs[j].enable = true ∧ ovs[j].page = page)) :
    overrideFor ovs page = .none := by simpa [overrideFor] using none

section lookup
variable {cap : CapParams} {ovs : Vector Override 3} {r : Nat}

theorem chartLookup_page : (chartLookup cap ovs r).page = r / cap.pageSize := by
  unfold chartLookup
  dsimp only
  split
  · split
    · split <;> rfl
    · rfl
  · rfl

/-- A reach beyond the chart (R137). -/
theorem chartLookup_beyond (beyond : 64 ≤ r / cap.pageSize) :
    (chartLookup cap ovs r).cap = 0 ∧ (chartLookup cap ovs r).derate = false := by
  simp [chartLookup, Nat.not_lt.2 beyond]

variable {k : Fin 64} (page : k.val = r / cap.pageSize)
include page

/-- A page whose chart entry is not valid (R137). -/
theorem chartLookup_invalid (invalid : cap.chart[k].valid = false) :
    (chartLookup cap ovs r).cap = 0 ∧ (chartLookup cap ovs r).derate = false := by
  have invalid : cap.chart[k.val].valid = false := invalid
  simp [chartLookup, ← page, invalid]

/-- A valid page, with the override slot that names it or without one (R137). -/
theorem chartLookup_valid (valid : cap.chart[k].valid = true) :
    (chartLookup cap ovs r).cap = (match overrideFor ovs (r / cap.pageSize) with | some i => ovs[i].value | none => cap.chart[k].cap) ∧
      (chartLookup cap ovs r).derate = cap.chart[k].derate := by
  have valid : cap.chart[k.val].valid = true := valid
  cases named : overrideFor ovs (r / cap.pageSize) <;> simp [chartLookup, ← page, valid, page ▸ named]

end lookup

/-- F by the derate mark, the switch and the slope (R144). -/
theorem derateFactor_rows (cfg : Settings) (derate : Bool) (t : Marked) :
    (cfg.sw.sectorDerate = false ∨ derate = false → derateFactor cfg derate t = 1024) ∧
    (cfg.sw.sectorDerate = true → derate = true →
      (t.ok = false → derateFactor cfg derate t = cfg.cap.fMin) ∧ (t.ok = true → t.val ≤ 0 → derateFactor cfg derate t = 1024) ∧
      (t.ok = true → 0 < t.val →
        (derateFactor cfg derate t : Int) = max (cfg.cap.fMin : Int) (1024 - (t.val * cfg.cap.k).tdiv 10))) := by
  refine ⟨fun off => ?_, fun on marked => ⟨fun invalid => ?_, fun ok level => ?_, fun ok downhill => ?_⟩⟩
  · simp only [derateFactor]
    rcases off with off | off <;> simp [off]
  · simp [derateFactor, on, marked, invalid]
  · simp [derateFactor, on, marked, ok, level]
  · simp only [derateFactor, on, marked, ok, Int.not_le.2 downhill, truncDiv]
    simp
    omega

/-! ### What an evaluation forms (R143, R147) -/

section formed
variable (cfg : Settings) (c : Cpm)

@[simp] theorem Cpm.formFigures_monitor : (c.formFigures cfg).monitor = c.monitor := by unfold Cpm.formFigures; split <;> rfl
@[simp] theorem Cpm.formFigures_permit : (c.formFigures cfg).permit = c.permit := by unfold Cpm.formFigures; split <;> rfl
@[simp] theorem Cpm.formFigures_liftCopy : (c.formFigures cfg).liftCopy = c.liftCopy := by unfold Cpm.formFigures; split <;> rfl
@[simp] theorem Cpm.formFigures_liveCopy : (c.formFigures cfg).liveCopy = c.liveCopy := by unfold Cpm.formFigures; split <;> rfl
@[simp] theorem Cpm.formFigures_poseCopy : (c.formFigures cfg).poseCopy = c.poseCopy := by unfold Cpm.formFigures; split <;> rfl

/-- The state is formed of U; the figures and the permit have no part in it (R143). -/
theorem Cpm.formState_rest : c.formState cfg =
    { c with u := (c.formState cfg).u, uOk := (c.formState cfg).uOk, monitor := (c.formState cfg).monitor } := by
  unfold Cpm.formState
  dsimp only
  split
  case h_1 => rfl
  all_goals split <;> rfl

/-- An evaluation forms the figures, then the state, and ends the permit with HOLD (R143, R153). -/
theorem Cpm.evaluated_eq : c.evaluated cfg =
    { (c.formFigures cfg).formState cfg with
      permit := if ((c.formFigures cfg).formState cfg).monitor = .hold then c.permit else none } := by
  have permit : ((c.formFigures cfg).formState cfg).permit = c.permit := by
    rw [Cpm.formState_rest]
    exact c.formFigures_permit cfg
  unfold Cpm.evaluated
  dsimp only
  split
  · rw [← permit]
  · rfl

theorem Cpm.evaluated_ends : (c.evaluated cfg).permit = if (c.evaluated cfg).monitor = .hold then c.permit else none := by
  rw [Cpm.evaluated_eq]

/-- The chart figures after an evaluation are those it formed. -/
theorem Cpm.evaluated_figures : (c.evaluated cfg).page = (c.formFigures cfg).page ∧ (c.evaluated cfg).f = (c.formFigures cfg).f ∧
    (c.evaluated cfg).cEff = (c.formFigures cfg).cEff ∧ (c.evaluated cfg).figOk = (c.formFigures cfg).figOk := by
  rw [Cpm.evaluated_eq, Cpm.formState_rest]
  exact ⟨rfl, rfl, rfl, rfl⟩

/-- The state and U after an evaluation are those formed of the figures. -/
theorem Cpm.evaluated_state : (c.evaluated cfg).monitor = ((c.formFigures cfg).formState cfg).monitor ∧
    (c.evaluated cfg).u = ((c.formFigures cfg).formState cfg).u ∧ (c.evaluated cfg).uOk = ((c.formFigures cfg).formState cfg).uOk := by
  rw [Cpm.evaluated_eq]
  exact ⟨rfl, rfl, rfl⟩

variable {cfg c}

theorem Cpm.evaluated_open (lift : c.liftCopy = .open_) :
    (c.evaluated cfg).monitor = .normal ∧ (c.evaluated cfg).u = 0 ∧ (c.evaluated cfg).uOk = true := by
  obtain ⟨m, u, ok⟩ := c.evaluated_state cfg
  rw [m, u, ok]
  simp [Cpm.formState, lift]

theorem Cpm.evaluated_gripped (lift : c.liftCopy = .gripped) : (c.evaluated cfg).u = 0 ∧
    (c.liveCopy.ok = true ∧ c.poseCopy.valid = true → (c.evaluated cfg).monitor = .normal ∧ (c.evaluated cfg).uOk = true) := by
  obtain ⟨m, u, ok⟩ := c.evaluated_state cfg
  rw [m, u, ok]
  unfold Cpm.formState
  simp only [Cpm.formFigures_liftCopy, lift, Cpm.formFigures_liveCopy, Cpm.formFigures_poseCopy]
  split
  · exact ⟨rfl, fun _ => ⟨rfl, rfl⟩⟩
  · next blind => exact ⟨rfl, fun seen => absurd (by simpa using seen) blind⟩

/-- An input that is not valid makes a lift's evaluation blind, and beyond GRIPPED holds U (R143, R147). -/
theorem Cpm.evaluated_blind (lift : c.liftCopy ≠ .open_) (blind : ¬(c.liveCopy.ok = true ∧ c.poseCopy.valid = true)) :
    (c.evaluated cfg).monitor = .blind ∧ (c.evaluated cfg).uOk = false ∧
      (c.liftCopy ≠ .gripped → (c.evaluated cfg).u = c.u) := by
  obtain ⟨m, u, ok⟩ := c.evaluated_state cfg
  rw [m, u, ok]
  have unseen : (c.liveCopy.ok && c.poseCopy.valid) = false := by simpa using blind
  unfold Cpm.formState
  simp only [Cpm.formFigures_liftCopy, Cpm.formFigures_liveCopy, Cpm.formFigures_poseCopy, unseen]
  cases stage : c.liftCopy
  case open_ => exact absurd stage lift
  case gripped => exact ⟨rfl, rfl, fun up => absurd rfl up⟩
  all_goals exact ⟨rfl, rfl, fun _ => Cpm.formFigures_u cfg c⟩

/-- A lift beyond GRIPPED with both inputs valid (R145, R146). -/
theorem Cpm.evaluated_seen (lift : c.liftCopy = .carrying ∨ c.liftCopy = .weighed) (live : c.liveCopy.ok = true)
    (pose : c.poseCopy.valid = true) :
    (c.evaluated cfg).u = utilisation c.liveCopy.val (c.evaluated cfg).cEff ∧ (c.evaluated cfg).uOk = true ∧
      (c.evaluated cfg).monitor = nextMonitor cfg.cap c.monitor (c.evaluated cfg).u := by
  obtain ⟨m, u, ok⟩ := c.evaluated_state cfg
  obtain ⟨-, -, cEff, -⟩ := c.evaluated_figures cfg
  rw [m, u, ok, cEff]
  rcases lift with lift | lift <;> simp [Cpm.formState, lift, live, pose]

/-- Without a valid pose the figures are held, marked invalid (R143). -/
theorem Cpm.evaluated_held (pose : c.poseCopy.valid = false) : (c.evaluated cfg).page = c.page ∧ (c.evaluated cfg).f = c.f ∧
    (c.evaluated cfg).cEff = c.cEff ∧ (c.evaluated cfg).figOk = false := by
  obtain ⟨page, f, cEff, ok⟩ := c.evaluated_figures cfg
  rw [page, f, cEff, ok]
  simp [Cpm.formFigures, pose]

/-- With a valid pose the figures are those of the chart's lookup (R137, R144, R145). -/
theorem Cpm.evaluated_looked (pose : c.poseCopy.valid = true) :
    let l := chartLookup cfg.cap c.overrides c.poseCopy.r.val.toNat
    (c.evaluated cfg).page = l.page ∧ (c.evaluated cfg).f = derateFactor cfg l.derate c.poseCopy.t ∧
      (c.evaluated cfg).cEff = effectiveCap l.cap (c.evaluated cfg).f ∧ (c.evaluated cfg).figOk = true := by
  obtain ⟨page, f, cEff, ok⟩ := c.evaluated_figures cfg
  rw [page, f, cEff, ok]
  simp [Cpm.formFigures, pose]

end formed

/-- A change of CPM's state is reported with the figures, and an ended permit with its cause (R151, R153, R222). -/
theorem evaluationItems_eq (cfg : Settings) (c : Cpm) : evaluationItems c (c.evaluated cfg) =
    (if (c.evaluated cfg).monitor = c.monitor then [] else
      [(.capacity, be1 (c.evaluated cfg).monitor.num ++ be1 c.monitor.num ++ be2 (c.evaluated cfg).u ++ be2 (c.evaluated cfg).cEff ++
        be1 (c.evaluated cfg).page ++ be1 (bitOf 0 (c.evaluated cfg).uOk + bitOf 1 (c.evaluated cfg).figOk +
          bitOf 2 (c.evaluated cfg).figOk) ++ be1 c.poseCopy.sector.num)]) ++
      (if c.permit.isSome = true ∧ (c.evaluated cfg).permit = none then
        [(.permitEnd, be1 (if c.liftCopy = .open_ then 2 else 1))] else []) := by
  obtain ⟨-, lift, -, pose⟩ := Cpm.evaluated_copies cfg c
  have cause : (c.evaluated cfg).endCause.num = if c.liftCopy = .open_ then 2 else 1 := by
    unfold Cpm.endCause
    rw [lift]
    split <;> rfl
  unfold evaluationItems capacityBody
  rw [cause, pose]
  simp only [eq_comm]

/-- Settles O52: an evaluation's copies, state, figures and permit by their rows (`Cpm.evaluated_blind`, `Cpm.evaluated_seen`,
`Cpm.evaluated_looked`), and its hand-overs, of which one moves the peak, one WT's U, and one queues (`cpmEvaluate_wge`,
`cpmEvaluate_wtU`, `cpmEvaluate_queued`). -/
theorem evaluationRules : Obligations.EvaluationRules := by
  unfold Obligations.EvaluationRules
  refine ⟨fun _ _ _ _ => ⟨rfl, rfl, rfl⟩, fun s => ?_⟩
  intro t c seen
  have cpm : t.cpm = c.evaluated s.cfg := cpmEvaluate_cpm s
  have handed : HandedOn s t := cpmEvaluate_handedOn s
  have permit : t.cpm.permit = if t.cpm.monitor = .hold then c.permit else none := by
    rw [cpm]
    exact c.evaluated_ends s.cfg
  refine ⟨?_, ?_, fun lift invalid => ?_, fun lift unseen => ?_, ?_, ?_, fun pose => ?_, permit, ?_, ?_, fun l lift up => ?_, ?_,
    handed.sbc, handed.pos, handed.tlu, handed.stc, handed.slots, handed.z, handed.span, handed.liftState⟩
  · rw [cpm]
    exact Cpm.evaluated_open
  · rw [cpm]
    exact Cpm.evaluated_gripped
  · have unseen : ¬seen := fun both => by
      rcases invalid with no | no
      · exact absurd both.1 (by simp [no])
      · exact absurd both.2 (by simp [no])
    obtain ⟨blind, ok, -⟩ := Cpm.evaluated_blind (cfg := s.cfg) lift unseen
    rw [← cpm] at blind ok
    exact ⟨blind, ok, by simp [permit, blind]⟩
  · rw [cpm]
    exact (Cpm.evaluated_blind (by rcases lift with lift | lift <;> simp [lift]) unseen).2.2
      (by rcases lift with lift | lift <;> simp [lift])
  · rw [cpm]
    exact Cpm.evaluated_seen
  · rw [cpm]
    exact Cpm.evaluated_held
  · intro p slope row overridden
    obtain ⟨page, f, cEff, ok⟩ := Cpm.evaluated_looked (cfg := s.cfg) pose
    rw [← cpm] at page f cEff ok
    have rows {cap : Nat} {derate : Bool} (h : (chartLookup s.cfg.cap c.overrides c.poseCopy.r.val.toNat).cap = cap ∧
        (chartLookup s.cfg.cap c.overrides c.poseCopy.r.val.toNat).derate = derate) : row cap derate := by
      obtain ⟨rfl, rfl⟩ := h
      refine ⟨cEff, ?_⟩
      rw [f]
      exact derateFactor_rows s.cfg _ slope
    refine ⟨page.trans chartLookup_page, ok, fun beyond => rows (chartLookup_beyond beyond), fun k here => ?_⟩
    refine ⟨fun invalid => rows (chartLookup_invalid here invalid), fun i valid named first => ?_, fun valid free => ?_⟩
    · have named : overrideFor c.overrides p = some i := overrideFor_first named first
      have found := chartLookup_valid (ovs := c.overrides) here valid
      rw [show c.poseCopy.r.val.toNat / s.cfg.cap.pageSize = p from rfl, named] at found
      exact rows found
    · have named : overrideFor c.overrides p = none := overrideFor_none free
      have found := chartLookup_valid (ovs := c.overrides) here valid
      rw [show c.poseCopy.r.val.toNat / s.cfg.cap.pageSize = p from rfl, named] at found
      exact rows found
  · rw [cpm]
    exact cpmEvaluate_wtU s
  · rw [cpm]
    exact runAny_inSomeOrder _ _
  · rw [cpm, cpmEvaluate_wge]
    exact Wge.peaked_raised lift up _
  · rw [cpm, ← evaluationItems_eq]
    exact cpmEvaluate_queued s

end Sys2Proof.Machine
end

section
/-! PROOFS. Auto-zero, its step and its window in a LINK arrival (R61, R95 to R97): O44. -/

namespace Sys2Proof.Machine

/-! ### The step (R96) -/

/-- A quarter of an error, truncated, moves toward it by at most a quarter (R5, R96). -/
theorem tdiv_four_bounds (d : Int) : min 0 d ≤ d.tdiv 4 ∧ d.tdiv 4 ≤ max 0 d ∧ 4 * (d.tdiv 4).natAbs ≤ d.natAbs := by
  rcases Int.le_total 0 d with h | h
  · have := Int.tdiv_eq_ediv_of_nonneg (b := 4) h
    omega
  · have := Int.tdiv_eq_ediv_of_nonneg (a := -d) (b := 4) (by omega)
    rw [Int.neg_tdiv] at this
    omega

section complete
variable (w : Wge) {zb : Nat} (sumC : Int) {sumM : Int}

theorem Wge.azComplete_within (within : (meanOf sumM 64).natAbs ≤ zb) : w.azComplete zb sumC sumM =
    { w with z := w.z + (meanOf sumC 64 - w.z).tdiv 4, zeroSuspect := false, az := .empty } := if_pos within

theorem Wge.azComplete_beyond (beyond : zb < (meanOf sumM 64).natAbs) : w.azComplete zb sumC sumM =
    { w with zeroSuspect := true, az := .empty } := if_neg (Nat.not_le.2 beyond)

end complete

/-- A completed window moves z toward the mean count by at most a quarter of the error, or leaves it (R96). -/
theorem Wge.azComplete_bounded (w : Wge) (zb : Nat) (sumC sumM : Int) :
    min w.z (meanOf sumC 64) ≤ (w.azComplete zb sumC sumM).z ∧ (w.azComplete zb sumC sumM).z ≤ max w.z (meanOf sumC 64) ∧
      4 * ((w.azComplete zb sumC sumM).z - w.z).natAbs ≤ (meanOf sumC 64 - w.z).natAbs := by
  rcases Nat.lt_or_ge zb (meanOf sumM 64).natAbs with beyond | within
  · rw [Wge.azComplete_beyond w sumC beyond]
    dsimp only
    omega
  · rw [Wge.azComplete_within w sumC within]
    dsimp only
    have quarter := tdiv_four_bounds (meanOf sumC 64 - w.z)
    omega

/-! ### The window in a LINK arrival (R61, R95) -/

theorem zeroSteady_iff (cfg : Settings) (prev : Option Int) (x : Mass) : zeroSteady cfg prev x = true ↔
    x.clipped = false ∧ ∃ m, prev = some m ∧ (x.m - m).natAbs ≤ cfg.weigh.d := by
  cases prev <;> simp [zeroSteady, diffSteady]

section sample
variable (w : Wge) {cfg : Settings} (c m : Int)

theorem Wge.azSample_joins (few : w.az.count < 63) : w.azSample cfg true c m =
    { w with az := { count := w.az.count + 1, sumC := w.az.sumC + c, sumM := w.az.sumM + m } } :=
  if_neg (show ¬64 ≤ w.az.count + 1 by omega)

theorem Wge.azSample_completes (last : 63 ≤ w.az.count) :
    w.azSample cfg true c m = w.azComplete cfg.weigh.zb (w.az.sumC + c) (w.az.sumM + m) :=
  if_pos (show 64 ≤ w.az.count + 1 by omega)

/-- A sample leaves the lift and the works to the steps that are theirs. -/
theorem Wge.azSample_rest (steady : Bool) : (w.azSample cfg steady c m).lift = w.lift ∧ (w.azSample cfg steady c m).tare = w.tare ∧
    (w.azSample cfg steady c m).cal = w.cal ∧ (w.azSample cfg steady c m).live = w.live ∧
    (w.azSample cfg steady c m).liveVal = w.liveVal := by
  unfold Wge.azSample Wge.azComplete
  split
  · split
    · split <;> exact ⟨rfl, rfl, rfl, rfl, rfl⟩
    · exact ⟨rfl, rfl, rfl, rfl, rfl⟩
  · exact ⟨rfl, rfl, rfl, rfl, rfl⟩

end sample

@[simp] theorem Wge.takeLive_az (w : Wge) (m : Int) : (w.takeLive m).az = w.az := rfl

/-- With no lift and no work on, a LINK arrival is the live window, auto-zero and the previous mass (R61). -/
theorem linkWork_idle {s : State} (lift : s.wge.lift = none) (tare : s.wge.tare = none) (cal : s.wge.cal = none) (c : Int) (ov : Bool) :
    let x := massOf s.wge.z s.wge.span c ov
    (linkWork c ov s).wge = { (if s.cfg.sw.autoZero = true then
        (s.wge.takeLive x.m).azSample s.cfg (zeroSteady s.cfg s.wge.prev x) c x.m else s.wge.takeLive x.m) with prev := some x.m } := by
  intro x
  have steps : s.wge.steps123 s.cfg s.pos.pose c x = (if s.cfg.sw.autoZero = true then
      (s.wge.takeLive x.m).azSample s.cfg (zeroSteady s.cfg s.wge.prev x) c x.m else s.wge.takeLive x.m) := by
    simp [Wge.steps123, Wge.azRuns, Wge.takeLive, lift, tare]
  have idle : (s.wge.steps123 s.cfg s.pos.pose c x).lift = none ∧ (s.wge.steps123 s.cfg s.pos.pose c x).tare = none ∧
      (s.wge.steps123 s.cfg s.pos.pose c x).cal = none := by
    rw [steps]
    split
    · obtain ⟨l, t, k, -⟩ := Wge.azSample_rest (s.wge.takeLive x.m) (cfg := s.cfg) c x.m (zeroSteady s.cfg s.wge.prev x)
      exact ⟨l.trans lift, t.trans tare, k.trans cal⟩
    · exact ⟨lift, tare, cal⟩
  rw [← steps]
  obtain ⟨noLift, noTare, noCal⟩ := idle
  simp [linkWork, dropEndsCal, workSample, tareStep, calStep, Wge.liftState, x, noLift, noTare, noCal]

/-- Settles O44: a completed window by its two rows (`Wge.azComplete_bounded`), and a LINK arrival by `linkWork_idle`, whose hand-overs
leave z, the window and zero-suspect. -/
theorem autoZeroStepBounded : Obligations.AutoZeroStepBounded := by
  unfold Obligations.AutoZeroStepBounded
  refine ⟨fun w zb sumC sumM => ?_, fun c ov s held lift tare => ?_⟩
  · intro z' mean
    obtain ⟨low, high, quarter⟩ := w.azComplete_bounded zb sumC sumM
    rcases Nat.lt_or_ge zb (meanOf sumM 64).natAbs with beyond | within
    · have left := Wge.azComplete_beyond w sumC beyond
      refine ⟨(congrArg Wge.z left).trans (if_neg (Nat.not_le.2 beyond)).symm, low, high, quarter, ?_⟩
      rw [left]
      exact ⟨rfl, iff_of_true rfl (by exact_mod_cast beyond)⟩
    · have moved := Wge.azComplete_within w sumC within
      refine ⟨(congrArg Wge.z moved).trans (if_pos within).symm, low, high, quarter, ?_⟩
      rw [moved]
      exact ⟨rfl, iff_of_false nofun (by exact_mod_cast Nat.not_lt.2 within)⟩
  · intro x steady w meanC meanM
    have cal : s.wge.cal = none := by
      have open_ : s.wge.liftState = .open_ := by simp [Wge.liftState, lift]
      cases work : s.wge.cal with
      | none => rfl
      | some _ =>
        have up := held (by rw [work]; rfl)
        rw [open_] at up
        rcases up with up | up <;> cases up
    have handed := linkArrival_handedOn c ov s
    have az : w.az = (linkWork c ov s).wge.az := handed.az
    have z : w.z = (linkWork c ov s).wge.z := handed.z
    have suspect : w.zeroSuspect = (linkWork c ov s).wge.zeroSuspect := handed.zeroSuspect
    rw [linkWork_idle lift tare cal] at az z suspect
    have isSteady : zeroSteady s.cfg s.wge.prev x = true ↔ steady := zeroSteady_iff _ _ _
    rw [show massOf s.wge.z s.wge.span c ov = x from rfl] at az z suspect
    refine ⟨fun off => ?_, fun on => ?_⟩
    · rw [az, z, suspect, if_neg (by simp [off])]
      exact ⟨rfl, rfl, rfl⟩
    rw [if_pos on] at az z suspect
    refine ⟨fun not => ?_, fun yes few => ?_, fun yes last => ?_⟩
    · rw [az, z, suspect, Bool.eq_false_iff.2 (mt isSteady.1 not)]
      exact ⟨rfl, rfl, rfl⟩
    · rw [az, z, suspect, isSteady.2 yes, Wge.azSample_joins (s.wge.takeLive x.m) c x.m few]
      exact ⟨rfl, rfl, rfl⟩
    · rw [isSteady.2 yes, Wge.azSample_completes (s.wge.takeLive x.m) c x.m last, Wge.takeLive_az] at az z suspect
      rcases Nat.lt_or_ge s.cfg.weigh.zb meanM.natAbs with beyond | within
      · rw [Wge.azComplete_beyond _ _ beyond] at az z suspect
        exact ⟨az, fun within => absurd within (Nat.not_le.2 beyond), fun _ => ⟨z, suspect⟩⟩
      · rw [Wge.azComplete_within _ _ within] at az z suspect
        exact ⟨az, fun _ => ⟨z, suspect⟩, fun beyond => absurd within (Nat.not_le.2 beyond)⟩

end Sys2Proof.Machine
end

section
/-! PROOFS. The outcome of a released lift, and a completed lift in the tally (R81, R114 to R120, R123 to R125, R132): O43. -/

namespace Sys2Proof.Machine

/-! ### The outcome (R81) -/

theorem outcomeOf_service (m : Option Nat) (origin dest : Zone) : outcomeOf .service m origin dest = .test := rfl

theorem outcomeOf_unweighed {op : OpState} (work : op ≠ .service) (origin dest : Zone) :
    outcomeOf op none origin dest = .unweighed := if_neg work

/-- A weighed lift outside SERVICE, by its two zones (R81). -/
theorem outcomeOf_weighed {op : OpState} (work : op ≠ .service) (v : Nat) (origin dest : Zone) :
    (origin = .unknown ∨ dest = .unknown → outcomeOf op (some v) origin dest = .unzoned) ∧
    (origin = .field_ → dest = .bunk → outcomeOf op (some v) origin dest = .add) ∧
    (origin = .bunk → dest = .field_ → outcomeOf op (some v) origin dest = .remove) ∧
    (origin = .field_ → dest = .field_ → outcomeOf op (some v) origin dest = .return_) ∧
    (origin = .bunk → dest = .bunk → outcomeOf op (some v) origin dest = .move) := by
  unfold outcomeOf
  rw [if_neg work]
  cases origin <;> cases dest <;> simp

/-! ### The table (R109) -/

/-- The slot of an id holds it. -/
theorem Tlu.slotOf_holds {t : Tlu} {id : Nat} {i : Fin 16} {x : AsnSlot} (slot : t.slotOf id = some i) (held : t.table[i] = some x) :
    x.id = id := by
  have found := List.find?_some slot
  rw [held] at found
  simpa using found

theorem Tlu.figures_held {t : Tlu} {id : Nat} {i : Fin 16} {x : AsnSlot} (slot : t.slotOf id = some i) (held : t.table[i] = some x) :
    t.figures id = x := by
  unfold Tlu.figures
  rw [slot]
  dsimp only
  rw [held]
  rfl

theorem Tlu.update_slot {t : Tlu} {id : Nat} {i : Fin 16} (slot : t.slotOf id = some i) (y : AsnSlot) :
    t.update id y = { t with table := t.table.set i (some y) } := by
  unfold Tlu.update
  rw [slot]

theorem Tlu.update_history (t : Tlu) (id : Nat) (y : AsnSlot) : (t.update id y).history = t.history := by
  unfold Tlu.update
  split <;> rfl

theorem Tlu.update_current (t : Tlu) (id : Nat) (y : AsnSlot) : (t.update id y).current = t.current := by
  unfold Tlu.update
  split <;> rfl

theorem Tlu.bunkEmpty_iff (t : Tlu) : t.bunkEmpty = true ↔ ∀ y ∈ t.slots, y.bunkMass = 0 ∧ y.bunkCount = 0 := by
  simp [Tlu.bunkEmpty]

/-! ### The trip (R122 to R125) -/

theorem touchEntry_touched (id : Nat) (change : TripEntry → TripEntry) (list : List TripEntry) :
    Touched id change list (touchEntry list id change) := by
  unfold touchEntry
  refine ⟨fun listed => ?_, fun absent => ?_⟩
  · rw [if_pos (by simpa using listed)]
    simp only [beq_iff_eq]
  · exact if_neg (by simpa using absent)

theorem Trip.open_iff (t : Trip) : t.open? = true ↔ t.state ≠ .empty := by simp [Trip.open?]

theorem Trip.current_eq (t : Trip) : t.current = if t.state = .empty then none else some t.number := by
  unfold Trip.current
  by_cases closed : t.state = .empty <;> simp [Trip.open?, closed]

theorem Trip.applied_lifts (t : Trip) (lift : Nat) {first last : Nat} (h : t.lifts = some (first, last)) :
    (t.applied lift).lifts = some (first, lift) := by simp [Trip.applied, h]

theorem Trip.add_open {t : Trip} (isOpen : t.state ≠ .empty) (id m lift : Nat) :
    t.add id m lift = { t.applied lift with list := touchEntry t.list id (.add m) } := by
  unfold Trip.add
  rw [if_pos (t.open_iff.2 isOpen)]

theorem Trip.add_opens {t : Trip} (closed : t.state = .empty) (id m lift : Nat) :
    t.add id m lift = { t.opened lift with list := touchEntry [] id (.add m) } := by
  unfold Trip.add
  rw [if_neg (by simp [Trip.open?, closed])]
  rfl

/-- The trip of an applied ADD is open (R123). -/
theorem Trip.add_state (t : Trip) (id m lift : Nat) : (t.add id m lift).state ≠ .empty := by
  by_cases closed : t.state = .empty
  · rw [Trip.add_opens closed]
    exact nofun
  · rw [Trip.add_open closed]
    exact closed

theorem Trip.remove_open {t : Trip} (isOpen : t.state ≠ .empty) (id : Nat) (p : Split) (lift : Nat) :
    t.remove id p lift = { t.applied lift with state := .unloading, list := touchEntry t.list id (.remove p) } :=
  if_pos (t.open_iff.2 isOpen)

theorem Trip.remove_closed {t : Trip} (closed : t.state = .empty) (id : Nat) (p : Split) (lift : Nat) :
    t.remove id p lift = t := if_neg (by simp [Trip.open?, closed])

/-! ### An ADD, a REMOVE, and neither (R116 to R118) -/

theorem Tlu.applyAdd_added (t : Tlu) (id m lift : Nat) : t.Added (t.applyAdd id m lift).tlu id m lift := by
  have touched (list : List TripEntry) := touchEntry_touched id (.add m) list
  have trip : (t.applyAdd id m lift).tlu.trip = t.trip.add id m lift := rfl
  unfold Tlu.Added
  rw [trip]
  refine ⟨fun i x slot held => ?_, fun closed => ?_, fun isOpen => ?_, t.update_history _ _, t.update_current _ _⟩
  · unfold Tlu.applyAdd
    rw [Tlu.update_slot slot, Tlu.figures_held slot held]
    simp [AsnSlot.add, addCount, addMass, countOver, massOver, Bool.or_assoc]
  · rw [Trip.add_opens closed]
    exact ⟨rfl, rfl, rfl, rfl, rfl, touched []⟩
  · rw [Trip.add_open isOpen]
    exact ⟨rfl, touched _, fun _ _ => t.trip.applied_lifts lift⟩

theorem Tlu.applyAdd_trip (t : Tlu) (id m lift : Nat) :
    (t.applyAdd id m lift).trip = some (t.applyAdd id m lift).tlu.trip.number :=
  (Trip.current_eq _).trans (if_neg (t.trip.add_state id m lift))

/-- The table and the trip of a REMOVE, before its trip may close (R117, R123, R124). -/
def Tlu.removed (t : Tlu) (id m lift : Nat) : Tlu :=
  { t.update id ((t.figures id).remove ((t.figures id).split m)) with trip := t.trip.remove id ((t.figures id).split m) lift }

/-- A REMOVE closes an open trip when it leaves the bunk empty (R123, R125). -/
theorem Tlu.applyRemove_closed (t : Tlu) (id m lift : Nat) : (t.applyRemove id m lift).closed = true ↔
    t.trip.state ≠ .empty ∧ ∀ y ∈ (t.removed id m lift).slots, y.bunkMass = 0 ∧ y.bunkCount = 0 := by
  rw [← Trip.open_iff, ← Tlu.bunkEmpty_iff, ← Bool.and_eq_true]
  rfl

theorem Tlu.applyRemove_tlu (t : Tlu) (id m lift : Nat) : (t.applyRemove id m lift).tlu =
    if (t.applyRemove id m lift).closed = true then (t.removed id m lift).close .emptied else t.removed id m lift := rfl

theorem Tlu.applyRemove_table (t : Tlu) (id m lift : Nat) :
    (t.applyRemove id m lift).tlu.table = (t.removed id m lift).table ∧ (t.applyRemove id m lift).tlu.current = t.current := by
  have current : (t.removed id m lift).current = t.current := t.update_current _ _
  rw [Tlu.applyRemove_tlu]
  split <;> exact ⟨rfl, current⟩

theorem Tlu.applyRemove_removed {t : Tlu} {id m lift : Nat} {i : Fin 16} {x : AsnSlot} (slot : t.slotOf id = some i)
    (held : t.table[i] = some x) : t.Removed (t.applyRemove id m lift).tlu i x m lift := by
  have figures := Tlu.figures_held slot held
  obtain ⟨table, current⟩ := t.applyRemove_table id m lift
  have emptied : (∀ y ∈ (t.applyRemove id m lift).tlu.slots, y.bunkMass = 0 ∧ y.bunkCount = 0) ↔
      ∀ y ∈ (t.removed id m lift).slots, y.bunkMass = 0 ∧ y.bunkCount = 0 := by
    unfold Tlu.slots
    rw [table]
  have closes := t.applyRemove_closed id m lift
  have history : (t.removed id m lift).history = t.history := t.update_history _ _
  have trip : (t.removed id m lift).trip = t.trip.remove id (x.split m) lift := by rw [← figures]; rfl
  refine ⟨?_, fun closed => ?_, fun isOpen => ?_, current⟩
  · rw [table]
    unfold Tlu.removed
    rw [Tlu.update_slot slot, figures]
    by_cases some : 0 < x.bunkCount
    · simp [AsnSlot.remove, AsnSlot.split, addCount, addMass, countOver, massOver, some, Bool.or_assoc]
    · simp [AsnSlot.remove, AsnSlot.split, addCount, addMass, countOver, massOver, Bool.or_assoc, Nat.eq_zero_of_not_pos some]
  · rw [Tlu.applyRemove_tlu, if_neg (fun h => (closes.1 h).1 closed), trip, Trip.remove_closed closed]
    exact ⟨rfl, history⟩
  · rw [Trip.remove_open isOpen] at trip
    have lifts : ∀ first last, t.trip.lifts = some (first, last) → (t.removed id m lift).trip.lifts = some (first, lift) := by
      rw [trip]
      exact fun _ _ => t.trip.applied_lifts lift
    have touched : Touched x.id (fun e => { e with
        removedMass := min massMax (e.removedMass + min m x.bunkMass)
        removedCount := if 0 < x.bunkCount then min countMax (e.removedCount + 1) else e.removedCount })
        t.trip.list (t.removed id m lift).trip.list := by
      have entry : TripEntry.remove (x.split m) = (fun e => { e with
          removedMass := min massMax (e.removedMass + min m x.bunkMass)
          removedCount := if 0 < x.bunkCount then min countMax (e.removedCount + 1) else e.removedCount }) := by
        funext e
        simp [TripEntry.remove, AsnSlot.split, addMass, addCount]
      rw [← entry, trip, Tlu.slotOf_holds slot held]
      exact touchEntry_touched _ _ _
    have number : (t.removed id m lift).trip.number = t.trip.number := by rw [trip]; rfl
    have written : (t.removed id m lift).trip.writtenOff = t.trip.writtenOff := by rw [trip]; rfl
    have rows : (t.applyRemove id m lift).tlu.trip.number = t.trip.number ∧
        (t.applyRemove id m lift).tlu.trip.writtenOff = t.trip.writtenOff ∧
        (t.applyRemove id m lift).tlu.trip.list = (t.removed id m lift).trip.list ∧
        (t.applyRemove id m lift).tlu.trip.lifts = (t.removed id m lift).trip.lifts := by
      rw [Tlu.applyRemove_tlu]
      split <;> exact ⟨number, written, rfl, rfl⟩
    obtain ⟨number, written, list, lift'⟩ := rows
    refine ⟨number, written, ?_, ?_, fun left => ?_, fun empty => ?_⟩
    · rw [list]
      exact touched
    · rw [lift']
      exact lifts
    · rw [Tlu.applyRemove_tlu, if_neg (fun h => left (emptied.2 (closes.1 h).2)), trip]
      exact ⟨rfl, rfl, history⟩
    · rw [Tlu.applyRemove_tlu, if_pos (closes.2 ⟨isOpen, emptied.1 empty⟩)]
      refine ⟨rfl, rfl, ?_⟩
      simp [Tlu.close, lastN, history]

/-- The trip closes exactly when an open one is no longer open after the lift (R123, R125). -/
theorem Tlu.apply_closed (t : Tlu) (o : LiftOutcome) (id : Nat) (mass : Option Nat) (lift : Nat) :
    (t.apply o id mass lift).closed = true ↔ t.trip.state ≠ .empty ∧ (t.apply o id mass lift).tlu.trip.state = .empty := by
  unfold Tlu.apply
  split
  · next m => exact iff_of_false nofun (fun h => t.trip.add_state id m lift h.2)
  · next m =>
    rw [Tlu.applyRemove_tlu]
    by_cases closed : (t.applyRemove id m lift).closed = true
    · rw [if_pos closed]
      exact iff_of_true closed ⟨((t.applyRemove_closed id m lift).1 closed).1, rfl⟩
    · rw [if_neg closed]
      refine iff_of_false closed (fun ⟨isOpen, empty⟩ => ?_)
      have trip : (t.removed id m lift).trip = _ := Trip.remove_open isOpen _ _ _
      rw [trip] at empty
      cases empty
  · exact iff_of_false nofun (fun h => h.1 h.2)

theorem Tlu.apply_nothing (t : Tlu) {o : LiftOutcome} (add : o ≠ .add) (remove : o ≠ .remove) (id : Nat) (mass : Option Nat) (lift : Nat) :
    t.apply o id mass lift = t.applyNothing := by
  unfold Tlu.apply
  split
  · exact absurd rfl add
  · exact absurd rfl remove
  · rfl

/-! ### A completed lift (R114) -/

theorem takeCompletedLift_tlu (c : CompletedLift) (s : State) : (takeCompletedLift c s).tlu = (s.tlu.handOver c).tlu :=
  (takeCompletedLift_handedOn c s).tlu

/-- The trip a hand-over closed (R123, R125). -/
theorem Tlu.handOver_closed (t : Tlu) (c : CompletedLift) :
    (t.handOver c).closed = true ↔ t.trip.state ≠ .empty ∧ (t.handOver c).tlu.trip.state = .empty :=
  t.apply_closed c.outcome _ c.mass t.nextLift

/-- A hand-over by what applying its outcome gives (R114). -/
theorem Tlu.handOver_of {t : Tlu} {c : CompletedLift} {a : Applied}
    (applied : t.apply c.outcome (if t.defined c.tag = true then c.tag else 0) c.mass t.nextLift = a) :
    (t.handOver c).tlu = { a.tlu with nextLift := liftAfter t.nextLift, log := lastN 64 (t.log ++ [(t.handOver c).record]) } ∧
      (t.handOver c).record = recordOf c t.nextLift (if t.defined c.tag = true then c.tag else 0) a := by
  subst applied
  exact ⟨rfl, rfl⟩

/-- LIFT_DONE, then TRIP_CLOSED when the lift closed the trip, then the bunk total (R114, R120, R125, R132). -/
theorem takeCompletedLift_eq (c : CompletedLift) (s : State) : takeCompletedLift c s = handBunkTotal s.tlu.bunkTotal
    (let v := (s.setTlu (takeCompletedLift c s).tlu).queueReport .liftDone (liftRecordBytes (s.tlu.handOver c).record)
     if s.tlu.trip.state ≠ .empty ∧ (takeCompletedLift c s).tlu.trip.state = .empty then
       reportTripClosed (takeCompletedLift c s).tlu.trip v else v) := by
  rw [takeCompletedLift_tlu]
  simp only [← Tlu.handOver_closed]
  rfl

/-- Settles O43: the rows of R81, and a completed lift's record, reports and hand-over (`takeCompletedLift_eq`), with what applying
its outcome gives (`Tlu.applyAdd_added`, `Tlu.applyRemove_removed`, `Tlu.apply_nothing`). -/
theorem completedLifts : Obligations.CompletedLifts := by
  unfold Obligations.CompletedLifts
  refine ⟨fun op m origin dest => ⟨?_, ?_, fun v work weighed => ?_⟩, fun c s => ?_⟩
  · rintro rfl
    exact outcomeOf_service m origin dest
  · rintro work rfl
    exact outcomeOf_unweighed work origin dest
  · subst weighed
    exact outcomeOf_weighed work v origin dest
  · intro t
    have tlu : t.tlu = (s.tlu.handOver c).tlu := takeCompletedLift_tlu c s
    have queued := takeCompletedLift_queued c s
    simp only [Tlu.handOver_closed, ← takeCompletedLift_tlu] at queued
    refine ⟨(s.tlu.handOver c).record, ?_, takeCompletedLift_eq c s, rfl, rfl, rfl, rfl, rfl, rfl, rfl, rfl, rfl, ?_, queued,
      fun add remove => ?_, fun m add weighed => ?_, fun m i x remove weighed slot held => ?_⟩
    · rw [tlu]
      simp [Tlu.handOver, lastN]
    · rw [tlu]
      rfl
    · obtain ⟨after, record⟩ := Tlu.handOver_of (s.tlu.apply_nothing add remove _ c.mass s.tlu.nextLift)
      rw [tlu, after, record]
      exact ⟨rfl, rfl, rfl, s.tlu.trip.current_eq⟩
    · obtain ⟨after, record⟩ := Tlu.handOver_of (t := s.tlu) (c := c) (by rw [add, weighed])
      rw [tlu, after, record]
      exact ⟨s.tlu.applyAdd_added _ _ _, s.tlu.applyAdd_trip _ _ _⟩
    · obtain ⟨after, record⟩ := Tlu.handOver_of (t := s.tlu) (c := c) (by rw [remove, weighed])
      rw [record] at slot
      have split := congrArg (AsnSlot.split · m) (Tlu.figures_held slot held)
      rw [tlu, after, record]
      refine ⟨Tlu.applyRemove_removed slot held, ?_, ?_, ?_, s.tlu.trip.current_eq⟩
      · exact congrArg Split.taken split
      · exact congrArg Split.excess split
      · exact (iff_of_eq (congrArg (· = true) (congrArg Split.countTaken split))).trans decide_eq_true_iff

end Sys2Proof.Machine
end

section
/-! PROOFS. A lift at a LINK sample, in each stage (R69 to R76): the first two parts of O45. -/

namespace Sys2Proof.Machine

/-! ### The drop test (R75, R76) -/

/-- A lift in CARRYING with its CLIPPED flag as a sample leaves it (R75). -/
def Lift.clipMarked (l : Lift) (x : Mass) : Lift := if x.clipped then { l with flags := { l.flags with clipped := true } } else l

theorem Lift.clipMarked_eq (l : Lift) (x : Mass) : l.clipMarked x = { l with flags := (l.clipMarked x).flags } := by
  unfold Lift.clipMarked
  split <;> rfl

/-- A low sample after four completes the drop run (R76). -/
theorem Lift.dropRun_completes {l : Lift} {lMin : Nat} {m : Int} (low : m < ((lMin / 2 : Nat) : Int)) (run : 4 ≤ l.drops) :
    5 ≤ l.dropRun lMin m := by
  unfold Lift.dropRun
  rw [if_pos low]
  omega

theorem Lift.dropRun_short {l : Lift} {lMin : Nat} {m : Int} (stays : ¬m < ((lMin / 2 : Nat) : Int) ∨ l.drops < 4) :
    ¬5 ≤ l.dropRun lMin m := by
  unfold Lift.dropRun
  split
  · next low => exact fun five => stays.elim (absurd low) (by omega)
  · omega

/-! ### CARRYING (R70 to R73) -/

/-- A lift in CARRYING after the CLIPPED mark and the drop test, before the window (R75, R76). -/
def Lift.carried (l : Lift) (lMin : Nat) (x : Mass) : Lift :=
  { l with flags := (l.clipMarked x).flags, drops := l.dropRun lMin x.m }

section carrying
variable {l : Lift} {cfg : Settings} {steady : Bool} {x : Mass}

theorem Lift.sample_confirms (stage : l.stage = .gripped) : l.sample cfg steady x = l.confirmSample cfg.weigh.lMin x.m := by
  unfold Lift.sample
  rw [stage]

theorem Lift.sample_carrying (stage : l.stage = .carrying) : l.sample cfg steady x = l.carrySample cfg steady x := by
  unfold Lift.sample
  rw [stage]

theorem Lift.carrySample_drops (low : x.m < ((cfg.weigh.lMin / 2 : Nat) : Int)) (run : 4 ≤ l.drops) :
    l.carrySample cfg steady x = (l.clipMarked x).dropped := if_pos (Lift.dropRun_completes low run)

theorem Lift.carrySample_stays (stays : ¬x.m < ((cfg.weigh.lMin / 2 : Nat) : Int) ∨ l.drops < 4) :
    l.carrySample cfg steady x =
      if steady = true then (l.carried cfg.weigh.lMin x).accept cfg.weigh.n x.m else (l.carried cfg.weigh.lMin x).reject := by
  have marked : { l.clipMarked x with drops := l.dropRun cfg.weigh.lMin x.m } = l.carried cfg.weigh.lMin x := by
    rw [Lift.clipMarked_eq]
    rfl
  rw [← marked]
  exact if_neg (Lift.dropRun_short stays)

theorem Lift.accept_full (l : Lift) {full : Nat} (m : Int) (h : full ≤ l.n + 1) : l.accept full m =
    { l with sum := l.sum + m, n := l.n + 1, rejects := 0, stage := .weighed, mass := some (resultOf (l.sum + m) (l.n + 1)) } :=
  if_pos h

theorem Lift.accept_joins (l : Lift) {full : Nat} (m : Int) (h : l.n + 1 < full) : l.accept full m =
    { l with sum := l.sum + m, n := l.n + 1, rejects := 0 } := if_neg (Nat.not_le.2 h)

theorem Lift.reject_restarts (l : Lift) (h : 11 ≤ l.rejects) : l.reject =
    { l with sum := 0, n := 0, rejects := 0, flags := { l.flags with restarted := true } } := if_pos (by omega)

theorem Lift.reject_counts (l : Lift) (h : l.rejects < 11) : l.reject = { l with rejects := l.rejects + 1 } := if_neg (by omega)

theorem resultOf_eq (sum : Int) (n : Nat) : resultOf sum n = (max 0 (roundDiv sum n)).toNat := by
  unfold resultOf meanOf
  omega

end carrying

/-! ### GRIPPED and WEIGHED (R69, R74) -/

/-- A sample in GRIPPED, by the load and by the samples before it (R69). -/
theorem Lift.sample_gripped {l : Lift} (stage : l.stage = .gripped) (cfg : Settings) (steady : Bool) (x : Mass) :
    (x.m < cfg.weigh.lMin → l.sample cfg steady x = { l with confirm := 0 }) ∧
    ((cfg.weigh.lMin : Int) ≤ x.m → l.confirm < 4 → l.sample cfg steady x = { l with confirm := l.confirm + 1 }) ∧
    ((cfg.weigh.lMin : Int) ≤ x.m → 4 ≤ l.confirm → l.sample cfg steady x =
      { l with confirm := l.confirm + 1, stage := .carrying, sum := 0, n := 0, rejects := 0, drops := 0 }) := by
  rw [Lift.sample_confirms stage]
  refine ⟨fun light => if_neg (Int.not_le.2 light), fun heavy few => ?_, fun heavy last => ?_⟩
  · exact (if_pos heavy).trans (if_neg (show ¬5 ≤ l.confirm + 1 by omega))
  · exact (if_pos heavy).trans (if_pos (show 5 ≤ l.confirm + 1 by omega))

/-- A sample in WEIGHED is put to the drop test alone (R74, R76). -/
theorem Lift.sample_weighed {l : Lift} (stage : l.stage = .weighed) (cfg : Settings) (steady : Bool) (x : Mass) :
    l.sample cfg steady x = if 5 ≤ l.dropRun cfg.weigh.lMin x.m then l.dropped else { l with drops := l.dropRun cfg.weigh.lMin x.m } := by
  have sampled : l.sample cfg steady x = l.weighedSample cfg.weigh.lMin x.m := by
    unfold Lift.sample
    rw [stage]
  exact sampled

theorem carryingRules (l : Lift) (cfg : Settings) (steady : Bool) (x : Mass) (stage : l.stage = .carrying) :
    let low := x.m < ((cfg.weigh.lMin / 2 : Nat) : Int)
    let l' := l.sample cfg steady x
    (low → 4 ≤ l.drops → l'.stage = .gripped ∧ l'.n = 0 ∧ l'.sum = 0 ∧ l'.confirm = 0 ∧ l'.mass = none ∧ l'.peakU = 0 ∧
      l'.origin = l.origin ∧ l'.tag = l.tag) ∧
    ((¬low ∨ l.drops < 4) → steady = true →
      l'.n = l.n + 1 ∧ l'.sum = l.sum + x.m ∧ l'.rejects = 0 ∧ l'.drops = (if low then l.drops + 1 else 0) ∧
      (cfg.weigh.n ≤ l.n + 1 →
        l'.stage = .weighed ∧ l'.mass = some (max 0 (roundDiv (l.sum + x.m) (l.n + 1))).toNat) ∧
      (l.n + 1 < cfg.weigh.n → l'.stage = .carrying ∧ l'.mass = l.mass)) ∧
    ((¬low ∨ l.drops < 4) → steady = false → l'.stage = .carrying ∧
      (11 ≤ l.rejects → l'.n = 0 ∧ l'.sum = 0 ∧ l'.rejects = 0 ∧ l'.flags.restarted = true) ∧
      (l.rejects < 11 → l'.n = l.n ∧ l'.sum = l.sum ∧ l'.rejects = l.rejects + 1)) := by
  intro low l'
  have sampled : l' = l.carrySample cfg steady x := Lift.sample_carrying stage
  refine ⟨fun isLow run => ?_, fun stays yes => ?_, fun stays no => ?_⟩
  · rw [sampled, Lift.carrySample_drops isLow run, Lift.clipMarked_eq]
    exact ⟨rfl, rfl, rfl, rfl, rfl, rfl, rfl, rfl⟩
  · rw [Lift.carrySample_stays stays, if_pos yes] at sampled
    rcases Nat.lt_or_ge (l.n + 1) cfg.weigh.n with short | full
    · rw [sampled, Lift.accept_joins (l.carried cfg.weigh.lMin x) x.m short]
      exact ⟨rfl, rfl, rfl, rfl, fun full => absurd short (Nat.not_lt.2 full), fun _ => ⟨stage, rfl⟩⟩
    · rw [sampled, Lift.accept_full (l.carried cfg.weigh.lMin x) x.m full, resultOf_eq]
      exact ⟨rfl, rfl, rfl, rfl, fun _ => ⟨rfl, rfl⟩, fun short => absurd short (Nat.not_lt.2 full)⟩
  · rw [Lift.carrySample_stays stays, if_neg (by simp [no])] at sampled
    rcases Nat.lt_or_ge l.rejects 11 with few | last
    · rw [sampled, Lift.reject_counts (l.carried cfg.weigh.lMin x) few]
      exact ⟨stage, fun last => absurd few (Nat.not_lt.2 last), fun _ => ⟨rfl, rfl, rfl⟩⟩
    · rw [sampled, Lift.reject_restarts (l.carried cfg.weigh.lMin x) last]
      exact ⟨stage, fun _ => ⟨rfl, rfl, rfl, rfl⟩, fun few => absurd few (Nat.not_lt.2 last)⟩

theorem grippedAndWeighedRules (l : Lift) (cfg : Settings) (steady : Bool) (x : Mass) :
    let low := x.m < ((cfg.weigh.lMin / 2 : Nat) : Int)
    let l' := l.sample cfg steady x
    (l.stage = .gripped → x.m < cfg.weigh.lMin → l' = { l with confirm := 0 }) ∧
    (l.stage = .gripped → (cfg.weigh.lMin : Int) ≤ x.m → l.confirm < 4 → l' = { l with confirm := l.confirm + 1 }) ∧
    (l.stage = .gripped → (cfg.weigh.lMin : Int) ≤ x.m → 4 ≤ l.confirm →
      l'.stage = .carrying ∧ l'.n = 0 ∧ l'.sum = 0 ∧ l'.rejects = 0 ∧ l'.drops = 0 ∧ l'.flags = l.flags) ∧
    (l.stage = .weighed → low → l.drops < 4 → l' = { l with drops := l.drops + 1 }) ∧
    (l.stage = .weighed → low → 4 ≤ l.drops → l'.stage = .gripped ∧ l'.mass = none ∧ l'.n = 0 ∧ l'.peakU = 0) ∧
    (l.stage = .weighed → ¬low → l' = { l with drops := 0 }) := by
  intro low l'
  refine ⟨fun stage => (Lift.sample_gripped stage cfg steady x).1, fun stage => (Lift.sample_gripped stage cfg steady x).2.1,
    fun stage heavy last => ?_, fun stage isLow few => ?_, fun stage isLow run => ?_, fun stage high => ?_⟩
  · rw [show l' = _ from (Lift.sample_gripped stage cfg steady x).2.2 heavy last]
    exact ⟨rfl, rfl, rfl, rfl, rfl, rfl⟩
  · rw [show l' = _ from Lift.sample_weighed stage cfg steady x, if_neg (Lift.dropRun_short (.inr few))]
    unfold Lift.dropRun
    rw [if_pos isLow]
  · rw [show l' = _ from Lift.sample_weighed stage cfg steady x, if_pos (Lift.dropRun_completes isLow run)]
    exact ⟨rfl, rfl, rfl, rfl⟩
  · rw [show l' = _ from Lift.sample_weighed stage cfg steady x, if_neg (Lift.dropRun_short (.inl high))]
    unfold Lift.dropRun
    rw [if_neg high]

end Sys2Proof.Machine
end

section
/-! PROOFS. What a change of the lift state and a live mass hand on, in whatever order (R61, R62, R64, R85, R142): the ground of O45. -/

namespace Sys2Proof.Machine

/-! ### Two hand-overs among others -/

section order
variable {R : State → State → Prop} (refl : ∀ s, R s s) (trans : ∀ s t u, R s t → R t u → R s u) (sched : ∀ s l, R s (s.setSched l))
include refl trans sched

/-- Hand-overs run one after another, none of which a relation has a part in. -/
theorem foldl_apart {gs : List ((State → State) × List Nat)} (each : ∀ g ∈ gs, ∀ s, R s (g.1 s)) (s : State) :
    R s (gs.foldl (fun s g => g.1 (s.setSched g.2)) s) := by
  induction gs generalizing s with
  | nil => exact refl s
  | cons g gs ih =>
    exact trans _ _ _ (trans _ _ _ (sched s g.2) (each g (by simp) _)) (ih (fun x hx => each x (by simp [hx])) _)

/-- One of them does what it would have done alone. -/
theorem foldl_around {before after : List ((State → State) × List Nat)} {g : (State → State) × List Nat}
    (each : ∀ x ∈ before ++ after, ∀ s, R s (x.1 s)) (same : ∀ s u, R s u → R (g.1 s) (g.1 u)) (s : State) :
    R (g.1 s) ((before ++ g :: after).foldl (fun s g => g.1 (s.setSched g.2)) s) := by
  rw [List.foldl_append, List.foldl_cons]
  have first := foldl_apart refl trans sched (fun x hx => each x (List.mem_append_left _ hx)) s
  exact trans _ _ _ (same _ _ (trans _ _ _ first (sched _ _)))
    (foldl_apart refl trans sched (fun x hx => each x (List.mem_append_right _ hx)) _)

/-- Of hand-overs run in an open order, two do what they would have done alone, in one of their two orders. -/
theorem runAny_two {f g : State → State} {rest fs : List (State → State)} (perm : fs.Perm (f :: g :: rest))
    (each : ∀ x ∈ rest, ∀ s, R s (x s)) (sameF : ∀ s u, R s u → R (f s) (f u)) (sameG : ∀ s u, R s u → R (g s) (g u)) (s : State) :
    R (g (f s)) (runAny fs s) ∨ R (f (g s)) (runAny fs s) := by
  obtain ⟨gs, order, e⟩ := runAny_inSomeOrder fs s
  have order := order.trans perm
  obtain ⟨x, memX, rfl⟩ := List.mem_map.1 (order.symm.subset (List.mem_cons_self (a := f) (l := g :: rest)))
  obtain ⟨a, b, rfl⟩ := List.append_of_mem memX
  have others : ((a ++ b).map Prod.fst).Perm (g :: rest) :=
    (List.perm_cons x.1).1 ((List.perm_middle.map Prod.fst).symm.trans order)
  obtain ⟨y, memY, rfl⟩ := List.mem_map.1 (others.symm.subset (List.mem_cons_self (a := g) (l := rest)))
  rw [e]
  rcases List.mem_append.1 memY with memY | memY
  · obtain ⟨a, a', rfl⟩ := List.append_of_mem memY
    have neither : ((a ++ (a' ++ b)).map Prod.fst).Perm rest := by
      refine (List.perm_cons y.1).1 (.trans ?_ others)
      simpa using (List.perm_middle (a := y) (l₁ := a) (l₂ := a' ++ b)).symm.map Prod.fst
    have apart : ∀ z ∈ a ++ (a' ++ b), ∀ s, R s (z.1 s) := fun z hz => each _ (neither.subset (List.mem_map_of_mem hz))
    rw [List.foldl_append]
    have first := foldl_around refl trans sched (before := a) (after := a') (g := y)
      (fun z hz => apart z (by rw [← List.append_assoc]; exact List.mem_append_left _ hz)) sameG s
    exact .inr (trans _ _ _ (sameF _ _ first)
      (foldl_around refl trans sched (before := []) (g := x) (fun z hz => apart z (by simp_all)) sameF _))
  · obtain ⟨b, b', rfl⟩ := List.append_of_mem memY
    have neither : ((a ++ (b ++ b')).map Prod.fst).Perm rest := by
      refine (List.perm_cons y.1).1 (.trans ?_ others)
      simpa using (List.perm_middle (a := y) (l₁ := a ++ b) (l₂ := b')).symm.map Prod.fst
    have apart : ∀ z ∈ a ++ (b ++ b'), ∀ s, R s (z.1 s) := fun z hz => each _ (neither.subset (List.mem_map_of_mem hz))
    rw [← List.cons_append, ← List.append_assoc, List.foldl_append]
    have first := foldl_around refl trans sched (before := a) (after := b) (g := x)
      (fun z hz => apart z (by rw [← List.append_assoc]; exact List.mem_append_left _ hz)) sameF s
    exact .inl (trans _ _ _ (sameG _ _ first)
      (foldl_around refl trans sched (before := []) (g := y) (fun z hz => apart z (by simp_all)) sameG _))

end order

/-! ### CPM takes a copy and evaluates (R142) -/

theorem cpmTake_cpm (change : Cpm → Cpm) (s : State) : (cpmTake change s).cpm = (change s.cpm).evaluated s.cfg := cpmEvaluate_cpm _

theorem cpmTake_wge (change : Cpm → Cpm) (s : State) : (cpmTake change s).wge = s.wge.peaked (cpmTake change s).cpm.u := by
  rw [cpmTake_cpm]
  exact cpmEvaluate_wge _

/-- What an evaluation makes of WGE and CPM rests on these and the settings alone. -/
theorem SameWeighing.cpmTake {s u : State} (h : SameWeighing s u) (change : Cpm → Cpm) :
    SameWeighing (cpmTake change s) (cpmTake change u) := by
  obtain ⟨wge, cpm, cfg⟩ := h
  have taken : (Machine.cpmTake change u).cpm = (Machine.cpmTake change s).cpm := by rw [cpmTake_cpm, cpmTake_cpm, cpm, cfg]
  refine ⟨by rw [cpmTake_wge, cpmTake_wge, taken, wge], taken, ?_⟩
  rw [(cpmTake_handedOn change u).cfg, (cpmTake_handedOn change s).cfg, cfg]

/-- What it makes of CPM rests on CPM and the settings alone. -/
def SameCpm (s t : State) : Prop := t.cpm = s.cpm ∧ t.cfg = s.cfg

theorem SameCpm.cpmTake {s u : State} (h : SameCpm s u) (change : Cpm → Cpm) : SameCpm (cpmTake change s) (cpmTake change u) := by
  obtain ⟨cpm, cfg⟩ := h
  refine ⟨by rw [cpmTake_cpm, cpmTake_cpm, cpm, cfg], ?_⟩
  rw [(cpmTake_handedOn change u).cfg, (cpmTake_handedOn change s).cfg, cfg]

theorem cpmLift_liftCopy (x : LiftState) (s : State) : (cpmLift x s).cpm.liftCopy = x := by
  unfold cpmLift
  rw [cpmTake_cpm]
  exact (Cpm.evaluated_copies _ _).2.1

theorem cpmLive_liveCopy (m : Marked) (s : State) : (cpmLive m s).cpm.liveCopy = m := by
  unfold cpmLive
  rw [cpmTake_cpm]
  exact (Cpm.evaluated_copies _ _).2.2.1

theorem cpmLift_liveCopy (x : LiftState) (s : State) : (cpmLift x s).cpm.liveCopy = s.cpm.liveCopy := by
  unfold cpmLift
  rw [cpmTake_cpm]
  exact (Cpm.evaluated_copies _ _).2.2.1

/-- An evaluation leaves the lift and the tag that WT holds. -/
theorem cpmTake_wtTag (change : Cpm → Cpm) (s : State) : (cpmTake change s).wt.lift = s.wt.lift ∧ (cpmTake change s).wt.tag = s.wt.tag := by
  refine ⟨(cpmTake_watchKept change s).lift, runAny_rel (fun s t => t.wt.tag = s.wt.tag) (fun _ => rfl) (fun _ _ _ h k => k.trans h)
    (fun _ _ => rfl) (fun f hf u => ?_) _⟩
  simp only [List.mem_cons, List.not_mem_nil, or_false] at hf
  rcases hf with rfl | rfl | rfl | rfl
  · unfold wgeUtil
    split
    · split <;> rfl
    · rfl
  · exact (wtUtil_judged _ u).wtTag
  · exact (evalReports_judged _ _ u).wtTag
  · exact (presentCap_judged _ _ u).wtTag

/-! ### A change of the lift state (R64) -/

theorem liftHandOvers_changed {old new : LiftState} (h : old ≠ new) (tag mass : Option Nat) :
    liftHandOvers old new tag mass = [cpmLift new, wtLift old new tag mass] := if_neg h

/-- What a change of the lift state leaves WT, CPM and WGE with, in either order (R64, R142). -/
theorem liftHandOvers_taken {old new : LiftState} (h : old ≠ new) (tag mass : Option Nat) (s : State) :
    let t := runAny (liftHandOvers old new tag mass) s
    SameWeighing (cpmLift new s) t ∧ t.wt.lift = new ∧ t.wt.tag = tag := by
  rw [liftHandOvers_changed h]
  refine ⟨?_, ?_⟩
  · obtain ⟨u, before, after⟩ := runAny_around SameWeighing .refl (fun _ _ _ => .trans) (fun s _ => .refl s)
      (f := cpmLift new) (rest := [wtLift old new tag mass]) (.refl _) (fun f hf u => by
        rw [List.mem_singleton.1 hf]
        exact wtLift_sameWeighing old new tag mass u) s
    exact (before.cpmTake _).trans after
  · refine runAny_brings (fun u => u.wt.lift = new ∧ u.wt.tag = tag) (fun _ _ h => h) (fun f hf u held => ?_)
      ⟨wtLift old new tag mass, by simp, fun u => ⟨(wtLift_judged old new tag mass u).wtLift, (wtLift_judged old new tag mass u).wtTag⟩⟩ s
    simp only [List.mem_cons, List.not_mem_nil, or_false] at hf
    rcases hf with rfl | rfl
    · obtain ⟨lift, tag⟩ := cpmTake_wtTag (fun c => { c with liftCopy := new }) u
      exact ⟨lift.trans held.1, tag.trans held.2⟩
    · exact ⟨(wtLift_judged old new tag mass u).wtLift, (wtLift_judged old new tag mass u).wtTag⟩

/-! ### A lift state and a live mass (R61) -/

/-- The live mass as WT takes it, whatever change of the lift state it is handed with (R61, R62). -/
theorem linkHandOvers_wtLive (old new : LiftState) (tag mass : Option Nat) (m : Marked) (s : State) :
    (runAny (liftHandOvers old new tag mass ++ liveHandOvers m) s).wt.live = m := by
  refine runAny_brings (fun u => u.wt.live = m) (fun _ _ h => h) (fun f hf u held => ?_)
    ⟨wtLive m, by simp [liveHandOvers], fun u => (wtLive_judged m u).wtLive⟩ s
  rcases List.mem_append.1 hf with hf | hf
  · unfold liftHandOvers at hf
    split at hf
    · cases hf
    · simp only [List.mem_cons, List.not_mem_nil, or_false] at hf
      rcases hf with rfl | rfl
      · exact (cpmTake_watchKept _ u).live.trans held
      · exact (wtLift_judged old new tag mass u).wtLive.trans held
  · simp only [liveHandOvers, List.mem_cons, List.not_mem_nil, or_false] at hf
    rcases hf with rfl | rfl
    · exact (cpmTake_watchKept _ u).live.trans held
    · exact (wtLive_judged m u).wtLive

/-- With the lift state unchanged CPM takes the live mass alone (R61, R142). -/
theorem linkHandOvers_same (x : LiftState) (tag mass : Option Nat) (m : Marked) (s : State) :
    SameWeighing (cpmLive m s) (runAny (liftHandOvers x x tag mass ++ liveHandOvers m) s) := by
  have live : liftHandOvers x x tag mass ++ liveHandOvers m = [cpmLive m, wtLive m] := by simp [liftHandOvers, liveHandOvers]
  rw [live]
  obtain ⟨u, before, after⟩ := runAny_around SameWeighing .refl (fun _ _ _ => .trans) (fun s _ => .refl s)
    (f := cpmLive m) (rest := [wtLive m]) (.refl _) (fun f hf u => by
      rw [List.mem_singleton.1 hf]
      exact wtLive_sameWeighing m u) s
  exact (before.cpmTake _).trans after

/-- With the lift state changed CPM takes both, in one of the two orders (R61, R64, R142). -/
theorem linkHandOvers_changed {old new : LiftState} (h : old ≠ new) (tag mass : Option Nat) (m : Marked) (s : State) :
    SameWeighing (cpmLive m (cpmLift new s)) (runAny (liftHandOvers old new tag mass ++ liveHandOvers m) s) ∨
      SameWeighing (cpmLift new (cpmLive m s)) (runAny (liftHandOvers old new tag mass ++ liveHandOvers m) s) := by
  rw [liftHandOvers_changed h]
  refine runAny_two .refl (fun _ _ _ => .trans) (fun s _ => .refl s) (rest := [wtLift old new tag mass, wtLive m])
    ((List.Perm.swap _ _ _).cons _) (fun f hf u => ?_) (fun _ _ k => k.cpmTake _) (fun _ _ k => k.cpmTake _) s
  simp only [List.mem_cons, List.not_mem_nil, or_false] at hf
  rcases hf with rfl | rfl
  · exact wtLift_sameWeighing old new tag mass u
  · exact wtLive_sameWeighing m u

end Sys2Proof.Machine
end

section
/-! PROOFS. GRIP arrivals, and a LINK arrival's work, live mass and hand-overs (R59, R61 to R67, R70, R79 to R83, R101, R120, R142):
the third and fourth parts of O45, and O45. -/

namespace Sys2Proof.Machine

/-! ### The grip closes (R65, R101) -/

/-- WGE once a lift has begun (R65). -/
def liftBegun (s : State) : State :=
  s.setWge { s.wge with lift := some (Lift.begin s.pos.pose.zone s.tlu.current s.wge.zeroSuspect), az := .empty }

/-- A working TARE has ended as well, and the change of the lift state is still to be handed on (R65, R101). -/
def gripClosed (s : State) : State := endTare .aborted (liftBegun s)

theorem closeGrapple_eq (s : State) : closeGrapple s =
    runAny (liftHandOvers .open_ .gripped (some s.tlu.current) none) (gripClosed s) := rfl

theorem gripClosed_wge (s : State) : (gripClosed s).wge = { s.wge with
    lift := some (Lift.begin s.pos.pose.zone s.tlu.current s.wge.zeroSuspect), az := .empty, tare := none } := by
  unfold gripClosed liftBegun
  rw [endTare_wge]
  cases h : s.wge.tare <;> simp [h]

/-- An ended TARE leaves WGE and the slots changed. -/
theorem endTare_rest (c : WorkCode) (s : State) :
    endTare c s = { s with wge := (endTare c s).wge, mpt := { s.mpt with slots := (endTare c s).mpt.slots } } := by
  unfold endTare
  split <;> rfl

theorem endCal_rest (c : WorkCode) (s : State) :
    endCal c s = { s with wge := (endCal c s).wge, mpt := { s.mpt with slots := (endCal c s).mpt.slots } } := by
  unfold endCal
  split <;> rfl

/-- The slot of a TARE that ends becomes DONE with its result (R101, R215). -/
theorem endTare_slot {s : State} (works : s.wge.tare.isSome = true) {i : Fin 4} {d : DelayedSlot} (slot : s.mpt.slots[i] = some d)
    (kind : d.kind = .tare) (working : d.state = .working) (c : WorkCode) :
    (endTare c s).mpt.slots[i] = some { d with state := .done (tareResult c s.wge.z) (s.now + 5000) } := by
  obtain ⟨work, tare⟩ := Option.isSome_iff_exists.1 works
  have held : s.mpt.slots[i.val] = some d := slot
  simp [endTare, tare, State.finishWork, held, DelayedSlot.finish, kind, working, discardMs]

/-- What the closing of the grip leaves (R64, R65, R101, R142). -/
theorem closeGrapple_leaves (s : State) :
    let t := closeGrapple s
    t.wge = (gripClosed s).wge ∧ t.cpm = (cpmLift .gripped s).cpm ∧ t.wt.lift = .gripped ∧ t.wt.tag = some s.tlu.current ∧
      t.tlu = s.tlu ∧ t.mpt.slots = (gripClosed s).mpt.slots := by
  intro t
  obtain ⟨⟨wge, cpm, -⟩, lift, tag⟩ := liftHandOvers_taken (old := .open_) (new := .gripped) (by decide) (some s.tlu.current) none
    (gripClosed s)
  have handed : HandedOn (gripClosed s) t := runAny_handedOn (liftHandOvers_handedOn _ _ _ _) _
  have same : SameCpm s (gripClosed s) := ⟨by simp [gripClosed, liftBegun], by simp [gripClosed, liftBegun, State.cfg]⟩
  refine ⟨?_, cpm.trans (same.cpmTake _).1, lift, tag, handed.tlu.trans (by simp [gripClosed, liftBegun]), handed.slots⟩
  refine wge.trans ((cpmTake_wge _ _).trans (Wge.peaked_gripped (fun l held => ?_) _))
  rw [gripClosed_wge] at held
  cases held
  rfl

/-! ### The grip opens with no load (R67) -/

theorem openUnlifted_leaves (s : State) :
    let t := openUnlifted s
    t.wge.lift = none ∧ t.tlu = s.tlu ∧ t.cpm = (cpmLift .open_ s).cpm ∧ t.wt.lift = .open_ ∧ t.wt.tag = none := by
  intro t
  obtain ⟨⟨wge, cpm, -⟩, lift, tag⟩ := liftHandOvers_taken (old := .gripped) (new := .open_) (by decide) none none
    (s.setWge { s.wge with lift := none })
  have handed : HandedOn (s.setWge { s.wge with lift := none }) t := runAny_handedOn (liftHandOvers_handedOn _ _ _ _) _
  have same : SameCpm s (s.setWge { s.wge with lift := none }) := ⟨rfl, rfl⟩
  refine ⟨?_, handed.tlu, cpm.trans (same.cpmTake _).1, lift, tag⟩
  rw [show t.wge = _ from wge, cpmLift, cpmTake_wge]
  rfl

theorem cpmLift_open_monitor (s : State) : (cpmLift .open_ s).cpm.monitor = .normal := by
  unfold cpmLift
  rw [cpmTake_cpm]
  exact (Cpm.evaluated_open rfl).1

/-! ### The release (R79 to R83, R106) -/

/-- The lift that a release completes, by its stage (R79 to R82). -/
theorem completedOf_raised {l : Lift} (up : l.stage ≠ .gripped) (nMin : Nat) (op : OpState) (pose : Pose) :
    let mass := if l.stage = .weighed then l.mass
      else if nMin ≤ l.n then some (max 0 (roundDiv l.sum l.n)).toNat else none
    completedOf l nMin op pose =
      { tag := l.tag, origin := l.origin, dest := pose.zone, outcome := outcomeOf op mass l.origin pose.zone, mass := mass, n := l.n
        flags := { l.flags with short := decide (l.stage = .carrying ∧ nMin ≤ l.n) }
        peakU := l.peakU, reach := pose.r, slew := pose.s } := by
  cases stage : l.stage
  case gripped => exact absurd stage up
  case weighed => simp [completedOf, Lift.releaseMass, stage]
  case carrying =>
    by_cases enough : nMin ≤ l.n
    · simp [completedOf, Lift.releaseMass, stage, enough, resultOf_eq]
    · simp [completedOf, Lift.releaseMass, stage, enough]

/-- WGE once the lift is gone and a working CAL_SPAN has ended, before TLU takes the completed lift (R83, R106). -/
def released (s : State) : State := endCal .aborted (s.setWge { s.wge with lift := none })

theorem released_rest (s : State) :
    released s = { s with wge := (released s).wge, mpt := { s.mpt with slots := (released s).mpt.slots } } := endCal_rest _ _

theorem released_wge (s : State) : (released s).wge = { s.wge with lift := none, cal := none } := endCal_wge _ _

theorem release_eq {l : Lift} {s : State} {c : CompletedLift} (completed : completedOf l s.cfg.weigh.nMin s.stc.op s.pos.pose = c) :
    release l s = runAny (liftHandOvers l.stage.state .open_ none none) (takeCompletedLift c (released s)) := by
  subst completed
  rfl

theorem handBunkTotal_judged (n : Nat) (s : State) : Judged s (handBunkTotal n s) := rel_ite (watchEvaluate_judged _ _ _) (.refl s)

theorem reportTripClosed_judged (t : Trip) (s : State) : Judged s (reportTripClosed t s) :=
  (queueReport_judged _ _ _).trans (rel_ite (queueReport_judged _ _ _) (.refl _))

/-- All a completed lift does outside TLU is reports and WT's judgement (R114). -/
theorem takeCompletedLift_judged (c : CompletedLift) (s : State) : Judged (s.setTlu (s.tlu.handOver c).tlu) (takeCompletedLift c s) :=
  (queueReport_judged _ _ _).trans (.trans (rel_ite (reportTripClosed_judged _ _) (.refl _)) (handBunkTotal_judged _ _))

theorem Stage.state_ne_open (x : Stage) : x.state ≠ .open_ := by cases x <;> decide

/-- What a release leaves (R64, R83, R106, R114, R142). -/
theorem release_leaves {l : Lift} {s : State} {c : CompletedLift}
    (completed : completedOf l s.cfg.weigh.nMin s.stc.op s.pos.pose = c) :
    let t := release l s
    t.wge.lift = none ∧ t.wge.cal = none ∧ t.tlu = (s.tlu.handOver c).tlu ∧ t.cpm = (cpmLift .open_ s).cpm ∧
      t.wt.lift = .open_ ∧ t.wt.tag = none ∧ t.sbc = s.sbc ∧ t.pos = s.pos ∧ t.stc = s.stc := by
  intro t
  have taken := takeCompletedLift_judged c (released s)
  have handed : HandedOn (takeCompletedLift c (released s)) t := by
    rw [show t = _ from release_eq completed]
    exact runAny_handedOn (liftHandOvers_handedOn _ _ _ _) _
  obtain ⟨⟨wge, cpm, -⟩, lift, tag⟩ := liftHandOvers_taken l.stage.state_ne_open none none (takeCompletedLift c (released s))
  rw [← release_eq completed] at wge cpm lift tag
  have before : (takeCompletedLift c (released s)).wge = { s.wge with lift := none, cal := none } :=
    taken.wge.trans (released_wge s)
  have tlu : (released s).tlu = s.tlu := by rw [released_rest]
  have same : SameCpm s (takeCompletedLift c (released s)) :=
    ⟨taken.cpm.trans (by rw [released_rest]; rfl), taken.cfg.trans (by rw [released_rest]; rfl)⟩
  have lifted : t.wge = { s.wge with lift := none, cal := none } := by
    rw [wge, cpmLift, cpmTake_wge, before]
    rfl
  have delivered : Delivered s t := release_delivered l s
  refine ⟨congrArg Wge.lift lifted, congrArg Wge.cal lifted, ?_, cpm.trans (same.cpmTake _).1, lift, tag, delivered.sbc, ?_,
    delivered.stc⟩
  · rw [handed.tlu, takeCompletedLift_tlu, tlu]
  · refine handed.pos.trans ?_
    rw [taken.rest, released_rest]
    rfl

theorem getLast?_lastN_append {α : Type} (n : Nat) (l : List α) (a : α) : (lastN (n + 1) (l ++ [a])).getLast? = some a := by
  unfold lastN
  rw [List.drop_append_of_le_length (by simp)]
  simp

/-- The reports of a release are those of its completed lift, the newest of the log (R114, R120). -/
theorem release_queued {l : Lift} {s : State} {c : CompletedLift}
    (completed : completedOf l s.cfg.weigh.nMin s.stc.op s.pos.pose = c) :
    let t := release l s
    t.tlu.log.getLast? = some (s.tlu.handOver c).record ∧
      Queued [.liftDone, .tripClosed] ((.liftDone, liftRecordBytes (s.tlu.handOver c).record) ::
        if s.tlu.trip.state ≠ .empty ∧ t.tlu.trip.state = .empty then closedReports t.tlu.trip else []) s t := by
  intro t
  have tlu : t.tlu = (s.tlu.handOver c).tlu := (release_leaves completed).2.2.1
  have held : (released s).tlu = s.tlu := by rw [released_rest]
  have apart : Avoids [.liftDone, .tripClosed] Report.ofEvaluation := by unfold Avoids; decide
  have before : Queued [.liftDone, .tripClosed] [] s (released s) := (setWge_quiet _ _ _).after (endCal_quiet _ _)
  have queued := before.after (takeCompletedLift_queued c (released s))
  rw [held] at queued
  simp only [Tlu.handOver_closed, ← tlu] at queued
  refine ⟨by rw [tlu]; exact getLast?_lastN_append 63 _ _, queued.before ?_⟩
  rw [show t = _ from release_eq completed]
  exact runAny_quiet (liftHandOvers_quiet apart _ _ _ _) _

/-! ### The work of a LINK arrival (R61) -/

/-- WGE's works may have moved, with their slots; lift and live mass stand. -/
structure Worked (s t : State) : Prop where
  rest : t = { s with wge := t.wge, mpt := { s.mpt with slots := t.mpt.slots } }
  lift : t.wge.lift = s.wge.lift
  live : t.wge.live = s.wge.live
  liveVal : t.wge.liveVal = s.wge.liveVal

theorem Worked.refl (s : State) : Worked s s := ⟨rfl, rfl, rfl, rfl⟩

theorem Worked.trans {s t u : State} (h : Worked s t) (k : Worked t u) : Worked s u :=
  ⟨by rw [k.rest, h.rest], k.lift.trans h.lift, k.live.trans h.live, k.liveVal.trans h.liveVal⟩

theorem setWge_worked (s : State) {w : Wge} (lift : w.lift = s.wge.lift) (live : w.live = s.wge.live)
    (liveVal : w.liveVal = s.wge.liveVal) : Worked s (s.setWge w) := ⟨rfl, lift, live, liveVal⟩

theorem finishWork_worked (s : State) (k : DelayedKind) (result : List Byte) : Worked s (s.finishWork k result) := ⟨rfl, rfl, rfl, rfl⟩

theorem dropEndsCal_worked (before : LiftState) (s : State) : Worked s (dropEndsCal before s) := by
  have ended : Worked s (endCal .aborted s) := ⟨endCal_rest _ s, by rw [endCal_wge], by rw [endCal_wge], by rw [endCal_wge]⟩
  exact rel_ite ended (.refl s)

theorem Wge.tareSample_rest (w : Wge) (t : TareWork) (steady : Bool) (c : Int) : (w.tareSample t steady c).1.lift = w.lift ∧
    (w.tareSample t steady c).1.live = w.live ∧ (w.tareSample t steady c).1.liveVal = w.liveVal := by
  unfold Wge.tareSample
  split
  · split <;> exact ⟨rfl, rfl, rfl⟩
  · exact ⟨rfl, rfl, rfl⟩

theorem Wge.calSample_rest (w : Wge) (k : CalWork) (steady : Bool) (c : Int) : (w.calSample k steady c).1.lift = w.lift ∧
    (w.calSample k steady c).1.live = w.live ∧ (w.calSample k steady c).1.liveVal = w.liveVal := by
  unfold Wge.calSample
  split
  · split
    · dsimp only
      split <;> exact ⟨rfl, rfl, rfl⟩
    · exact ⟨rfl, rfl, rfl⟩
  · exact ⟨rfl, rfl, rfl⟩

theorem tareStep_worked (cfg : Settings) (prev : Option Int) (c : Int) (x : Mass) (s : State) :
    Worked s (tareStep cfg prev c x s) := by
  unfold tareStep
  split
  · next t _ =>
    obtain ⟨lift, live, liveVal⟩ := s.wge.tareSample_rest t (zeroSteady cfg prev x) c
    split
    · next sampled =>
      rw [sampled] at lift live liveVal
      exact (setWge_worked s lift live liveVal).trans (finishWork_worked _ _ _)
    · next sampled =>
      rw [sampled] at lift live liveVal
      exact setWge_worked s lift live liveVal
  · exact .refl s

theorem calStep_worked (cfg : Settings) (pose : Pose) (prev : Option Int) (c : Int) (x : Mass) (s : State) :
    Worked s (calStep cfg pose prev c x s) := by
  unfold calStep
  split
  · next k _ =>
    obtain ⟨lift, live, liveVal⟩ := s.wge.calSample_rest k (windowSteady cfg pose prev x) c
    split
    · next sampled =>
      rw [sampled] at lift live liveVal
      exact (setWge_worked s lift live liveVal).trans (finishWork_worked _ _ _)
    · next sampled =>
      rw [sampled] at lift live liveVal
      exact setWge_worked s lift live liveVal
  · exact .refl s

/-- The lift and the live window after steps 1 to 3 of R61. -/
theorem Wge.steps123_leaves (w : Wge) (cfg : Settings) (pose : Pose) (c : Int) (x : Mass) :
    (w.steps123 cfg pose c x).lift = w.lift.map (fun l => l.sample cfg (windowSteady cfg pose w.prev x) x) ∧
      (w.steps123 cfg pose c x).live = lastN 8 (w.live ++ [x.m]) ∧
      (w.steps123 cfg pose c x).liveVal = meanOf (lastN 8 (w.live ++ [x.m])).sum (lastN 8 (w.live ++ [x.m])).length := by
  unfold Wge.steps123
  dsimp only
  split
  · obtain ⟨lift, -, -, live, liveVal⟩ := Wge.azSample_rest
      { w.takeLive x.m with lift := w.lift.map (fun l => l.sample cfg (windowSteady cfg pose w.prev x) x) } (cfg := cfg) c x.m
      (zeroSteady cfg w.prev x)
    exact ⟨lift, live, liveVal⟩
  · exact ⟨rfl, rfl, rfl⟩

/-- What the work of a LINK arrival leaves: the sampled lift, the live mass, the previous mass; works and slots may move (R61). -/
theorem linkWork_leaves (c : Int) (ov : Bool) (s : State) :
    let x := massOf s.wge.z s.wge.span c ov
    let w := linkWork c ov s
    w = { s with wge := w.wge, mpt := { s.mpt with slots := w.mpt.slots } } ∧
      w.wge.lift = s.wge.lift.map (fun l => l.sample s.cfg (windowSteady s.cfg s.pos.pose s.wge.prev x) x) ∧
      w.wge.live = lastN 8 (s.wge.live ++ [x.m]) ∧
      w.wge.liveVal = meanOf (lastN 8 (s.wge.live ++ [x.m])).sum (lastN 8 (s.wge.live ++ [x.m])).length ∧
      w.wge.prev = some x.m := by
  intro x w
  obtain ⟨lift, live, liveVal⟩ := s.wge.steps123_leaves s.cfg s.pos.pose c x
  have worked : Worked (s.setWge (s.wge.steps123 s.cfg s.pos.pose c x)) (workSample s.cfg s.pos.pose s.wge.prev c x
      (dropEndsCal s.wge.liftState (s.setWge (s.wge.steps123 s.cfg s.pos.pose c x)))) :=
    (dropEndsCal_worked _ _).trans ((tareStep_worked _ _ _ _ _).trans (calStep_worked _ _ _ _ _ _))
  refine ⟨?_, worked.lift.trans lift, worked.live.trans live, worked.liveVal.trans liveVal, rfl⟩
  have rest := congrArg (fun u => u.setWge w.wge) worked.rest
  exact rest

theorem lastN_append_ne_nil {α : Type} (n : Nat) (l : List α) (a : α) : lastN (n + 1) (l ++ [a]) ≠ [] := by
  intro empty
  have last := getLast?_lastN_append n l a
  rw [empty] at last
  cases last

/-- The live mass is valid after a LINK arrival (R62). -/
theorem linkWork_liveMass (c : Int) (ov : Bool) (s : State) :
    (linkWork c ov s).wge.liveMass = { val := (linkWork c ov s).wge.liveVal, ok := true } := by
  obtain ⟨-, -, live, -⟩ := linkWork_leaves c ov s
  have some : (linkWork c ov s).wge.live.isEmpty = false := by
    rw [live, List.isEmpty_eq_false_iff]
    exact lastN_append_ne_nil 7 _ _
  unfold Wge.liveMass
  rw [some]
  rfl

/-! ### The clipped mark and steadiness (R59, R70) -/

theorem massOf_clipped (z : Int) (span : Nat) (c : Int) (ov : Bool) : (massOf z span c ov).clipped = true ↔
    roundDiv ((c - z) * span) 100000 ≠ saturate (-32768) 32767 (roundDiv ((c - z) * span) 100000) ∨ ov = true :=
  (iff_of_eq (Bool.or_eq_true _ _)).trans (or_congr decide_eq_true_iff Iff.rfl)

theorem windowSteady_iff (cfg : Settings) (pose : Pose) (prev : Option Int) (x : Mass) : windowSteady cfg pose prev x = true ↔
    pose.valid = true ∧ x.clipped = false ∧ (cfg.sw.dynReject = false ∨
      ((∃ m, prev = some m ∧ (x.m - m).natAbs ≤ cfg.weigh.d) ∧
        pose.slewRate.val.natAbs ≤ cfg.weigh.rs ∧ pose.mainRate.val.natAbs ≤ cfg.weigh.rm)) := by
  cases prev <;> simp [windowSteady, diffSteady, and_assoc]

/-! ### The hand-overs of a LINK arrival (R61, R64, R85, R142) -/

/-- A handed U enters the peak of a lift beyond GRIPPED and no other (R85). -/
theorem Wge.peaked_lift {w : Wge} {l : Lift} (lift : w.lift = some l) (u : Nat) :
    (w.peaked u).lift = some { l with peakU := if l.stage = .gripped then l.peakU else max l.peakU u } := by
  by_cases gripped : l.stage = .gripped
  · rw [if_pos gripped, Wge.peaked_gripped (fun k held => by rw [lift] at held; cases held; exact gripped)]
    exact lift
  · rw [if_neg gripped]
    exact Wge.peaked_raised lift gripped u

/-- The lift state, the tag and the mass that a WGE hands on are those of its lift. -/
theorem Wge.liftState_congr {w v : Wge} (h : w.lift = v.lift) : w.liftState = v.liftState := by
  unfold Wge.liftState
  rw [h]

section arrival
variable (c : Int) (ov : Bool) (s : State)

theorem linkWork_sameCpm : SameCpm s (linkWork c ov s) := by
  obtain ⟨rest, -⟩ := linkWork_leaves c ov s
  rw [rest]
  exact ⟨rfl, rfl⟩

/-- A LINK arrival's hand-overs are taken in some order (R61, R64; notes/assumptions/7.md). -/
theorem linkArrival_inSomeOrder :
    InSomeOrder (liftHandOvers s.wge.liftState (linkWork c ov s).wge.liftState (linkWork c ov s).wge.tag
      ((linkWork c ov s).wge.lift.bind (·.mass)) ++ liveHandOvers (linkWork c ov s).wge.liveMass) (linkWork c ov s)
      (linkArrival c ov s) := runAny_inSomeOrder _ _

/-- With the lift state unchanged CPM evaluates once, at the live mass (R61, R142). -/
theorem linkArrival_same (same : (linkWork c ov s).wge.liftState = s.wge.liftState) :
    SameWeighing (cpmLive (linkWork c ov s).wge.liveMass (linkWork c ov s)) (linkArrival c ov s) := by
  unfold linkArrival
  dsimp only
  rw [same]
  exact linkHandOvers_same _ _ _ _ _

/-- With the lift state changed CPM evaluates at both, in one of the two orders (R61, R64, R142). -/
theorem linkArrival_changed (changed : (linkWork c ov s).wge.liftState ≠ s.wge.liftState) :
    let w := linkWork c ov s
    SameWeighing (cpmLive w.wge.liveMass (cpmLift w.wge.liftState w)) (linkArrival c ov s) ∨
      SameWeighing (cpmLift w.wge.liftState (cpmLive w.wge.liveMass w)) (linkArrival c ov s) :=
  linkHandOvers_changed (Ne.symm changed) _ _ _ _

/-- CPM holds the live mass a LINK arrival hands on (R142). -/
theorem linkArrival_liveCopy : (linkArrival c ov s).cpm.liveCopy = (linkWork c ov s).wge.liveMass := by
  by_cases same : (linkWork c ov s).wge.liftState = s.wge.liftState
  · rw [(linkArrival_same c ov s same).2.1, cpmLive_liveCopy]
  · rcases linkArrival_changed c ov s same with ⟨-, cpm, -⟩ | ⟨-, cpm, -⟩
    · rw [cpm, cpmLive_liveCopy]
    · rw [cpm, cpmLift_liveCopy, cpmLive_liveCopy]

/-- A LINK arrival that finds no lift leaves none. -/
theorem linkArrival_unlifted (none : (linkWork c ov s).wge.lift = none) : (linkArrival c ov s).wge.lift = .none := by
  have handed := (linkArrival_handedOn c ov s).lift
  rw [none] at handed
  exact Option.map_eq_none_iff.1 handed

/-- The peak of the lift after a LINK arrival: the utilisation of each evaluation has entered it beyond GRIPPED (R85). -/
theorem linkArrival_peak {l : Lift} (lift : (linkWork c ov s).wge.lift = some l) :
    ∃ peak, (linkArrival c ov s).wge.lift = some { l with peakU := peak } ∧ (l.stage = .gripped → peak = l.peakU) ∧
      (l.stage ≠ .gripped → l.peakU ≤ peak ∧ (linkArrival c ov s).cpm.u ≤ peak) ∧
      (l.stage ≠ .gripped → (linkWork c ov s).wge.liftState = s.wge.liftState → peak = max l.peakU (linkArrival c ov s).cpm.u) := by
  have twice {f g : Cpm → Cpm} (k : SameWeighing (cpmTake g (cpmTake f (linkWork c ov s))) (linkArrival c ov s)) :
      ∃ peak, (linkArrival c ov s).wge.lift = some { l with peakU := peak } ∧ (l.stage = .gripped → peak = l.peakU) ∧
        (l.stage ≠ .gripped → l.peakU ≤ peak ∧ (linkArrival c ov s).cpm.u ≤ peak) := by
    have first := Wge.peaked_lift lift (cpmTake f (linkWork c ov s)).cpm.u
    rw [← cpmTake_wge] at first
    have second := Wge.peaked_lift first (cpmTake g (cpmTake f (linkWork c ov s))).cpm.u
    rw [← cpmTake_wge, ← k.1, ← k.2.1] at second
    by_cases gripped : l.stage = .gripped
    · rw [if_pos gripped, if_pos gripped] at second
      exact ⟨_, second, fun _ => rfl, fun up => absurd gripped up⟩
    · rw [if_neg gripped, if_neg gripped] at second
      exact ⟨_, second, fun low => absurd low gripped, fun _ => by dsimp only; omega⟩
  by_cases same : (linkWork c ov s).wge.liftState = s.wge.liftState
  · obtain ⟨wge, cpm, -⟩ := linkArrival_same c ov s same
    have once := Wge.peaked_lift lift (linkArrival c ov s).cpm.u
    rw [cpm, cpmLive, ← cpmTake_wge, ← cpmLive, ← wge, ← cpm] at once
    by_cases gripped : l.stage = .gripped
    · rw [if_pos gripped] at once
      exact ⟨_, once, fun _ => rfl, fun up => absurd gripped up, fun up => absurd gripped up⟩
    · rw [if_neg gripped] at once
      exact ⟨_, once, fun low => absurd low gripped, fun _ => by omega, fun _ _ => rfl⟩
  · obtain ⟨peak, lift', gripped, raised⟩ := (linkArrival_changed c ov s same).elim twice twice
    exact ⟨peak, lift', gripped, raised, fun _ k => absurd k same⟩

end arrival

/-! ### O45 -/

/-- A GRIP arrival by its value and by the lift in progress (R65 to R67, R79 to R83). -/
theorem gripRules (s : State) :
    (s.wge.lift = none → gripArrival false s = s) ∧
    (s.wge.lift.isSome = true → gripArrival true s = s) ∧
    (s.wge.lift = none → gripArrival true s = closeGrapple s) ∧
    (∀ l, s.wge.lift = some l → l.stage = .gripped → gripArrival false s = openUnlifted s) ∧
    (∀ l, s.wge.lift = some l → l.stage ≠ .gripped → gripArrival false s = release l s) := by
  unfold gripArrival
  cases lift : s.wge.lift with
  | none => exact ⟨fun _ => rfl, nofun, fun _ => rfl, nofun, nofun⟩
  | some l =>
    refine ⟨nofun, fun _ => rfl, nofun, fun l' same gripped => ?_, fun l' same up => ?_⟩
    · cases same
      exact if_pos gripped
    · cases same
      exact if_neg up

/-- Settles O45: a lift's sample stage by stage (`carryingRules`, `grippedAndWeighedRules`), a GRIP arrival by `gripRules` and what
each of its acts leaves, and a LINK arrival by its work (`linkWork_leaves`) and its hand-overs (`linkArrival_peak`). -/
theorem liftWindowRules : Obligations.LiftWindowRules := by
  unfold Obligations.LiftWindowRules
  refine ⟨carryingRules, grippedAndWeighedRules, fun s => ?_, fun c ov s => ?_⟩
  · obtain ⟨idle, held, closes, discards, releases⟩ := gripRules s
    refine ⟨idle, held, fun lift => ?_, fun l lift gripped => ?_, fun l lift up => ?_⟩
    · rw [closes lift]
      obtain ⟨wge, cpm, wtLift, wtTag, tlu, slots⟩ := closeGrapple_leaves s
      intro t
      have wge : t.wge = _ := wge.trans (gripClosed_wge s)
      refine ⟨congrArg Wge.lift wge, congrArg Wge.tare wge, congrArg Wge.az wge, by rw [wge], tlu, cpm, ?_, wtLift, wtTag,
        ⟨gripClosed s, endTare_rest _ _, ?_⟩, fun i d works slot kind working => ?_⟩
      · rw [show t.cpm = _ from cpm, cpmLift_liftCopy]
      · rw [show t = _ from closeGrapple_eq s, liftHandOvers_changed (by decide)]
        exact runAny_inSomeOrder _ _
      · rw [show t.mpt.slots = _ from slots]
        exact endTare_slot (s := liftBegun s) works slot kind working .aborted
    · rw [discards l lift gripped]
      obtain ⟨unlifted, tlu, cpm, wtLift, wtTag⟩ := openUnlifted_leaves s
      refine ⟨unlifted, tlu, cpm, ?_, ?_, wtLift, wtTag, ?_⟩
      · rw [cpm, cpmLift_liftCopy]
      · rw [cpm, cpmLift_open_monitor]
      · unfold openUnlifted
        rw [liftHandOvers_changed (by decide)]
        exact runAny_inSomeOrder _ _
    · rw [releases l lift up]
      intro t short mass completed
      have completes : completedOf l s.cfg.weigh.nMin s.stc.op s.pos.pose = completed := completedOf_raised up _ _ _
      obtain ⟨unlifted, cal, tlu, cpm, wtLift, wtTag, sbc, pos, stc⟩ := release_leaves completes
      obtain ⟨last, queued⟩ := release_queued completes
      refine ⟨unlifted, cal, tlu.trans (takeCompletedLift_tlu completed s).symm, cpm, ?_, ?_, wtLift, wtTag, sbc, pos, stc,
        ⟨released s, released_rest s, ?_⟩, _, last, queued⟩
      · rw [show t.cpm = _ from cpm, cpmLift_liftCopy]
      · rw [show t.cpm = _ from cpm, cpmLift_open_monitor]
      · rw [show t = _ from release_eq completes, liftHandOvers_changed l.stage.state_ne_open]
        exact runAny_inSomeOrder _ _
  · intro raw m kept live t
    obtain ⟨rest, lifted, keptLive, liveVal, prev⟩ := linkWork_leaves c ov s
    have handed : HandedOn (linkWork c ov s) t := linkArrival_handedOn c ov s
    have window : lastN 8 (s.wge.live ++ [m]) = kept := by simp [lastN, kept]
    have keptLive : (linkWork c ov s).wge.live = kept := keptLive.trans window
    have liveVal : (linkWork c ov s).wge.liveVal = live.val := liveVal.trans (by
      rw [show (massOf s.wge.z s.wge.span c ov).m = m from rfl, window]
      rfl)
    have liveMass : (linkWork c ov s).wge.liveMass = live := by
      rw [linkWork_liveMass, liveVal]
    refine ⟨rfl, massOf_clipped _ _ _ _, handed.live.trans keptLive, handed.liveVal.trans liveVal,
      handed.prev.trans prev, (linkArrival_liveCopy c ov s).trans liveMass, ?_, fun steady steadily => ?_⟩
    · rw [← liveMass]
      exact linkHandOvers_wtLive _ _ _ _ _ _
    intro lift old new takesLive takesLift
    have isSteady : windowSteady s.cfg s.pos.pose s.wge.prev (massOf s.wge.z s.wge.span c ov) = steady := by
      rw [Bool.eq_iff_iff, windowSteady_iff]
      exact steadily.symm
    rw [isSteady] at lifted
    have lifted : (linkWork c ov s).wge.lift = lift := lifted
    have state : (linkWork c ov s).wge.liftState = new := Wge.liftState_congr lifted
    have cpm := linkWork_sameCpm c ov s
    refine ⟨⟨linkWork c ov s, rest, lifted, keptLive, ?_⟩, fun none => ?_, fun l' some => ?_, fun same => ?_, fun changed => ?_⟩
    · have order := linkArrival_inSomeOrder c ov s
      unfold liftHandOvers Wge.tag at order
      rw [state, lifted, liveMass] at order
      simp only [eq_comm (a := s.wge.liftState)] at order
      exact order
    · exact linkArrival_unlifted c ov s (lifted.trans none)
    · have peak := linkArrival_peak c ov s (lifted.trans some)
      rwa [state] at peak
    · have taken := (linkArrival_same c ov s (state.trans same)).2.1
      rw [liveMass] at taken
      exact taken.trans (cpm.cpmTake _).1
    · rcases linkArrival_changed c ov s (fun e => changed (state.symm.trans e)) with ⟨-, taken, -⟩ | ⟨-, taken, -⟩
      · rw [liveMass, state] at taken
        exact .inl (taken.trans ((cpm.cpmTake _).cpmTake _).1)
      · rw [liveMass, state] at taken
        exact .inr (taken.trans ((cpm.cpmTake _).cpmTake _).1)

end Sys2Proof.Machine
end

section
/-! PROOFS. The delayed slots, and what has no part in them, in CAL_SPAN's lift, or in zero and span (R92, R103, R106, R213): the
ground of O13 and O15. -/

namespace Sys2Proof.Machine

/-! ### Slots that fit the works that are on (R213) -/

/-- The law of the slots, for any set of works that are on. -/
def SlotsFit (slots : Vector (Option DelayedSlot) 4) (on : DelayedKind → Prop) : Prop :=
  (∀ (i j : Fin 4) (d e : DelayedSlot), i ≠ j → slots[i] = some d → slots[j] = some e →
    ¬(d.port = e.port ∧ d.kind = e.kind ∧ d.body = e.body) ∧
    ¬(d.kind = e.kind ∧ d.state = .working ∧ e.state = .working)) ∧
  (∀ (i : Fin 4) (d : DelayedSlot), slots[i] = some d →
    (d.state = .working → on d.kind) ∧ (d.kind = .sensorPass → d.port = .service))

theorem State.slotsLawful_iff (s : State) : s.slotsLawful ↔ SlotsFit s.mpt.slots (fun k => s.workOn k = true) := Iff.rfl

section fit
variable {slots new : Vector (Option DelayedSlot) 4} {on on' : DelayedKind → Prop}

/-- Slots fit still when some are freed and some have become DONE, while the work of each that is WORKING stays on. -/
theorem SlotsFit.narrow (h : SlotsFit slots on)
    (old : ∀ (i : Fin 4) (d' : DelayedSlot), new[i] = some d' → ∃ d, slots[i] = some d ∧
      d'.port = d.port ∧ d'.kind = d.kind ∧ d'.body = d.body ∧
      (d'.state = .working → d.state = .working ∧ (on d.kind → on' d.kind))) : SlotsFit new on' := by
  obtain ⟨apart, each⟩ := h
  refine ⟨fun i j d' e' ne hi hj => ?_, fun i d' hi => ?_⟩
  · obtain ⟨d, di, dport, dkind, dbody, dworks⟩ := old i d' hi
    obtain ⟨e, ej, eport, ekind, ebody, eworks⟩ := old j e' hj
    obtain ⟨distinct, alone⟩ := apart i j d e ne di ej
    rw [dport, eport, dkind, ekind, dbody, ebody]
    exact ⟨distinct, fun ⟨same, dw, ew⟩ => alone ⟨same, (dworks dw).1, (eworks ew).1⟩⟩
  · obtain ⟨d, di, dport, dkind, -, dworks⟩ := old i d' hi
    obtain ⟨isOn, service⟩ := each i d di
    rw [dport, dkind]
    exact ⟨fun works => (dworks works).2 (isOn (dworks works).1), service⟩

theorem SlotsFit.mono (h : SlotsFit slots on) (more : ∀ k, on k → on' k) : SlotsFit slots on' :=
  h.narrow fun _ d hi => ⟨d, hi, rfl, rfl, rfl, fun works => ⟨works, more d.kind⟩⟩

/-- A work that ends leaves no slot of its kind WORKING (R215). -/
theorem SlotsFit.finish (h : SlotsFit slots on) {k : DelayedKind} (others : ∀ j, j ≠ k → on j → on' j) (result : List Byte)
    (now : Nat) : SlotsFit (slots.map (fun o => o.map (fun d => d.finish k result now))) on' := by
  refine h.narrow fun i d' hi => ?_
  obtain ⟨d, di, rfl⟩ : ∃ d, slots[i] = some d ∧ d.finish k result now = d' := by
    simpa using hi
  refine ⟨d, di, ?_⟩
  unfold DelayedSlot.finish
  split
  · exact ⟨rfl, rfl, rfl, nofun⟩
  · next stays => exact ⟨rfl, rfl, rfl, fun works => ⟨works, others _ fun same => stays ⟨same, works⟩⟩⟩

/-- A slot freed. -/
theorem SlotsFit.free (h : SlotsFit slots on) (i : Fin 4) : SlotsFit (slots.set i none) on := by
  refine h.narrow fun j d hj => ⟨d, ?_, rfl, rfl, rfl, fun works => ⟨works, id⟩⟩
  by_cases e : i = j
  · subst e
    simp at hj
  · rwa [Fin.getElem_fin, Vector.getElem_set_ne _ _ (fun same => e (Fin.ext same))] at hj

/-- A slot taken by a request that no slot holds, of a kind whose work was not on (R213, R214). -/
theorem SlotsFit.take (h : SlotsFit slots on) {d : DelayedSlot} (idle : ¬on d.kind) (service : d.kind = .sensorPass → d.port = .service)
    (unmatched : ∀ (i : Fin 4) (e : DelayedSlot), slots[i] = some e → ¬(e.port = d.port ∧ e.kind = d.kind ∧ e.body = d.body))
    (i : Fin 4) : SlotsFit (slots.set i (some d)) (fun k => k = d.kind ∨ on k) := by
  obtain ⟨apart, each⟩ := h
  have held (j : Fin 4) (e : DelayedSlot) (hj : (slots.set i (some d))[j] = some e) :
      (j = i ∧ e = d) ∨ (j ≠ i ∧ slots[j] = some e) := by
    by_cases same : i = j
    · subst same
      simp only [Fin.getElem_fin, Vector.getElem_set_self, Option.some.injEq] at hj
      exact .inl ⟨rfl, hj.symm⟩
    · rw [Fin.getElem_fin, Vector.getElem_set_ne _ _ (fun e => same (Fin.ext e))] at hj
      exact .inr ⟨Ne.symm same, hj⟩
  have clear (j : Fin 4) (e : DelayedSlot) (hj : slots[j] = some e) : ¬(e.port = d.port ∧ e.kind = d.kind ∧ e.body = d.body) ∧
      ¬(e.kind = d.kind ∧ e.state = .working) :=
    ⟨unmatched j e hj, fun ⟨same, works⟩ => idle (same ▸ (each j e hj).1 works)⟩
  refine ⟨fun j m e f ne hj hm => ?_, fun j e hj => ?_⟩
  · obtain ⟨rfl, rfl⟩ | ⟨-, heldJ⟩ := held j e hj <;> obtain ⟨rfl, rfl⟩ | ⟨-, heldM⟩ := held m f hm
    · exact absurd rfl ne
    · obtain ⟨distinct, alone⟩ := clear m f heldM
      exact ⟨fun ⟨a, b, c⟩ => distinct ⟨a.symm, b.symm, c.symm⟩, fun ⟨a, _, c⟩ => alone ⟨a.symm, c⟩⟩
    · obtain ⟨distinct, alone⟩ := clear j e heldJ
      exact ⟨distinct, fun ⟨a, b, _⟩ => alone ⟨a, b⟩⟩
    · exact apart j m e f ne heldJ heldM
  · obtain ⟨rfl, rfl⟩ | ⟨-, heldJ⟩ := held j e hj
    · exact ⟨fun _ => .inl rfl, service⟩
    · exact ⟨fun works => .inr ((each j e heldJ).1 works), (each j e heldJ).2⟩

theorem SlotsFit.empty (on : DelayedKind → Prop) : SlotsFit (Vector.replicate 4 none) on := by
  constructor <;> simp

end fit

/-! ### What has no part in the works -/

/-- What the laws of slots and CAL_SPAN read of a state, with zero and span. -/
structure WorkView where
  slots : Vector (Option DelayedSlot) 4
  pass : Option Passthrough
  commit : Option ImageContents
  tare : Option TareWork
  cal : Option CalWork
  lift : LiftState
  z : Int
  span : Nat

def State.workView (s : State) : WorkView where
  slots := s.mpt.slots
  pass := s.sbc.pass
  commit := s.stc.commit
  tare := s.wge.tare
  cal := s.wge.cal
  lift := s.wge.liftState
  z := s.wge.z
  span := s.wge.span

/-- Slots, works, lift state, zero and span are as they were. -/
def WorkUntouched (s t : State) : Prop := t.workView = s.workView

theorem WorkUntouched.refl (s : State) : WorkUntouched s s := rfl

theorem WorkUntouched.trans {s t u : State} (h : WorkUntouched s t) (k : WorkUntouched t u) : WorkUntouched s u := Eq.trans k h

section readings
variable {s t : State} (h : WorkUntouched s t)
include h

theorem WorkUntouched.slots : t.mpt.slots = s.mpt.slots := congrArg WorkView.slots h
theorem WorkUntouched.cal : t.wge.cal = s.wge.cal := congrArg WorkView.cal h
theorem WorkUntouched.lift : t.wge.liftState = s.wge.liftState := congrArg WorkView.lift h
theorem WorkUntouched.z : t.wge.z = s.wge.z := congrArg WorkView.z h
theorem WorkUntouched.span : t.wge.span = s.wge.span := congrArg WorkView.span h

theorem WorkUntouched.workOn (k : DelayedKind) : t.workOn k = s.workOn k := by
  cases k
  case tare => exact congrArg (fun v => v.tare.isSome) h
  case calSpan => exact congrArg (fun v => v.cal.isSome) h
  case sensorPass => exact congrArg (fun v => v.pass.isSome) h
  case commit => exact congrArg (fun v => v.commit.isSome) h

end readings

theorem HandedOn.workUntouched {s t : State} (h : HandedOn s t) : WorkUntouched s t := by
  unfold WorkUntouched State.workView
  rw [h.slots, h.sbc, h.stc, h.tare, h.cal, h.liftState, h.z, h.span]

theorem setPort_workUntouched (s : State) (p : Port) (q : PortState) : WorkUntouched s (s.setPort p q) := by
  cases p <;> rfl

theorem setSbc_workUntouched (s : State) {b : Sbc} (pass : b.pass = s.sbc.pass) : WorkUntouched s (s.setSbc b) := by
  unfold WorkUntouched State.workView
  rw [State.setSbc_sbc, pass]
  rfl

theorem present_workUntouched (src : HoldSource) (mask : LineMask) (s : State) : WorkUntouched s (present src mask s) := by
  obtain ⟨m, e, slots⟩ := present_rest src mask s
  rw [e]
  unfold WorkUntouched State.workView
  rw [State.setMpt_mpt, slots]
  rfl

theorem pump_workUntouched (s : State) : WorkUntouched s s.pump := rfl

theorem recompute_workUntouched (s : State) : WorkUntouched s (recompute s) := (recompute_handedOn s).workUntouched

/-! ### What every operation keeps -/

/-- The law of the slots and that of CAL_SPAN's lift hold on if they held (R103, R106, R213). -/
structure WorksKept (s t : State) : Prop where
  slots : s.slotsLawful → t.slotsLawful
  cal : s.calHeld → t.calHeld

/-- The laws hold on, and zero and span are as they were (R92, R93). -/
structure ScaleKept (s t : State) : Prop extends WorksKept s t where
  z : t.wge.z = s.wge.z
  span : t.wge.span = s.wge.span

theorem WorkUntouched.scaleKept {s t : State} (h : WorkUntouched s t) : ScaleKept s t where
  slots k := by
    rw [State.slotsLawful_iff] at k ⊢
    rw [h.slots]
    exact k.mono fun j on => (h.workOn j).trans on
  cal k := by
    unfold State.calHeld at k ⊢
    rwa [h.cal, h.lift]
  z := h.z
  span := h.span

/-- A relation between states that goes on from one operation to the next, and that what has no part in the works keeps. -/
structure WorkFree (R : State → State → Prop) : Prop where
  trans : ∀ {s t u}, R s t → R t u → R s u
  same : ∀ {s t}, WorkUntouched s t → R s t

theorem WorksKept.workFree : WorkFree WorksKept where
  trans h k := ⟨k.slots ∘ h.slots, k.cal ∘ h.cal⟩
  same h := h.scaleKept.toWorksKept

theorem ScaleKept.workFree : WorkFree ScaleKept where
  trans h k := ⟨WorksKept.workFree.trans h.toWorksKept k.toWorksKept, k.z.trans h.z, k.span.trans h.span⟩
  same := WorkUntouched.scaleKept

theorem WorksKept.trans {s t u : State} (h : WorksKept s t) (k : WorksKept t u) : WorksKept s u := WorksKept.workFree.trans h k
theorem ScaleKept.trans {s t u : State} (h : ScaleKept s t) (k : ScaleKept t u) : ScaleKept s u := ScaleKept.workFree.trans h k
theorem ScaleKept.refl (s : State) : ScaleKept s s := (WorkUntouched.refl s).scaleKept
theorem WorksKept.refl (s : State) : WorksKept s s := (ScaleKept.refl s).toWorksKept

section free
variable {R : State → State → Prop} (wf : WorkFree R)
include wf

theorem WorkFree.refl (s : State) : R s s := wf.same (.refl s)

theorem WorkFree.runAny {fs : List (State → State)} (each : ∀ f ∈ fs, ∀ s, R s (f s)) (s : State) : R s (runAny fs s) :=
  runAny_rel R wf.refl (fun _ _ _ => wf.trans) (fun _ _ => wf.same rfl) each s

theorem WorkFree.setPort (s : State) (p : Port) (q : PortState) : R s (s.setPort p q) := wf.same (setPort_workUntouched s p q)

theorem WorkFree.takeFrame (p : Port) (kind : Byte) (body : List Byte) {judge : State → Answer × State}
    (h : ∀ s, R s (judge s).2) (s : State) : R s (takeFrame p kind body judge s) :=
  rel_ite (wf.refl s) (wf.trans (wf.setPort s _ _)
    (rel_ite (wf.refl _) (rel_ite (wf.setPort _ _ _) (wf.trans (h _) (wf.setPort _ _ _)))))

theorem WorkFree.completes {f : State → State} (hf : ∀ s, R s (f s)) {s t : State} (h : completes f s = .next t) : R s t := by
  cases h
  exact rel_ite (wf.trans (hf s) (wf.same (pump_workUntouched _))) (wf.refl s)

variable (wakes : ∀ s, R s (wake s))
include wakes

/-- A request reaches its owner only on a port that admits it (R207, R212). -/
theorem WorkFree.judgeKnown {r : Req} {p : Port} {body : List Byte}
    (serves : ∀ s, admits p s.stc.op r = true → R s (serve r p body s).2) (s : State) :
    R s (judgeKnown r (serve r) p body s).2 := by
  have admitted (passes : refusal p s.stc.op r body = none) : admits p s.stc.op r = true := by
    by_contra no
    have no : admits p s.stc.op r = false := Bool.eq_false_iff.2 no
    unfold refusal at passes
    rw [no] at passes
    split at passes <;> cases passes
  unfold Machine.judgeKnown
  split
  · exact wf.refl s
  · exact wakes s
  all_goals
    split
    · exact wf.refl s
    · next passes => exact serves s (admitted passes)

variable (serves : ∀ r p body s, admits p s.stc.op r = true → R s (serve r p body s).2)
include serves

theorem WorkFree.judgeFrame (p : Port) (kind : Byte) (body : List Byte) (s : State) : R s (judgeFrame p kind body s).2 := by
  unfold Machine.judgeFrame
  split
  · exact wf.judgeKnown wakes (serves _ p body) s
  · unfold judgeUnknown
    split
    · exact wf.refl s
    · exact wakes s
    · exact wf.refl s
    · exact wf.refl s

theorem WorkFree.takeAny (p : Port) (kind : Byte) (body : List Byte) (s : State) : R s (takeAny p kind body s) :=
  wf.takeFrame _ _ _ (wf.judgeFrame wakes serves p kind body) s

theorem WorkFree.heldFrame (p : Port) (s : State) : R s (heldFrame p s) := by
  unfold Machine.heldFrame
  dsimp only
  split
  · exact rel_ite (wf.refl s)
      (wf.trans (wf.setPort _ _ _) (wf.trans (wf.judgeFrame wakes serves _ _ _ _) (wf.setPort _ _ _)))
  · exact wf.refl s

theorem WorkFree.byteIn (p : Port) (b : Byte) (s : State) : R s (byteIn p b s) := by
  unfold Machine.byteIn
  dsimp only
  refine rel_ite (wf.refl s) ?_
  split
  · exact wf.setPort s _ _
  · exact wf.trans (wf.setPort s _ _) (rel_ite (wf.takeAny wakes serves _ _ _ _) (wf.refl _))

end free

end Sys2Proof.Machine
end

section
/-! PROOFS. How works end, and deliveries, bus and operating states as the delayed slots see them (R33, R61, R65 to R67, R77, R101, R106,
R203, R215, R216): the ground of O13, O15 and O48. -/

namespace Sys2Proof.Machine

/-! ### Works that end -/

/-- A work that has gone off ends with its kind's slot DONE (R215). -/
theorem finishWork_slotsLawful {s t : State} (h : s.slotsLawful) {k : DelayedKind} (slots : t.mpt.slots = s.mpt.slots)
    (others : ∀ j, j ≠ k → t.workOn j = s.workOn j) (result : List Byte) : (t.finishWork k result).slotsLawful := by
  have same (j : DelayedKind) : (t.finishWork k result).workOn j = t.workOn j := by cases j <;> rfl
  rw [State.slotsLawful_iff] at h ⊢
  have fit := h.finish (k := k) (on' := fun j => t.workOn j = true) (fun j ne on => (others j ne).trans on) result t.now
  rw [← slots] at fit
  exact fit.mono fun j on => (same j).trans on

/-- WGE may change what it holds of a work, and may begin one, without the slots (R213). -/
theorem setWge_slotsLawful {s : State} (h : s.slotsLawful) {w : Wge} (tare : s.wge.tare.isSome = true → w.tare.isSome = true)
    (cal : s.wge.cal.isSome = true → w.cal.isSome = true) : (s.setWge w).slotsLawful := by
  rw [State.slotsLawful_iff] at h ⊢
  refine h.mono fun j on => ?_
  cases j
  case tare => exact tare on
  case calSpan => exact cal on
  all_goals exact on

/-- A TARE that ends, however WGE takes it (R99, R101). -/
theorem finishTare_slotsLawful {s : State} (h : s.slotsLawful) {w : Wge} (cal : w.cal = s.wge.cal) (result : List Byte) :
    ((s.setWge w).finishWork .tare result).slotsLawful := by
  refine finishWork_slotsLawful (t := s.setWge w) h rfl (fun j ne => ?_) result
  cases j
  case tare => exact absurd rfl ne
  case calSpan => exact congrArg Option.isSome cal
  all_goals rfl

/-- A CAL_SPAN that ends (R104, R106). -/
theorem finishCal_slotsLawful {s : State} (h : s.slotsLawful) {w : Wge} (tare : w.tare = s.wge.tare) (result : List Byte) :
    ((s.setWge w).finishWork .calSpan result).slotsLawful := by
  refine finishWork_slotsLawful (t := s.setWge w) h rfl (fun j ne => ?_) result
  cases j
  case calSpan => exact absurd rfl ne
  case tare => exact congrArg Option.isSome tare
  all_goals rfl

/-- A passthrough that ends, whatever the bus does (R33, R37). -/
theorem finishPass_scaleKept (s : State) (b : Sbc) (result : List Byte) :
    ScaleKept s ((s.setSbc b).finishWork .sensorPass result) := by
  refine ⟨⟨fun h => finishWork_slotsLawful (t := s.setSbc b) h rfl (fun j ne => ?_) result, id⟩, rfl, rfl⟩
  cases j
  case sensorPass => exact absurd rfl ne
  all_goals rfl

/-- A COMMIT that ends (R203). -/
theorem finishCommit_scaleKept (s : State) (c : Stc) (result : List Byte) :
    ScaleKept s ((s.setStc c).finishWork .commit result) := by
  refine ⟨⟨fun h => finishWork_slotsLawful (t := s.setStc c) h rfl (fun j ne => ?_) result, id⟩, rfl, rfl⟩
  cases j
  case commit => exact absurd rfl ne
  all_goals rfl

theorem calHeld_of_none {s : State} (h : s.wge.cal = none) : s.calHeld := by
  intro on
  rw [h] at on
  cases on

/-- No CAL_SPAN works while the lift is in OPEN or GRIPPED (R103). -/
theorem State.calHeld.idle {s : State} (h : s.calHeld) (low : ∀ l, s.wge.lift = some l → l.stage = .gripped) : s.wge.cal = none := by
  cases cal : s.wge.cal with
  | none => rfl
  | some k =>
    have up := h (by rw [cal]; rfl)
    obtain low | low := liftState_low low <;> rw [low] at up <;> rcases up with up | up <;> cases up

theorem endTare_scaleKept (c : WorkCode) (s : State) : ScaleKept s (endTare c s) := by
  unfold endTare
  split
  · exact ⟨⟨fun h => finishTare_slotsLawful (w := { s.wge with tare := none, az := .empty }) h rfl _, id⟩, rfl, rfl⟩
  · exact .refl s

theorem endCal_scaleKept (c : WorkCode) (s : State) : ScaleKept s (endCal c s) := by
  unfold endCal
  split
  · exact ⟨⟨fun h => finishCal_slotsLawful (w := { s.wge with cal := none }) h rfl _, fun _ => calHeld_of_none rfl⟩, rfl, rfl⟩
  · exact .refl s

theorem endWaitingPass_scaleKept (c : WorkCode) (s : State) : ScaleKept s (endWaitingPass c s) :=
  rel_ite (finishPass_scaleKept _ _ _) (.refl s)

theorem commitEnd_scaleKept (ok : Bool) (s : State) : ScaleKept s (commitEnd ok s) := by
  unfold commitEnd
  split
  · exact rel_ite (finishCommit_scaleKept _ _ _) (finishCommit_scaleKept _ _ _)
  · exact .refl s

theorem tareTimeout_scaleKept (s : State) : ScaleKept s (tareTimeout s) := by
  unfold tareTimeout
  split
  · exact rel_ite (endTare_scaleKept _ s) (.refl s)
  · exact .refl s

/-! ### The samples of TARE and CAL_SPAN (R99, R100, R104, R105) -/

section samples
variable (w : Wge) {t : TareWork} {k : CalWork} (c : Int)

theorem Wge.tareSample_empties : w.tareSample t false c = ({ w with tare := some { t with count := 0, sumC := 0 } }, false) := rfl

theorem Wge.tareSample_joins (few : t.count < 63) : w.tareSample t true c =
    ({ w with tare := some { t with count := t.count + 1, sumC := t.sumC + c } }, false) :=
  if_neg (show ¬64 ≤ t.count + 1 by omega)

theorem Wge.tareSample_completes (last : 63 ≤ t.count) : w.tareSample t true c =
    ({ w with z := meanOf (t.sumC + c) 64, zeroSuspect := false, az := .empty, tare := none }, true) :=
  if_pos (show 64 ≤ t.count + 1 by omega)

theorem Wge.calSample_rejects : w.calSample k false c = (w, none) := rfl

theorem Wge.calSample_joins (few : k.count < 127) : w.calSample k true c =
    ({ w with cal := some { k with count := k.count + 1, sumC := k.sumC + c } }, none) :=
  if_neg (show ¬128 ≤ k.count + 1 by omega)

/-- A complete collection that makes a span (R105). -/
theorem Wge.calSample_takes (last : 127 ≤ k.count) {diff : Int} {new : Nat}
    (judged : spanJudged w.z w.span k.mref (k.sumC + c) = (.ok, diff, new)) :
    w.calSample k true c = ({ w with cal := none, span := new, az := .empty }, some (calResult .ok diff new)) := by
  unfold Wge.calSample
  rw [if_pos rfl, if_pos (by omega), judged]
  rfl

/-- A complete collection that makes none (R105). -/
theorem Wge.calSample_fails (last : 127 ≤ k.count) {code : WorkCode} {diff : Int} {new : Nat} (bad : code ≠ .ok)
    (judged : spanJudged w.z w.span k.mref (k.sumC + c) = (code, diff, new)) :
    w.calSample k true c = ({ w with cal := none }, some (calResult code diff new)) := by
  unfold Wge.calSample
  rw [if_pos rfl, if_pos (by omega), judged]
  exact congrArg (·, _) (if_neg bad)

end samples

section steps
variable (cfg : Settings) (pose : Pose) (prev : Option Int) (c : Int) (x : Mass) (s : State)

theorem tareStep_none (h : s.wge.tare = none) : tareStep cfg prev c x s = s := by
  unfold tareStep
  rw [h]

theorem calStep_none (h : s.wge.cal = none) : calStep cfg pose prev c x s = s := by
  unfold calStep
  rw [h]

theorem tareStep_goesOn {t : TareWork} (h : s.wge.tare = some t) {w : Wge}
    (sampled : s.wge.tareSample t (zeroSteady cfg prev x) c = (w, false)) : tareStep cfg prev c x s = s.setWge w := by
  unfold tareStep
  rw [h]
  dsimp only
  rw [sampled]

theorem tareStep_ends {t : TareWork} (h : s.wge.tare = some t) {w : Wge}
    (sampled : s.wge.tareSample t (zeroSteady cfg prev x) c = (w, true)) :
    tareStep cfg prev c x s = (s.setWge w).finishWork .tare (tareResult .ok w.z) := by
  unfold tareStep
  rw [h]
  dsimp only
  rw [sampled]

theorem calStep_goesOn {k : CalWork} (h : s.wge.cal = some k) {w : Wge}
    (sampled : s.wge.calSample k (windowSteady cfg pose prev x) c = (w, none)) : calStep cfg pose prev c x s = s.setWge w := by
  unfold calStep
  rw [h]
  dsimp only
  rw [sampled]

theorem calStep_ends {k : CalWork} (h : s.wge.cal = some k) {w : Wge} {result : List Byte}
    (sampled : s.wge.calSample k (windowSteady cfg pose prev x) c = (w, some result)) :
    calStep cfg pose prev c x s = (s.setWge w).finishWork .calSpan result := by
  unfold calStep
  rw [h]
  dsimp only
  rw [sampled]

/-- A LINK arrival leaves no TARE, goes on with the one that works, or ends it with a new zero (R99, R100). -/
theorem tareStep_cases : tareStep cfg prev c x s = s ∨
    (s.wge.tare.isSome = true ∧ ∃ t, tareStep cfg prev c x s = s.setWge { s.wge with tare := some t }) ∨
    ∃ z result, tareStep cfg prev c x s =
      (s.setWge { s.wge with z := z, zeroSuspect := false, az := .empty, tare := none }).finishWork .tare result := by
  cases h : s.wge.tare with
  | none => exact .inl (tareStep_none cfg prev c x s h)
  | some t =>
    cases steady : zeroSteady cfg prev x with
    | false =>
      exact .inr (.inl ⟨rfl, _, tareStep_goesOn cfg prev c x s h (by rw [steady]; exact s.wge.tareSample_empties c)⟩)
    | true =>
      rcases Nat.lt_or_ge t.count 63 with few | last
      · exact .inr (.inl ⟨rfl, _, tareStep_goesOn cfg prev c x s h (by rw [steady]; exact s.wge.tareSample_joins c few)⟩)
      · exact .inr (.inr ⟨_, _, tareStep_ends cfg prev c x s h (by rw [steady]; exact s.wge.tareSample_completes c last)⟩)

/-- A LINK arrival leaves CAL_SPAN, goes on with the one that works, or ends it, its span and the auto-zero window moved or not (R104,
R105). -/
theorem calStep_cases : calStep cfg pose prev c x s = s ∨
    (s.wge.cal.isSome = true ∧ ∃ k, calStep cfg pose prev c x s = s.setWge { s.wge with cal := some k }) ∨
    ∃ span az result, (az = s.wge.az ∨ az = .empty) ∧ calStep cfg pose prev c x s =
      (s.setWge { s.wge with cal := none, span := span, az := az }).finishWork .calSpan result := by
  cases h : s.wge.cal with
  | none => exact .inl (calStep_none cfg pose prev c x s h)
  | some k =>
    cases steady : windowSteady cfg pose prev x with
    | false => exact .inl (calStep_goesOn cfg pose prev c x s h (by rw [steady]; exact s.wge.calSample_rejects c))
    | true =>
      rcases Nat.lt_or_ge k.count 127 with few | last
      · exact .inr (.inl ⟨rfl, _, calStep_goesOn cfg pose prev c x s h (by rw [steady]; exact s.wge.calSample_joins c few)⟩)
      · obtain ⟨code, diff, new, judged⟩ : ∃ code diff new,
            spanJudged s.wge.z s.wge.span k.mref (k.sumC + c) = (code, diff, new) := ⟨_, _, _, rfl⟩
        by_cases ok : code = .ok
        · rw [ok] at judged
          exact .inr (.inr ⟨_, _, _, .inr rfl,
            calStep_ends cfg pose prev c x s h (by rw [steady]; exact s.wge.calSample_takes c last judged)⟩)
        · exact .inr (.inr ⟨s.wge.span, s.wge.az, _, .inl rfl,
            calStep_ends cfg pose prev c x s h (by rw [steady]; exact s.wge.calSample_fails c last ok judged)⟩)

theorem tareStep_worksKept : WorksKept s (tareStep cfg prev c x s) := by
  rcases tareStep_cases cfg prev c x s with e | ⟨works, t, e⟩ | ⟨z, result, e⟩ <;> rw [e]
  · exact .refl s
  · exact ⟨fun h => setWge_slotsLawful h (fun _ => rfl) id, id⟩
  · exact ⟨fun h => finishTare_slotsLawful
      (w := { s.wge with z := z, zeroSuspect := false, az := .empty, tare := none }) h rfl result, id⟩

theorem calStep_worksKept : WorksKept s (calStep cfg pose prev c x s) := by
  rcases calStep_cases cfg pose prev c x s with e | ⟨works, k, e⟩ | ⟨span, az, result, -, e⟩ <;> rw [e]
  · exact .refl s
  · exact ⟨fun h => setWge_slotsLawful h id (fun _ => rfl), fun h _ => h works⟩
  · exact ⟨fun h => finishCal_slotsLawful (w := { s.wge with cal := none, span := span, az := az }) h rfl result,
      fun _ => calHeld_of_none rfl⟩

end steps

/-! ### LINK and GRIP (R61, R65 to R67, R77, R106) -/

/-- Steps 1 to 3 of R61 leave both works. -/
theorem Wge.steps123_works (w : Wge) (cfg : Settings) (pose : Pose) (c : Int) (x : Mass) :
    (w.steps123 cfg pose c x).tare = w.tare ∧ (w.steps123 cfg pose c x).cal = w.cal := by
  unfold Wge.steps123
  dsimp only
  split
  · obtain ⟨-, tare, cal, -⟩ := Wge.azSample_rest
      { w.takeLive x.m with lift := w.lift.map (fun l => l.sample cfg (windowSteady cfg pose w.prev x) x) } (cfg := cfg) c x.m
      (zeroSteady cfg w.prev x)
    exact ⟨tare, cal⟩
  · exact ⟨rfl, rfl⟩

theorem Wge.liftState_of_some {w : Wge} {l : Lift} (lift : w.lift = some l) : w.liftState = l.stage.state := by
  unfold Wge.liftState
  rw [lift]

/-- After its drop test a sampled lift that carries a CAL_SPAN is still in CARRYING or WEIGHED (R106). -/
theorem dropEndsCal_worksKept {s : State} {w : Wge} (tare : w.tare = s.wge.tare) (cal : w.cal = s.wge.cal)
    (lift : w.lift.isSome = s.wge.lift.isSome) : WorksKept s (dropEndsCal s.wge.liftState (s.setWge w)) := by
  have sampled (h : s.slotsLawful) : (s.setWge w).slotsLawful :=
    setWge_slotsLawful h (by rw [tare]; exact id) (by rw [cal]; exact id)
  unfold dropEndsCal
  split
  · exact ⟨fun h => (endCal_scaleKept _ _).slots (sampled h), fun _ => calHeld_of_none (by rw [endCal_wge])⟩
  · next noDrop =>
    refine ⟨sampled, fun h works => ?_⟩
    have up := h ((congrArg Option.isSome cal).symm.trans works)
    have notGripped : w.liftState ≠ .gripped := fun gripped => noDrop ⟨gripped, by rcases up with up | up <;> simp [up]⟩
    rw [State.setWge_wge]
    cases held : w.lift with
    | none =>
      have open_ : s.wge.lift = none := Option.not_isSome_iff_eq_none.1 (by rw [← lift, held]; simp)
      simp [Wge.liftState, open_] at up
    | some l =>
      rw [Wge.liftState_of_some held] at notGripped ⊢
      cases stage : l.stage <;> simp [stage, Stage.state] at notGripped ⊢

theorem linkWork_worksKept (c : Int) (o : Bool) (s : State) : WorksKept s (linkWork c o s) := by
  unfold linkWork workSample
  dsimp only
  obtain ⟨tare, cal⟩ := s.wge.steps123_works s.cfg s.pos.pose c (massOf s.wge.z s.wge.span c o)
  obtain ⟨lift, -⟩ := s.wge.steps123_leaves s.cfg s.pos.pose c (massOf s.wge.z s.wge.span c o)
  refine (dropEndsCal_worksKept tare cal (by rw [lift, Option.isSome_map])).trans ?_
  exact (tareStep_worksKept _ _ _ _ _).trans ((calStep_worksKept _ _ _ _ _ _).trans (WorksKept.workFree.same rfl))

theorem linkArrival_worksKept (c : Int) (o : Bool) (s : State) : WorksKept s (linkArrival c o s) :=
  (linkWork_worksKept c o s).trans (WorksKept.workFree.same (linkArrival_handedOn c o s).workUntouched)

/-- LINK lost leaves the lift state, and WGE's works to their own ends (R77). -/
theorem linkLost_workUntouched (s : State) : WorkUntouched s (s.setWge s.wge.linkLost) := by
  have lift : s.wge.linkLost.liftState = s.wge.liftState := by
    unfold Wge.liftState Wge.linkLost
    cases s.wge.lift with
    | none => rfl
    | some l => cases stage : l.stage <;> simp [Lift.linkLost, stage]
  unfold WorkUntouched State.workView
  rw [State.setWge_wge, lift]
  rfl

theorem linkStale_scaleKept (s : State) : ScaleKept s (linkStale s) :=
  (linkLost_workUntouched s).scaleKept.trans ((endTare_scaleKept _ _).trans ((endCal_scaleKept _ _).trans
    (linkStale_handedOn s).workUntouched.scaleKept))

theorem liftHandOvers_scaleKept (old new : LiftState) (tag mass : Option Nat) (s : State) :
    ScaleKept s (runAny (liftHandOvers old new tag mass) s) :=
  (runAny_handedOn (liftHandOvers_handedOn _ _ _ _) s).workUntouched.scaleKept

/-- The lift moves while no CAL_SPAN works. -/
theorem setLift_scaleKept {s : State} {w : Wge} (tare : w.tare = s.wge.tare) (cal : w.cal = s.wge.cal) (z : w.z = s.wge.z)
    (span : w.span = s.wge.span) (low : ∀ l, s.wge.lift = some l → l.stage = .gripped) : ScaleKept s (s.setWge w) := by
  exact ⟨⟨fun h => setWge_slotsLawful h (by rw [tare]; exact id) (by rw [cal]; exact id),
    fun h => calHeld_of_none (cal.trans (h.idle low))⟩, z, span⟩

theorem release_scaleKept (l : Lift) (s : State) : ScaleKept s (release l s) := by
  have ended : ScaleKept s (endCal .aborted (s.setWge { s.wge with lift := none })) :=
    ⟨⟨fun h => (endCal_scaleKept .aborted (s.setWge { s.wge with lift := none })).slots h,
      fun _ => calHeld_of_none (by rw [endCal_wge])⟩, by rw [endCal_wge]; rfl, by rw [endCal_wge]; rfl⟩
  have tally (u : State) (t : Tlu) : WorkUntouched u (u.setTlu t) := rfl
  exact ended.trans (((tally _ _).trans (takeCompletedLift_handedOn _ _).workUntouched).scaleKept.trans
    (liftHandOvers_scaleKept _ _ _ _ _))

theorem gripArrival_scaleKept (closed : Bool) (s : State) : ScaleKept s (gripArrival closed s) := by
  unfold gripArrival
  split
  · next open_ =>
    have begun : ScaleKept s (liftBegun s) := setLift_scaleKept rfl rfl rfl rfl (by rw [open_]; nofun)
    exact begun.trans ((endTare_scaleKept _ _).trans (liftHandOvers_scaleKept _ _ _ _ _))
  · exact .refl s
  · exact .refl s
  · next l held =>
    split
    · next gripped =>
      have dropped : ScaleKept s (s.setWge { s.wge with lift := none }) :=
        setLift_scaleKept rfl rfl rfl rfl (by rw [held]; rintro _ ⟨⟩; exact gripped)
      exact dropped.trans (liftHandOvers_scaleKept _ _ _ _ _)
    · exact release_scaleKept l s

/-! ### Deliveries and polls (R23 to R28) -/

theorem poseArrival_workUntouched (r : Role) (returning : Bool) (x : Sample) (s : State) :
    WorkUntouched s (poseArrival r returning x s) := by
  obtain ⟨p, h⟩ := poseArrival_handedOn r returning x s
  exact h.workUntouched

theorem poseStale_workUntouched (r : Role) (s : State) : WorkUntouched s (poseStale r s) := by
  obtain ⟨p, h⟩ := poseStale_handedOn r s
  exact h.workUntouched

theorem deliverStale_scaleKept (r : Role) (s : State) : ScaleKept s (deliverStale r s) := by
  cases r
  case link => exact linkStale_scaleKept s
  case grip => exact .refl s
  case slew | main | outer | tele | tilt => exact (poseStale_workUntouched _ s).scaleKept

theorem deliverSample_worksKept (r : Role) (returning : Bool) (x : Sample) (s : State) :
    WorksKept s (deliverSample r returning x s) := by
  cases r
  case link => exact linkArrival_worksKept _ _ s
  case grip => exact (gripArrival_scaleKept _ s).toWorksKept
  case slew | main | outer | tele | tilt => exact WorksKept.workFree.same (poseArrival_workUntouched _ _ _ s)

theorem startAfresh_workUntouched (r : Role) (s : State) : WorkUntouched s (startAfresh r s) := by
  cases r <;> rfl

theorem applyPoll_worksKept (e : Entry) (stretched : Bool) (obs : PollObs) (s : State) :
    WorksKept s (applyPoll e stretched obs s) := by
  have same {t : State} (h : WorkUntouched s t) : WorksKept s t := WorksKept.workFree.same h
  have reported (e' : Entry) (b : Sbc) (pass : b.pass = s.sbc.pass) (c : Prop) [Decidable c] :
      WorkUntouched s (if c then reportEntry e' (s.setSbc b) else s.setSbc b) :=
    rel_ite (setSbc_workUntouched s pass) (setSbc_workUntouched s pass)
  unfold applyPoll
  dsimp only
  split
  · exact WorksKept.trans (same ((reported _ (s.sbc.mapRole _ _) rfl _).trans
      (rel_ite (startAfresh_workUntouched _ _) (.refl _)))) (deliverSample_worksKept _ _ _ _)
  · exact same (reported _ (s.sbc.mapRole _ _) rfl _)

/-! ### The bus (R19, R31 to R37) -/

theorem Sbc.run_pass (b : Sbc) (now : Nat) : (b.run now).pass = b.pass := by
  unfold Sbc.run Sbc.beginRound
  rw [Sbc.advance_pass]
  rfl

theorem Sbc.finishStop_pass (b : Sbc) (now : Nat) : (b.finishStop now).pass = b.pass := by
  unfold Sbc.finishStop
  dsimp only
  split
  · rw [Sbc.run_pass]
  · rfl

theorem Sbc.stop_pass (b : Sbc) (now : Nat) : (b.stop now).pass = b.pass := by
  unfold Sbc.stop
  dsimp only
  split
  · rfl
  · rw [Sbc.finishStop_pass]

theorem Sbc.roundExpiry_pass (b : Sbc) (deadline : Nat) : (b.roundExpiry deadline).pass = b.pass := by
  unfold Sbc.roundExpiry
  dsimp only
  split
  · unfold Sbc.beginRound
    rw [Sbc.advance_pass]
  · rfl

theorem allMissing_workUntouched (s : State) : WorkUntouched s (allMissing s) := by
  unfold WorkUntouched State.workView
  rw [allMissing_slots, allMissing_sbc, (allMissing_onlyBus s).wge, (allMissing_onlyBus s).stc]

theorem enterDown_scaleKept (s : State) : ScaleKept s (enterDown s) :=
  (((setSbc_workUntouched s (by rfl)).trans (allMissing_workUntouched _)).scaleKept).trans (endWaitingPass_scaleKept _ _)

theorem busStuck_scaleKept (s : State) : ScaleKept s (busStuck s) :=
  rel_ite (enterDown_scaleKept s) (setSbc_workUntouched s (by rfl)).scaleKept

theorem afterTransaction_scaleKept (stuck : Bool) (s : State) : ScaleKept s (afterTransaction stuck s) := by
  have missing (c : Prop) [Decidable c] : WorkUntouched s (if c then allMissing s else s) :=
    rel_ite (allMissing_workUntouched s) (.refl s)
  exact rel_ite ((missing _).trans (setSbc_workUntouched _ (Sbc.finishStop_pass _ _))).scaleKept
    (rel_ite (busStuck_scaleKept s) (rel_ite (setSbc_workUntouched s (by rfl)).scaleKept
      (setSbc_workUntouched s (Sbc.advance_pass _)).scaleKept))

theorem afterAttempt_workUntouched (ok : Bool) (s : State) : WorkUntouched s (afterAttempt ok s) :=
  rel_ite (setSbc_workUntouched s (Sbc.finishStop_pass _ _)) (rel_ite (setSbc_workUntouched s (by rfl)) (.refl s))

theorem pollDone_worksKept (t : Txn) (r : Role) (obs : PollObs) {after : Bool → PollOutcome → State → State}
    (h : ∀ b o s, ScaleKept s (after b o s)) (s : State) : WorksKept s (pollDone t r obs after s) := by
  have cleared (x : Option Txn) : WorksKept s (s.setSbc { s.sbc with txn := x }) := WorksKept.workFree.same rfl
  unfold pollDone
  split
  · exact rel_ite ((cleared _).trans (applyPoll_worksKept _ _ _ _))
      ((cleared none).trans ((applyPoll_worksKept _ _ _ _).trans (h _ _ _).toWorksKept))
  · exact (cleared none).trans (h _ _ _).toWorksKept

theorem pollTransactionDone_worksKept (obs : PollObs) (s : State) : WorksKept s (pollTransactionDone obs s) := by
  unfold pollTransactionDone
  split
  · split
    · exact pollDone_worksKept _ _ _ (fun _ _ u => afterTransaction_scaleKept _ u) s
    · exact pollDone_worksKept _ _ _ (fun _ _ u => (afterAttempt_workUntouched _ u).scaleKept) s
    · exact .refl s
  · exact .refl s

theorem passthroughDone_scaleKept (obs : PassObs) (s : State) : ScaleKept s (passthroughDone obs s) := by
  unfold passthroughDone
  split
  · exact rel_ite ((finishPass_scaleKept s _ _).trans (afterTransaction_scaleKept _ _)) (.refl s)
  · exact .refl s

theorem sensorStale_scaleKept (r : Role) (s : State) : ScaleKept s (sensorStale r s) := by
  have marked (b : Sbc) (e : Entry) (pass : b.pass = s.sbc.pass) : ScaleKept s (reportEntry e (s.setSbc b)) :=
    WorkUntouched.scaleKept (setSbc_workUntouched s pass)
  unfold sensorStale
  split
  · exact rel_ite ((marked _ _ (by rfl)).trans (deliverStale_scaleKept _ _)) (.refl s)
  · exact .refl s

theorem stretchTimeout_workUntouched (s : State) : WorkUntouched s (stretchTimeout s) := by
  unfold stretchTimeout
  split <;> rfl

theorem roundTimerExpiry_workUntouched (s : State) : WorkUntouched s (roundTimerExpiry s) := by
  unfold roundTimerExpiry
  split
  · exact rel_ite (setSbc_workUntouched s (Sbc.roundExpiry_pass _ _)) (.refl s)
  · exact .refl s

theorem busFreePulseEnd_workUntouched (s : State) : WorkUntouched s (busFreePulseEnd s) := by
  unfold busFreePulseEnd
  split
  · exact rel_ite (setSbc_workUntouched s (by rfl)) (.refl s)
  · exact .refl s
  · exact .refl s

theorem recoveryWaitEnd_scaleKept (dataHigh : Bool) (s : State) : ScaleKept s (recoveryWaitEnd dataHigh s) := by
  unfold recoveryWaitEnd
  split
  · exact rel_ite (rel_ite (setSbc_workUntouched s (by rfl)).scaleKept (busStuck_scaleKept s)) (.refl s)
  · exact .refl s
  · exact .refl s

theorem recoveryAttempt_workUntouched (s : State) : WorkUntouched s (recoveryAttempt s) := by
  unfold recoveryAttempt
  split
  · exact rel_ite (rel_ite (setSbc_workUntouched s (by rfl)) (setSbc_workUntouched s (by rfl))) (.refl s)
  · exact .refl s

theorem attemptWaitEnd_workUntouched (dataHigh : Bool) (s : State) : WorkUntouched s (attemptWaitEnd dataHigh s) := by
  unfold attemptWaitEnd
  split
  · refine rel_ite (rel_ite ?_ (setSbc_workUntouched s (by rfl))) (.refl s)
    split <;> exact setSbc_workUntouched s (by rfl)
  · exact .refl s
  · exact .refl s

theorem replaceEvent_scaleKept (new : List Entry) (e : Entry) (s : State) : ScaleKept s (replaceEvent new e s) := by
  have reported (body : List Byte) : ScaleKept s (s.queueReport .sensorState body) :=
    (queueReport_handedOn s _ _).workUntouched.scaleKept
  have lost (body : List Byte) : ScaleKept s (if e.fresh? = true then deliverStale e.pd.role (s.queueReport .sensorState body)
      else s.queueReport .sensorState body) :=
    rel_ite ((reported body).trans (deliverStale_scaleKept _ _)) (reported body)
  unfold replaceEvent
  split
  · exact lost _
  · exact rel_ite (lost _) (rel_ite (.refl s) (rel_ite ((reported _).trans (deliverStale_scaleKept _ _)) (.refl s)))

theorem takePollWrite_scaleKept (list : List PollDef) (s : State) : ScaleKept s (takePollWrite list s) := by
  refine (setSbc_workUntouched s (by rfl)).scaleKept.trans ((ScaleKept.workFree.runAny (fun f hf => ?_) _).trans
    (recompute_workUntouched _).scaleKept)
  obtain ⟨e, _, rfl⟩ := List.mem_map.1 hf
  exact replaceEvent_scaleKept _ e

/-! ### The operating states, the settings, the resets -/

theorem busStart_workUntouched (s : State) : WorkUntouched s (busStart s) := by
  have pass : (if s.sbc.stopping = true then { s.sbc with startPending := true } else s.sbc.run s.now).pass = s.sbc.pass := by
    split
    · rfl
    · exact Sbc.run_pass _ _
  exact rel_ite (setSbc_workUntouched s pass) (.refl s)

/-- Leaving SERVICE ends CAL_SPAN and a waiting passthrough; no change of the operating state moves zero or span (R38, R92, R106). -/
theorem changeState_scaleKept (new : OpState) (s : State) : ScaleKept s (changeState new s) := by
  have changed : WorkUntouched s (s.setStc { s.stc with op := new }) := rfl
  refine changed.scaleKept.trans (ScaleKept.workFree.runAny (fun f hf u => ?_) _)
  rw [stateHandOvers_eq] at hf
  obtain rfl | hf := List.mem_cons.1 hf
  · exact (queueReport_handedOn u _ _).workUntouched.scaleKept
  obtain rfl | rfl | rfl | rfl | rfl | rfl := mem_stateOthers hf
  · exact (present_workUntouched _ _ u).scaleKept
  · exact (busStart_workUntouched u).scaleKept
  · exact (setSbc_workUntouched u (Sbc.stop_pass _ _)).scaleKept
  · exact (cpmTake_handedOn _ u).workUntouched.scaleKept
  · exact endCal_scaleKept _ u
  · exact endWaitingPass_scaleKept _ u

/-- A write of zero or span leaves the works (R93). -/
theorem takeParam_worksKept (q : Param) (v : Int) (s : State) : WorksKept s (takeParam q v s) := by
  have act (u : State) : WorksKept u (q.act v u) := by
    cases q
    case l1 | l2 | teleMax | column | slewOff | slewLo | slewHi | reachLo | reachHi =>
      exact WorksKept.workFree.same (recompute_workUntouched u)
    case pageSize | k | fMin | uWarn | uHold | uRel => exact WorksKept.workFree.same (cpmEvaluate_handedOn u).workUntouched
    case z | span => exact ⟨id, id⟩
    case lMin | d | rs | rm | n | nMin | zb | permitS => exact .refl u
  have configured (g : Settings) : WorksKept s (s.setCfg g) := WorksKept.workFree.same rfl
  exact (configured _).trans (act _)

theorem install_worksKept (good : Bool) (c : ImageContents) (s : State) : WorksKept s (install good c s) := by
  have wf := WorksKept.workFree
  have configured (u : State) (g : Settings) : WorksKept u (u.setCfg g) := wf.same rfl
  refine (configured s _).trans (wf.runAny (fun f hf u => ?_) _)
  simp only [List.mem_cons, List.not_mem_nil, or_false] at hf
  rcases hf with rfl | rfl | rfl | rfl | rfl
  · exact wf.same (setSbc_workUntouched u (by rfl))
  · exact (configured u _).trans (wf.same (recompute_workUntouched _))
  · exact (configured u _).trans (rel_ite (.refl _) ⟨id, id⟩)
  · exact (configured u _).trans (wf.same (cpmEvaluate_handedOn _).workUntouched)
  · exact wf.same (makeEntries_handedOn _ u).workUntouched

theorem preloadDone_worksKept (readFailed : Bool) (s : State) : WorksKept s (preloadDone readFailed s) := by
  have marked (bad : Bool) (u : State) : WorkUntouched u
      (u.setStc { u.stc with preloading := false, settingsBad := bad, imageBad := bad, marker := true }) := rfl
  exact rel_ite ((install_worksKept _ _ s).trans ((WorksKept.workFree.same (marked _ _)).trans
    (changeState_scaleKept _ _).toWorksKept)) (.refl s)

/-- A part without a work, and with no slot in use, meets both laws. -/
theorem WorksKept.fresh (s : State) {t : State} (slots : t.mpt.slots = Vector.replicate 4 none) (cal : t.wge.cal = none) :
    WorksKept s t where
  slots _ := by
    rw [State.slotsLawful_iff, slots]
    exact .empty _
  cal _ := calHeld_of_none cal

theorem afterReset_cal (warm : Bool) (s : State) : (afterReset warm s).wge.cal = none := by
  cases warm <;> rfl

theorem afterReset_worksKept (warm : Bool) (s : State) : WorksKept s (afterReset warm s) :=
  .fresh s rfl (afterReset_cal warm s)

theorem supplyLoss_worksKept (backupInterrupted : Bool) (s : State) : WorksKept s (supplyLoss backupInterrupted s) :=
  .fresh s rfl rfl

end Sys2Proof.Machine
end

section
/-! PROOFS. The delayed slots, and zero and span, at requests, at every command and at every step (R92, R103, R106, R213): O13 and
O15. -/

namespace Sys2Proof.Machine

/-! ### Delayed requests (R213, R214) -/

/-- A work of a kind has begun, or begun and ended, for a slot that has just been taken by its request. -/
structure WorkBegun (k : DelayedKind) (s t : State) : Prop where
  slots : SlotsFit s.mpt.slots (fun j => j = k ∨ s.workOn j = true) → t.slotsLawful
  cal : s.calHeld → t.calHeld
  z : t.wge.z = s.wge.z
  span : t.wge.span = s.wge.span

theorem WorkBegun.trans {k : DelayedKind} {s t u : State} (h : WorkBegun k s t) (g : ScaleKept t u) : WorkBegun k s u :=
  ⟨g.slots ∘ h.slots, g.cal ∘ h.cal, g.z.trans h.z, g.span.trans h.span⟩

/-- A work begins where it comes on, the slots and the other works as they were. -/
theorem WorkBegun.begins {k : DelayedKind} {s t : State} (slots : t.mpt.slots = s.mpt.slots) (on : t.workOn k = true)
    (others : ∀ j, j ≠ k → t.workOn j = s.workOn j) (cal : s.calHeld → t.calHeld) (z : t.wge.z = s.wge.z)
    (span : t.wge.span = s.wge.span) : WorkBegun k s t := by
  refine ⟨fun fit => ?_, cal, z, span⟩
  rw [State.slotsLawful_iff, slots]
  refine fit.mono fun j h => ?_
  by_cases same : j = k
  · exact same ▸ on
  · exact (others j same).trans (h.resolve_left same)

/-- The slot table alone changes where a request takes a slot. -/
theorem takeSlot_rest (s : State) (p : Port) (k : DelayedKind) (body : List Byte) :
    ∃ m, s.takeSlot p k body = s.setMpt m := by
  unfold State.takeSlot
  split
  · exact ⟨_, rfl⟩
  · exact ⟨s.mpt, rfl⟩

theorem Mpt.unmatched {m : Mpt} {p : Port} {k : DelayedKind} {body : List Byte} (none : m.matching p k body = none) (i : Fin 4)
    (d : DelayedSlot) (slot : m.slots[i] = some d) : ¬(d.port = p ∧ d.kind = k ∧ d.body = body) := by
  rintro ⟨rfl, rfl, rfl⟩
  have skipped := List.findSome?_eq_none_iff.1 none i (List.mem_finRange i)
  rw [slot] at skipped
  simp [DelayedSlot.matchesRequest] at skipped

/-- A slot taken for a work that was not on fits the slots once that work is (R213). -/
theorem takeSlot_fits {s : State} (h : s.slotsLawful) {p : Port} {k : DelayedKind} {body : List Byte}
    (unmatched : s.mpt.matching p k body = none) (idle : s.workOn k = false) (service : k = .sensorPass → p = .service) :
    SlotsFit (s.takeSlot p k body).mpt.slots (fun j => j = k ∨ (s.takeSlot p k body).workOn j = true) := by
  obtain ⟨m, e⟩ := takeSlot_rest s p k body
  have same (j : DelayedKind) : (s.takeSlot p k body).workOn j = s.workOn j := by
    rw [e]
    cases j <;> rfl
  rw [State.slotsLawful_iff] at h
  simp only [same]
  unfold State.takeSlot
  split
  · exact h.take (d := { port := p, kind := k, body := body, state := .working }) (by simp [idle]) service (Mpt.unmatched unmatched) _
  · exact h.mono fun j => .inr

theorem freeDelayed_scaleKept (s : State) (i : Fin 4) : ScaleKept s (s.freeDelayed i) := by
  refine ⟨⟨fun h => ?_, id⟩, rfl, rfl⟩
  rw [State.slotsLawful_iff] at h ⊢
  refine (h.free i).mono fun j on => ?_
  cases j <;> exact on

section delayed
variable {p : Port} {k : DelayedKind} {body : List Byte} {judge : Bool → State → Option Code × State} {start : State → State}

/-- A delayed request keeps the laws where its owner accepts it only with its work off, and the work then begins (R213, R214). -/
theorem serveDelayed_scaleKept (service : k = .sensorPass → p = .service) (judged : ∀ b u, WorkUntouched u (judge b u).2)
    (accepts : ∀ b u, (judge b u).1 = none → u.workOn k = false ∧
      WorkBegun k ((judge b u).2.takeSlot p k body) (start ((judge b u).2.takeSlot p k body))) (s : State) :
    ScaleKept s (serveDelayed p k body judge start s).2 := by
  unfold serveDelayed
  split
  · split
    · exact .refl s
    · exact freeDelayed_scaleKept s _
  · next unmatched =>
    split
    · exact .refl s
    · have untouched := judged s.mpt.freeSlot.isSome s
      have accepted := accepts s.mpt.freeSlot.isSome s
      split
      · next e =>
        rw [e] at untouched
        exact untouched.scaleKept
      · next u e =>
        rw [e] at untouched accepted
        obtain ⟨idle, begun⟩ := accepted rfl
        have unmatched : u.mpt.matching p k body = none := (Mpt.matching_congr untouched.slots p k body).trans unmatched
        obtain ⟨m, taken⟩ := takeSlot_rest u p k body
        refine ⟨⟨fun h => ?_, fun h => begun.cal ?_⟩, begun.z.trans ?_, begun.span.trans ?_⟩
        · exact begun.slots (takeSlot_fits (untouched.scaleKept.slots h) unmatched ((untouched.workOn k).trans idle) service)
        · rw [taken]
          exact untouched.scaleKept.cal h
        · rw [taken]
          exact untouched.z
        · rw [taken]
          exact untouched.span

end delayed

theorem startTare_begun (p : Port) (s : State) : WorkBegun .tare s (startTare p s) := by
  refine .begins rfl rfl (fun j ne => ?_) id rfl rfl
  cases j
  case tare => exact absurd rfl ne
  all_goals rfl

/-- A CAL_SPAN begins on a lift in CARRYING or WEIGHED (R103). -/
theorem startCal_begun (mref : Nat) {s : State} (up : s.wge.liftState = .carrying ∨ s.wge.liftState = .weighed) :
    WorkBegun .calSpan s (startCal mref s) := by
  refine .begins rfl rfl (fun j ne => ?_) (fun _ _ => up) rfl rfl
  cases j
  case calSpan => exact absurd rfl ne
  all_goals rfl

theorem startPass_begun (x : Passthrough) (s : State) : WorkBegun .sensorPass s (startPass x s) := by
  have waits : WorkBegun .sensorPass s (s.setSbc { s.sbc with pass := some x }) := by
    refine .begins rfl rfl (fun j ne => ?_) id rfl rfl
    cases j
    case sensorPass => exact absurd rfl ne
    all_goals rfl
  exact waits.trans (rel_ite (endWaitingPass_scaleKept _ _) (.refl _))

theorem startCommit_begun (s : State) : WorkBegun .commit s (startCommit s) := by
  refine .begins rfl rfl (fun j ne => ?_) id rfl rfl
  cases j
  case commit => exact absurd rfl ne
  all_goals rfl

theorem eitherRefusal_workUntouched (a b : Option Code) (s : State) : WorkUntouched s (eitherRefusal a b s).2 := by
  unfold eitherRefusal
  split
  · obtain ⟨i, l, e, -⟩ := s.pick_eq 2
    rw [e]
    rfl
  · exact .refl s
  · exact .refl s

theorem eitherRefusal_none {a b : Option Code} {s : State} (h : (eitherRefusal a b s).1 = none) : a = none ∧ b = none := by
  cases a <;> cases b <;> simp [eitherRefusal] at h ⊢

/-- CAL_SPAN is accepted with none at work, on a lift in CARRYING or WEIGHED (R103). -/
theorem calJudged_accepts {mref : Nat} {free : Bool} {s : State} (h : (calJudged mref free s).1 = none) :
    s.wge.cal = none ∧ (s.wge.liftState = .carrying ∨ s.wge.liftState = .weighed) := by
  unfold calJudged at h
  dsimp only at h
  split at h
  · cases h
  · split at h
    · cases h
    · next idle =>
      split at h
      · cases h
      · next up =>
        refine ⟨by simpa using idle, ?_⟩
        cases lift : s.wge.liftState <;> simp [lift] at up ⊢

section owners
variable (p : Port) (body : List Byte) (s : State)

theorem serveTare_scaleKept : ScaleKept s (serveTare p body s).2 := by
  refine serveDelayed_scaleKept (k := .tare) nofun (fun _ u => .refl u) (fun b u none => ⟨?_, ?_⟩) s
  · unfold tareJudged at none
    cases tare : u.wge.tare with
    | none => exact congrArg Option.isSome tare
    | some t => simp [tare] at none
  · exact (startTare_begun p _).trans (rel_ite (endTare_scaleKept _ _) (.refl _))

theorem serveCalSpan_scaleKept : ScaleKept s (serveCalSpan p body s).2 := by
  refine serveDelayed_scaleKept (k := .calSpan) nofun (fun _ u => .refl u) (fun b u none => ?_) s
  obtain ⟨idle, up⟩ := calJudged_accepts none
  refine ⟨congrArg Option.isSome idle, ?_⟩
  obtain ⟨m, e⟩ := takeSlot_rest u p .calSpan body
  have begun := startCal_begun (natAt body 0 2) (s := u.takeSlot p .calSpan body) (by rw [e]; exact up)
  exact begun.trans (rel_ite (endCal_scaleKept _ _) (.refl _))

/-- SENSOR_PASS is a request of the service port (R36, R212). -/
theorem serveSensorPass_scaleKept (service : p = .service) : ScaleKept s (serveSensorPass p body s).2 := by
  refine serveDelayed_scaleKept (fun _ => service) (fun _ u => eitherRefusal_workUntouched _ _ u) (fun b u none => ?_) s
  obtain ⟨allowed, idle⟩ := eitherRefusal_none none
  cases fields : passOf body with
  | none => simp [fields] at allowed
  | some x =>
    refine ⟨?_, startPass_begun x _⟩
    unfold State.workOn
    cases pass : u.sbc.pass <;> simp [pass] at idle ⊢

theorem serveCommit_scaleKept : ScaleKept s (serveCommit p body s).2 := by
  refine serveDelayed_scaleKept (k := .commit) nofun (fun _ u => .refl u) (fun b u none => ⟨?_, startCommit_begun _⟩) s
  unfold commitJudged at none
  cases commit : u.committing with
  | false => exact commit
  | true => simp [commit] at none

/-! ### The other requests -/

theorem servePollWrite_scaleKept : ScaleKept s (servePollWrite p body s).2 := by
  unfold servePollWrite
  have judged := eitherRefusal_workUntouched (if s.committing then some .busy else none) (pollRefusal (pollDefsOf body)) s
  dsimp only
  split
  · next e =>
    rw [e] at judged
    exact judged.scaleKept
  · next e =>
    rw [e] at judged
    exact judged.scaleKept.trans (takePollWrite_scaleKept _ _)

theorem serveBusRestart_workUntouched : WorkUntouched s (serveBusRestart p body s).2 := by
  unfold serveBusRestart
  split
  · split <;> exact setSbc_workUntouched s (by rfl)
  · split
    · exact .refl s
    · exact setSbc_workUntouched s (by rfl)
  · exact .refl s
  · exact .refl s

theorem setTlu_workUntouched (t : Tlu) : WorkUntouched s (s.setTlu t) := rfl

theorem serveSetAssortment_workUntouched : WorkUntouched s (serveSetAssortment p body s).2 := by
  unfold serveSetAssortment
  dsimp only
  split <;> rfl

theorem serveVoidLift_workUntouched : WorkUntouched s (serveVoidLift p body s).2 := by
  unfold serveVoidLift
  split
  · exact .refl s
  · exact (setTlu_workUntouched s _).trans (handBunkTotal_handedOn _ _).workUntouched

theorem serveAssignLift_workUntouched : WorkUntouched s (serveAssignLift p body s).2 := by
  unfold serveAssignLift
  split
  · exact .refl s
  · exact ((setTlu_workUntouched s _).trans (rel_ite (reportTripClosed_handedOn _ _).workUntouched (.refl _))).trans
      (handBunkTotal_handedOn _ _).workUntouched

theorem serveTripClose_workUntouched : WorkUntouched s (serveTripClose p body s).2 := by
  unfold serveTripClose
  split
  · exact ((setTlu_workUntouched s _).trans (reportTripClosed_handedOn _ _).workUntouched).trans
      (handBunkTotal_handedOn _ _).workUntouched
  · exact .refl s

theorem serveChartWrite_workUntouched : WorkUntouched s (serveChartWrite p body s).2 := by
  unfold serveChartWrite
  have judged := eitherRefusal_workUntouched (if s.committing then some .busy else none)
    (if runAllowed (natAt body 0 1) (natAt body 1 1) then none else some .badField) s
  have configured (u : State) (c : Settings) : WorkUntouched u (u.setCfg c) := rfl
  split
  · next e =>
    rw [e] at judged
    exact judged
  · next e =>
    rw [e] at judged
    exact (judged.trans (configured _ _)).trans (cpmEvaluate_handedOn _).workUntouched

theorem serveOverrideSet_workUntouched : WorkUntouched s (serveOverrideSet p body s).2 := by
  unfold serveOverrideSet
  split
  · next i o _ => exact (cpmTake_handedOn (fun c => { c with overrides := c.overrides.set i o }) s).workUntouched
  · exact .refl s

theorem servePermit_workUntouched : WorkUntouched s (servePermit p body s).2 := by
  unfold servePermit
  split
  · exact .refl s
  · split
    · exact .refl s
    · split
      · exact .refl s
      · exact (startPermit_handedOn s).workUntouched

theorem serveWatchWrite_workUntouched : WorkUntouched s (serveWatchWrite p body s).2 := by
  unfold serveWatchWrite
  split
  · exact .refl s
  · split
    · exact .refl s
    · split
      · exact .refl s
      · exact (takeWatchWrite_handedOn _ _ s).workUntouched

theorem serveCaptureRead_workUntouched : WorkUntouched s (serveCaptureRead p body s).2 := by
  unfold serveCaptureRead
  split <;> rfl

theorem serveHoldManual_workUntouched : WorkUntouched s (serveHoldManual p body s).2 := by
  unfold serveHoldManual
  split
  · exact present_workUntouched _ _ s
  · exact .refl s

theorem setHls_workUntouched (h : Hls) : WorkUntouched s (s.setHls h) := rfl

theorem serveLineFaultClear_workUntouched : WorkUntouched s (serveLineFaultClear p body s).2 := by
  unfold serveLineFaultClear
  split
  · exact (setHls_workUntouched s _).trans (rel_ite (present_workUntouched _ _ _) (.refl _))
  · exact .refl s

/-- FEATURES may empty the auto-zero window, and leaves zero and span (R97). -/
theorem serveFeatures_workUntouched : WorkUntouched s (serveFeatures p body s).2 := by
  have emptied (c : Settings) (b : Prop) [Decidable b] : WorkUntouched s (if b then s.setCfg c else
      (s.setCfg c).setWge { (s.setCfg c).wge with az := .empty }) := rel_ite rfl rfl
  unfold serveFeatures
  split
  · exact .refl s
  · exact (emptied _ _).trans (cpmEvaluate_handedOn _).workUntouched

theorem serveEnterService_scaleKept : ScaleKept s (serveEnterService p body s).2 := by
  unfold serveEnterService
  split
  · exact .refl s
  · split
    · exact .refl s
    · exact changeState_scaleKept _ s

theorem serveLeaveService_scaleKept : ScaleKept s (serveLeaveService p body s).2 := by
  unfold serveLeaveService
  split
  · exact .refl s
  · split
    · exact .refl s
    · exact changeState_scaleKept _ s

theorem serveStandby_scaleKept : ScaleKept s (serveStandby p body s).2 := by
  unfold serveStandby
  split
  · exact .refl s
  · exact changeState_scaleKept _ s

theorem serveRestart_workUntouched : WorkUntouched s (serveRestart p body s).2 := by
  unfold serveRestart
  split <;> rfl

theorem serveReportEnable_workUntouched : WorkUntouched s (serveReportEnable p body s).2 := by
  unfold serveReportEnable
  dsimp only
  split
  · exact setPort_workUntouched s _ _
  · exact .refl s

theorem serveParamWrite_worksKept : WorksKept s (serveParamWrite p body s).2 := by
  unfold serveParamWrite
  split
  · exact .refl s
  · dsimp only
    split
    · exact .refl s
    · split
      · exact .refl s
      · exact takeParam_worksKept _ _ s

/-- The requests that begin or end a work, or write zero and span. -/
def Req.ofWorks : Req → Bool
  | .tare | .calSpan | .sensorPass | .commit | .pollWrite | .enterService | .leaveService | .standby | .paramWrite => true
  | _ => false

/-- Every other request leaves slots, works, lift state, zero and span as they were. -/
theorem serve_workUntouched {r : Req} (h : r.ofWorks = false) : WorkUntouched s (serve r p body s).2 := by
  cases r
  case tare | calSpan | sensorPass | commit | pollWrite | enterService | leaveService | standby | paramWrite => cases h
  case pose | sensors | pollRead | tallyRead | logRead | tripRead | chartRead | watchRead | linesRead | paramRead =>
    rw [serve_reads rfl]
    exact .refl s
  case status | defineAssortment | deleteAssortment | totalsReset | hitClear => rfl
  case busRestart => exact serveBusRestart_workUntouched p body s
  case setAssortment => exact serveSetAssortment_workUntouched p body s
  case voidLift => exact serveVoidLift_workUntouched p body s
  case assignLift => exact serveAssignLift_workUntouched p body s
  case tripClose => exact serveTripClose_workUntouched p body s
  case chartWrite => exact serveChartWrite_workUntouched p body s
  case overrideSet => exact serveOverrideSet_workUntouched p body s
  case permit => exact servePermit_workUntouched p body s
  case watchWrite => exact serveWatchWrite_workUntouched p body s
  case captureRead => exact serveCaptureRead_workUntouched p body s
  case holdManual => exact serveHoldManual_workUntouched p body s
  case lineFaultClear => exact serveLineFaultClear_workUntouched p body s
  case features => exact serveFeatures_workUntouched p body s
  case restart => exact serveRestart_workUntouched p body s
  case reportEnable => exact serveReportEnable_workUntouched p body s

/-- What an owner makes of any admitted request but PARAM_WRITE (R207, row 8). -/
theorem serve_scaleKept {r : Req} (other : r ≠ .paramWrite) (admitted : admits p s.stc.op r = true) :
    ScaleKept s (serve r p body s).2 := by
  cases hr : r.ofWorks with
  | false => exact (serve_workUntouched p body s hr).scaleKept
  | true =>
    cases r
    case tare => exact serveTare_scaleKept p body s
    case calSpan => exact serveCalSpan_scaleKept p body s
    case sensorPass =>
      cases p with
      | cab => cases admitted
      | service => exact serveSensorPass_scaleKept .service body s rfl
    case commit => exact serveCommit_scaleKept p body s
    case pollWrite => exact servePollWrite_scaleKept p body s
    case enterService => exact serveEnterService_scaleKept p body s
    case leaveService => exact serveLeaveService_scaleKept p body s
    case standby => exact serveStandby_scaleKept p body s
    case paramWrite => exact absurd rfl other
    all_goals cases hr

theorem serve_worksKept (r : Req) (admitted : admits p s.stc.op r = true) : WorksKept s (serve r p body s).2 := by
  by_cases written : r = .paramWrite
  · rw [written]
    exact serveParamWrite_worksKept p body s
  · exact (serve_scaleKept p body s written admitted).toWorksKept

end owners

/-! ### Ports and timers -/

theorem restartDue_workUntouched (p : Port) (f : Option OutFrame) (s : State) : WorkUntouched s (restartDue p f s) := by
  unfold restartDue
  split
  · exact rel_ite rfl rfl
  · exact .refl s

/-- A break frees the slots of its port; only the service port's goes with a passthrough (R38, R212, R216). -/
theorem portFreed_scaleKept (s : State) (p : Port) (q : PortState) {b : Sbc} (pass : p = .cab → b.pass = s.sbc.pass) :
    ScaleKept s ((s.setMpt ((s.mpt.setPort p q).freePort p)).setSbc b) := by
  refine ⟨⟨fun h => ?_, id⟩, rfl, rfl⟩
  rw [State.slotsLawful_iff] at h ⊢
  refine h.narrow fun i d hi => ?_
  have left : d.port ≠ p ∧ s.mpt.slots[i] = some d := by
    have hi : (if (s.mpt.slots[i].map (·.port)) = some p then none else s.mpt.slots[i]) = some d := by
      simpa [Mpt.freePort] using hi
    split at hi
    · cases hi
    · next other =>
      rw [hi] at other
      exact ⟨fun same => other (congrArg some same), hi⟩
  obtain ⟨other, slot⟩ := left
  refine ⟨d, slot, rfl, rfl, rfl, fun works => ⟨works, fun on => ?_⟩⟩
  cases kind : d.kind <;> rw [kind] at on
  case sensorPass =>
    have service := (h.2 i d slot).2 kind
    have cab : p = .cab := by
      cases p with
      | cab => rfl
      | service => exact absurd service other
    exact (congrArg Option.isSome (pass cab)).trans on
  all_goals exact on

theorem portBreak_scaleKept (p : Port) (s : State) : ScaleKept s (portBreak p s) := by
  have freed (b : Sbc) (pass : p = .cab → b.pass = s.sbc.pass) := portFreed_scaleKept s p (s.port p).broken pass
  have dropped : ScaleKept s (if p = .service then dropPass (s.setMpt ((s.mpt.setPort p (s.port p).broken).freePort p)) else
      s.setMpt ((s.mpt.setPort p (s.port p).broken).freePort p)) := by
    split
    · next service => exact rel_ite (freed _ (by rw [service]; nofun)) (freed s.sbc fun _ => rfl)
    · exact freed s.sbc fun _ => rfl
  exact rel_ite (.refl s) (dropped.trans (restartDue_workUntouched _ _ _).scaleKept)

theorem permitExpiry_workUntouched (s : State) : WorkUntouched s (permitExpiry s) := by
  unfold permitExpiry
  split
  · exact rel_ite (expirePermit_handedOn s).workUntouched (.refl s)
  · exact .refl s

theorem discardExpiry_scaleKept (i : Fin 4) (s : State) : ScaleKept s (discardExpiry i s) := by
  unfold discardExpiry
  split
  · exact rel_ite (freeDelayed_scaleKept s i) (.refl s)
  · exact .refl s

theorem senseExpiry_workUntouched (levels : LineMask) (s : State) : WorkUntouched s (senseExpiry levels s) := by
  have sampled (u : State) : WorkUntouched u (sense levels u) :=
    (setHls_workUntouched u _).trans ((queueAll_handedOn _ _ _).workUntouched.trans
      (rel_ite (present_workUntouched _ _ _) (.refl _)))
  exact rel_ite ((setHls_workUntouched s _).trans (sampled _)) (.refl s)

/-! ### Every command and every step -/

/-- The commands that may write the working zero or the working span (R92, R93). -/
def writesScale : Instr → Bool
  | .pollTransactionDone _ => true
  | .paramWrite _ _ => true
  | c => carriesAnyFrame c || isStart c

theorem exec_scaleKept {c : Instr} (other : writesScale c = false) {s t : State} (h : exec c s = .next t) : ScaleKept s t := by
  have wf := ScaleKept.workFree
  have untouched : ∀ {f : State → State}, (∀ s, WorkUntouched s (f s)) → completes f s = .next t → ScaleKept s t :=
    fun hf h => wf.completes (fun s => (hf s).scaleKept) h
  have frame : ∀ {r : Req} {p : Port} {body : List Byte}, completes (takeRequest r (serve r) p body) s = .next t →
      r ≠ .paramWrite → ScaleKept s t :=
    fun h ne => wf.completes (wf.takeFrame _ _ _
      (wf.judgeKnown (changeState_scaleKept .run) fun u admitted => serve_scaleKept _ _ u ne admitted)) h
  cases c
  case powerOn | supplyLoss | restartReset | preloadDone | pollTransactionDone | unknownKind | frameHeld | standbyWake |
    heldFrameHandled | byteArrival | paramWrite => cases other
  case roundTimerExpiry => exact untouched roundTimerExpiry_workUntouched h
  case stretchTimeout => exact untouched stretchTimeout_workUntouched h
  case sensorStale => exact wf.completes (sensorStale_scaleKept _) h
  case busFreePulseEnd => exact untouched busFreePulseEnd_workUntouched h
  case recoveryWaitEnd => exact wf.completes (recoveryWaitEnd_scaleKept _) h
  case recoveryAttempt => exact untouched recoveryAttempt_workUntouched h
  case attemptWaitEnd => exact untouched (attemptWaitEnd_workUntouched _) h
  case passthroughDone => exact wf.completes (passthroughDone_scaleKept _) h
  case tareTimeout => exact wf.completes tareTimeout_scaleKept h
  case permitExpiry => exact untouched permitExpiry_workUntouched h
  case senseExpiry => exact untouched (senseExpiry_workUntouched _) h
  case discardExpiry => exact wf.completes (discardExpiry_scaleKept _) h
  case frameGapTimeout | lineReturnsToIdle => exact untouched (fun s => rel_ite (setPort_workUntouched s _ _) (.refl s)) h
  case frameBadCheck | stopBitLow => exact untouched (fun s => setPort_workUntouched s _ _) h
  case frameSent =>
    exact untouched (fun s => (setPort_workUntouched s _ _).trans (restartDue_workUntouched _ _ _)) h
  case portBreak => exact wf.completes (portBreak_scaleKept _) h
  case commitDone => exact wf.completes (commitEnd_scaleKept _) h
  all_goals exact frame h (by decide)

/-- Settles O15: every command but the writers keeps zero and span (`exec_scaleKept`). -/
theorem zeroAndSpanWriters : Obligations.ZeroAndSpanWriters := by
  intro c s t noFrame noStart noPoll noWrite h
  have other : writesScale c = false := by
    unfold writesScale
    split
    · exact absurd rfl (noPoll _)
    · exact absurd rfl (noWrite _ _)
    · rw [noFrame, noStart]
      rfl
  have kept := exec_scaleKept other h
  exact ⟨kept.z, kept.span⟩

theorem exec_worksKept {c : Instr} {s t : State} (h : exec c s = .next t) : WorksKept s t := by
  have wf := WorksKept.workFree
  have serves (r : Req) (p : Port) (body : List Byte) (u : State) (admitted : admits p u.stc.op r = true) :=
    serve_worksKept p body u r admitted
  have wakes (u : State) : WorksKept u (wake u) := (changeState_scaleKept .run u).toWorksKept
  cases other : writesScale c with
  | false => exact (exec_scaleKept other h).toWorksKept
  | true =>
    cases c
    case powerOn => cases h; exact afterReset_worksKept _ s
    case supplyLoss => cases h; exact supplyLoss_worksKept _ s
    case restartReset => exact wf.completes (fun u => rel_ite (afterReset_worksKept true u) (.refl u)) h
    case preloadDone => exact wf.completes (preloadDone_worksKept _) h
    case pollTransactionDone => exact wf.completes (pollTransactionDone_worksKept _) h
    case unknownKind | frameHeld | standbyWake => exact wf.completes (wf.takeAny wakes serves _ _ _) h
    case heldFrameHandled => exact wf.completes (wf.heldFrame wakes serves _) h
    case byteArrival => exact wf.completes (wf.byteIn wakes serves _ _) h
    case paramWrite => exact wf.completes (wf.takeFrame _ _ _ (wf.judgeKnown wakes (serves .paramWrite _ _))) h
    all_goals cases other

theorem tick_workUntouched (s : State) : WorkUntouched s (tick s) := rel_ite rfl rfl

theorem step_worksKept {s t : State} (h : step s = .next t) : WorksKept s t := by
  obtain ⟨c, rest, -, k⟩ | ⟨-, rfl⟩ := step_cases h
  · have waited : WorkUntouched s (s.setPending rest) := rfl
    exact (WorksKept.workFree.same waited).trans (exec_worksKept k)
  · exact WorksKept.workFree.same (tick_workUntouched s)

/-- Settles O13: a slot is taken only while its kind's work is off and no slot holds the request (`serveDelayed_scaleKept`), a work that
ends leaves no slot of its kind WORKING (`finishWork_slotsLawful`), and CAL_SPAN ends where its lift leaves CARRYING and WEIGHED
(`dropEndsCal_worksKept`, `release_scaleKept`). -/
theorem delayedSlotsKept : Obligations.DelayedSlotsKept :=
  ⟨fun _ _ lawful h => (step_worksKept h).slots lawful, fun _ _ held h => (step_worksKept h).cal held⟩

end Sys2Proof.Machine
end

section
/-! PROOFS. The resets, and the supply lost and returned (R92, R135, R176, R195, R204): O5. -/

namespace Sys2Proof.Machine

/-- A reset leaves nothing to send. -/
theorem afterReset_pump (warm : Bool) (s : State) : (afterReset warm s).pump = afterReset warm s := rfl

/-- RESTART_RESET with the reset due is a warm reset (R204). -/
theorem exec_restartReset_due {s : State} (on : s.powered = true) (due : s.stc.restart = .due) :
    exec .restartReset s = .next (afterReset true s) := by
  have reset : restartReset s = afterReset true s := if_pos due
  refine (completes_powered (f := restartReset) on).trans ?_
  rw [reset, afterReset_pump]

/-- Once the OK reply of a RESTART has gone, its reset is due (R204, R209). -/
theorem frameSent_restart {s : State} {f : OutFrame} (replying : s.stc.restart = .replying) (sending : s.mpt.service.tx = some f)
    (ok : f.isRestartOk = true) : (frameSent .service s).stc = { s.stc with restart := .due } := by
  have sending : (s.port .service).tx = some f := sending
  unfold frameSent restartDue
  rw [sending]
  exact congrArg State.stc (if_pos ⟨rfl, replying, ok⟩)

/-- Only an OPEN definition is retained memory (R176). -/
theorem retainedEntries_open {es : Vector WatchEntry 8} {k : Fin 8} (open_ : es[k].d.owner = .open_) :
    (retainedEntries es)[k].d = es[k].d := by
  have kept : (retainedEntries es)[k].d = if es[k].d.owner = .open_ then es[k].d else defaultWatchDef := by
    simp [retainedEntries, WatchEntry.of]
  exact kept.trans (if_pos open_)

/-- Settles O5: each start is `afterReset`, warm or cold. -/
theorem resetsAndSupply : Obligations.ResetsAndSupply := by
  intro s warm
  have isWarm : afterReset true s = warm := rfl
  refine ⟨fun intact => ?_, fun lost => ?_, fun on due => ?_, fun f on replying sending kind status => ?_, fun lost => ?_⟩
  · have start : exec .powerOn s = .next (afterReset s.stc.marker s) := rfl
    rw [start, intact, isWarm]
  · have start : exec .powerOn s = .next (afterReset s.stc.marker s) := rfl
    rw [start, lost]
    rfl
  · rw [exec_restartReset_due on due, isWarm]
  · have ok : f.isRestartOk = true := by
      unfold OutFrame.isRestartOk
      rw [kind, status]
      decide
    exact ⟨_, completes_powered (f := frameSent .service) on, frameSent_restart replying sending ok⟩
  · exact ⟨supplyLoss lost s, rfl, rfl, rfl, rfl, rfl, rfl, rfl, rfl, fun k open_ => retainedEntries_open open_⟩

end Sys2Proof.Machine
end

section
/-! PROOFS. The ends of TARE, CAL_SPAN and COMMIT, and a slot's discard (R99 to R101, R104 to R106, R203, R215): O48. -/

namespace Sys2Proof.Machine

/-! ### A slot whose work ends (R215) -/

section slot
variable {s : State} {i : Fin 4} {d : DelayedSlot} (slot : s.mpt.slots[i] = some d) {k : DelayedKind} (result : List Byte)
include slot

theorem finishWork_slot (kind : d.kind = k) (working : d.state = .working) :
    (s.finishWork k result).mpt.slots[i] = some { d with state := .done result (s.now + 5000) } := by
  have held : s.mpt.slots[i.val] = some d := slot
  simp [State.finishWork, held, DelayedSlot.finish, kind, working, discardMs]

theorem finishWork_slot_other (other : d.kind ≠ k) : (s.finishWork k result).mpt.slots[i] = some d := by
  have held : s.mpt.slots[i.val] = some d := slot
  simp [State.finishWork, held, DelayedSlot.finish, other]

end slot

/-! ### Steps 1 to 3 of a LINK arrival (R61) -/

/-- The part after steps 1 to 3 of R61, with the drop test and the works still to come. -/
def linkSampled (c : Int) (ov : Bool) (s : State) : State :=
  s.setWge (s.wge.steps123 s.cfg s.pos.pose c (massOf s.wge.z s.wge.span c ov))

theorem linkWork_eq (c : Int) (ov : Bool) (s : State) :
    let x := massOf s.wge.z s.wge.span c ov
    let v := workSample s.cfg s.pos.pose s.wge.prev c x (dropEndsCal s.wge.liftState (linkSampled c ov s))
    linkWork c ov s = v.setWge { v.wge with prev := some x.m } := rfl

/-- Auto-zero rests while a lift is in progress or a TARE works (R95): the live window and the lift take the sample alone. -/
theorem linkSampled_rests {s : State} (busy : s.wge.lift.isSome = true ∨ s.wge.tare.isSome = true) (c : Int) (ov : Bool) :
    let x := massOf s.wge.z s.wge.span c ov
    linkSampled c ov s = s.setWge { s.wge.takeLive x.m with
      lift := s.wge.lift.map (fun l => l.sample s.cfg (windowSteady s.cfg s.pos.pose s.wge.prev x) x) } := by
  intro x
  have rests : Wge.azRuns { s.wge.takeLive x.m with
      lift := s.wge.lift.map (fun l => l.sample s.cfg (windowSteady s.cfg s.pos.pose s.wge.prev x) x) } s.cfg = false := by
    rcases busy with lift | tare
    · obtain ⟨l, lift⟩ := Option.isSome_iff_exists.1 lift
      simp [Wge.azRuns, lift]
    · obtain ⟨t, tare⟩ := Option.isSome_iff_exists.1 tare
      simp [Wge.azRuns, Wge.takeLive, tare]
  unfold linkSampled Wge.steps123
  exact congrArg s.setWge (if_neg (Bool.eq_false_iff.1 rests))

/-! ### TARE in a LINK arrival (R99, R100) -/

/-- TARE, zero and TARE's slots are as they were; an empty auto-zero window stays so. -/
structure TareSide (s t : State) : Prop where
  now : t.now = s.now
  tare : t.wge.tare = s.wge.tare
  z : t.wge.z = s.wge.z
  zeroSuspect : t.wge.zeroSuspect = s.wge.zeroSuspect
  az : s.wge.az = .empty → t.wge.az = .empty
  slots : ∀ (i : Fin 4) (d : DelayedSlot), s.mpt.slots[i] = some d → d.kind = .tare → t.mpt.slots[i] = some d

theorem TareSide.refl (s : State) : TareSide s s := ⟨rfl, rfl, rfl, rfl, id, fun _ _ slot _ => slot⟩

theorem TareSide.trans {s t u : State} (h : TareSide s t) (k : TareSide t u) : TareSide s u :=
  ⟨k.now.trans h.now, k.tare.trans h.tare, k.z.trans h.z, k.zeroSuspect.trans h.zeroSuspect, k.az ∘ h.az,
    fun i d slot kind => k.slots i d (h.slots i d slot kind) kind⟩

theorem HandedOn.tareSide {s t : State} (h : HandedOn s t) : TareSide s t :=
  ⟨h.now, h.tare, h.z, h.zeroSuspect, fun empty => h.az.trans empty, fun i d slot _ => by rw [h.slots]; exact slot⟩

theorem linkSampled_tareSide {s : State} (works : s.wge.tare.isSome = true) (c : Int) (ov : Bool) :
    TareSide s (linkSampled c ov s) := by
  rw [linkSampled_rests (.inr works)]
  exact ⟨rfl, rfl, rfl, rfl, id, fun _ _ slot _ => slot⟩

theorem endCal_tareSide (code : WorkCode) (s : State) : TareSide s (endCal code s) := by
  unfold endCal
  split
  · exact ⟨rfl, rfl, rfl, rfl, id, fun i d slot kind =>
      finishWork_slot_other (s := s.setWge { s.wge with cal := none }) slot _ (by rw [kind]; nofun)⟩
  · exact .refl s

theorem calStep_tareSide (cfg : Settings) (pose : Pose) (prev : Option Int) (c : Int) (x : Mass) (s : State) :
    TareSide s (calStep cfg pose prev c x s) := by
  rcases calStep_cases cfg pose prev c x s with e | ⟨-, k, e⟩ | ⟨span, az, result, window, e⟩ <;> rw [e]
  · exact .refl s
  · exact ⟨rfl, rfl, rfl, rfl, id, fun _ _ slot _ => slot⟩
  · exact ⟨rfl, rfl, rfl, rfl, fun empty => window.elim (fun same => same.trans empty) id, fun i d slot kind =>
      finishWork_slot_other (s := s.setWge { s.wge with cal := none, span := span, az := az }) slot _ (by rw [kind]; nofun)⟩

/-- All a LINK arrival does to a working TARE is its own step (R61, step 4). -/
theorem linkArrival_tareStep (c : Int) (ov : Bool) {s : State} (works : s.wge.tare.isSome = true) :
    ∃ v, TareSide s v ∧
      TareSide (tareStep s.cfg s.wge.prev c (massOf s.wge.z s.wge.span c ov) v) (linkArrival c ov s) := by
  have dropped (b : LiftState) (u : State) : TareSide u (dropEndsCal b u) := rel_ite (endCal_tareSide _ u) (.refl u)
  have previous (u : State) (m : Option Int) : TareSide u (u.setWge { u.wge with prev := m }) :=
    ⟨rfl, rfl, rfl, rfl, id, fun _ _ slot _ => slot⟩
  have handed := (linkArrival_handedOn c ov s).tareSide
  rw [linkWork_eq] at handed
  exact ⟨_, (linkSampled_tareSide works c ov).trans (dropped s.wge.liftState _),
    (calStep_tareSide _ _ _ _ _ _).trans ((previous _ _).trans handed)⟩

section tare
variable (c : Int) (ov : Bool) {t : TareWork} {s : State} (works : s.wge.tare = some t)
include works

theorem linkArrival_tare_unsteady (not : zeroSteady s.cfg s.wge.prev (massOf s.wge.z s.wge.span c ov) = false) :
    let u := linkArrival c ov s
    u.wge.tare = some { t with count := 0, sumC := 0 } ∧ u.wge.z = s.wge.z := by
  obtain ⟨v, before, after⟩ := linkArrival_tareStep c ov (s := s) (by rw [works]; rfl)
  have stepped := tareStep_goesOn s.cfg s.wge.prev c _ v (before.tare.trans works) (by rw [not]; exact v.wge.tareSample_empties c)
  rw [stepped] at after
  exact ⟨after.tare, after.z.trans before.z⟩

theorem linkArrival_tare_joins (yes : zeroSteady s.cfg s.wge.prev (massOf s.wge.z s.wge.span c ov) = true) (few : t.count < 63) :
    let u := linkArrival c ov s
    u.wge.tare = some { t with count := t.count + 1, sumC := t.sumC + c } ∧ u.wge.z = s.wge.z := by
  obtain ⟨v, before, after⟩ := linkArrival_tareStep c ov (s := s) (by rw [works]; rfl)
  have stepped := tareStep_goesOn s.cfg s.wge.prev c _ v (before.tare.trans works) (by rw [yes]; exact v.wge.tareSample_joins c few)
  rw [stepped] at after
  exact ⟨after.tare, after.z.trans before.z⟩

theorem linkArrival_tare_completes (yes : zeroSteady s.cfg s.wge.prev (massOf s.wge.z s.wge.span c ov) = true)
    (last : 63 ≤ t.count) :
    let u := linkArrival c ov s
    u.wge.tare = none ∧ u.wge.z = roundDiv (t.sumC + c) 64 ∧ u.wge.zeroSuspect = false ∧ u.wge.az = .empty ∧
      ∀ (i : Fin 4) (d : DelayedSlot), s.mpt.slots[i] = some d → d.kind = .tare → d.state = .working →
        u.mpt.slots[i] = some { d with state := .done (tareResult .ok u.wge.z) (s.now + 5000) } := by
  obtain ⟨v, before, after⟩ := linkArrival_tareStep c ov (s := s) (by rw [works]; rfl)
  have stepped := tareStep_ends s.cfg s.wge.prev c _ v (before.tare.trans works)
    (by rw [yes]; exact v.wge.tareSample_completes c last)
  rw [stepped] at after
  refine ⟨after.tare, after.z, after.zeroSuspect, after.az rfl, fun i d slot kind working => ?_⟩
  rw [after.z, ← before.now]
  exact after.slots i _ (finishWork_slot (s := v.setWge _) (before.slots i d slot kind) _ kind working) kind

end tare

/-! ### CAL_SPAN in a LINK arrival (R104 to R106) -/

/-- CAL_SPAN, zero, span and the slots are as they were. -/
structure CalSide (s t : State) : Prop where
  now : t.now = s.now
  tare : t.wge.tare = s.wge.tare
  cal : t.wge.cal = s.wge.cal
  z : t.wge.z = s.wge.z
  span : t.wge.span = s.wge.span
  slots : t.mpt.slots = s.mpt.slots

theorem CalSide.trans {s t u : State} (h : CalSide s t) (k : CalSide t u) : CalSide s u :=
  ⟨k.now.trans h.now, k.tare.trans h.tare, k.cal.trans h.cal, k.z.trans h.z, k.span.trans h.span, k.slots.trans h.slots⟩

theorem HandedOn.calSide {s t : State} (h : HandedOn s t) : CalSide s t := ⟨h.now, h.tare, h.cal, h.z, h.span, h.slots⟩

theorem linkSampled_calSide {s : State} (lifted : s.wge.lift.isSome = true) (c : Int) (ov : Bool) :
    CalSide s (linkSampled c ov s) := by
  rw [linkSampled_rests (.inl lifted)]
  exact ⟨rfl, rfl, rfl, rfl, rfl, rfl⟩

/-- A lift beyond GRIPPED is cut back to GRIPPED by a completed drop run and by nothing else (R76). -/
theorem Lift.sample_raised {l : Lift} (up : l.stage ≠ .gripped) (cfg : Settings) (steady : Bool) (x : Mass) :
    (l.sample cfg steady x).stage = .gripped ↔ x.m < ((cfg.weigh.lMin / 2 : Nat) : Int) ∧ 4 ≤ l.drops := by
  by_cases drops : x.m < ((cfg.weigh.lMin / 2 : Nat) : Int) ∧ 4 ≤ l.drops
  · refine iff_of_true ?_ drops
    obtain ⟨low, run⟩ := drops
    cases stage : l.stage with
    | gripped => exact absurd stage up
    | carrying =>
      rw [Lift.sample_carrying stage, Lift.carrySample_drops low run]
      rfl
    | weighed =>
      rw [Lift.sample_weighed stage, if_pos (Lift.dropRun_completes low run)]
      rfl
  · refine iff_of_false ?_ drops
    have stays : ¬x.m < ((cfg.weigh.lMin / 2 : Nat) : Int) ∨ l.drops < 4 := by omega
    cases stage : l.stage with
    | gripped => exact absurd stage up
    | carrying =>
      have carried : (l.carried cfg.weigh.lMin x).stage = .carrying := stage
      rw [Lift.sample_carrying stage, Lift.carrySample_stays stays]
      unfold Lift.accept Lift.reject
      split <;> dsimp only <;> split <;> simp [carried]
    | weighed =>
      rw [Lift.sample_weighed stage, if_neg (Lift.dropRun_short stays)]
      simp [stage]

section cal
variable (c : Int) (ov : Bool) {k : CalWork} {l : Lift} {s : State} (lift : s.wge.lift = some l) (up : l.stage ≠ .gripped)
include lift up

/-- The lift is at GRIPPED after steps 1 to 3 of R61 exactly where its drop run is complete (R76, R106). -/
theorem linkSampled_gripped : ((linkSampled c ov s).wge.liftState = .gripped ∧ s.wge.liftState ≠ .gripped) ↔
    (massOf s.wge.z s.wge.span c ov).m < ((s.cfg.weigh.lMin / 2 : Nat) : Int) ∧ 4 ≤ l.drops := by
  obtain ⟨sampled, -⟩ := s.wge.steps123_leaves s.cfg s.pos.pose c (massOf s.wge.z s.wge.span c ov)
  rw [lift, Option.map_some] at sampled
  have gripped (y : Stage) : y.state = .gripped ↔ y = .gripped := by cases y <;> simp [Stage.state]
  rw [linkSampled, State.setWge_wge, Wge.liftState_of_some sampled, gripped, Lift.sample_raised up]
  exact and_iff_left (liftState_of_stage lift up).2

/-- A drop ends CAL_SPAN, and that is all the arrival does to it (R106). -/
theorem linkArrival_calDrops
    (drops : (massOf s.wge.z s.wge.span c ov).m < ((s.cfg.weigh.lMin / 2 : Nat) : Int) ∧ 4 ≤ l.drops) (idle : s.wge.tare = none) :
    ∃ v, CalSide s v ∧ CalSide (endCal .aborted v) (linkArrival c ov s) := by
  have before := linkSampled_calSide (s := s) (by rw [lift]; rfl) c ov
  have ended : dropEndsCal s.wge.liftState (linkSampled c ov s) = endCal .aborted (linkSampled c ov s) :=
    if_pos ((linkSampled_gripped c ov lift up).2 drops)
  have noCal : (endCal .aborted (linkSampled c ov s)).wge.cal = none := by rw [endCal_wge]
  have noTare : (endCal .aborted (linkSampled c ov s)).wge.tare = none := by
    rw [endCal_wge]
    exact before.tare.trans idle
  refine ⟨_, before, CalSide.trans ?_ (linkArrival_handedOn c ov s).calSide⟩
  rw [linkWork_eq, ended, workSample, tareStep_none _ _ _ _ _ noTare, calStep_none _ _ _ _ _ _ noCal]
  exact ⟨rfl, rfl, rfl, rfl, rfl, rfl⟩

/-- Without a drop, all a LINK arrival does to CAL_SPAN is its own step (R61, step 4). -/
theorem linkArrival_calStep
    (stays : ¬((massOf s.wge.z s.wge.span c ov).m < ((s.cfg.weigh.lMin / 2 : Nat) : Int) ∧ 4 ≤ l.drops)) (idle : s.wge.tare = none) :
    ∃ v, CalSide s v ∧
      CalSide (calStep s.cfg s.pos.pose s.wge.prev c (massOf s.wge.z s.wge.span c ov) v) (linkArrival c ov s) := by
  have before := linkSampled_calSide (s := s) (by rw [lift]; rfl) c ov
  have goesOn : dropEndsCal s.wge.liftState (linkSampled c ov s) = linkSampled c ov s :=
    if_neg (mt (linkSampled_gripped c ov lift up).1 stays)
  refine ⟨_, before, CalSide.trans ?_ (linkArrival_handedOn c ov s).calSide⟩
  rw [linkWork_eq, goesOn, workSample, tareStep_none _ _ _ _ _ (before.tare.trans idle)]
  exact ⟨rfl, rfl, rfl, rfl, rfl, rfl⟩

end cal

/-! ### The judgement of a span (R105) -/

theorem spanJudged_bad {z : Int} {span mref : Nat} {sumC : Int}
    (bad : roundDiv sumC 128 - z ≤ 0 ∨ roundDiv ((mref : Int) * 100000) (roundDiv sumC 128 - z).toNat < 1 ∨
      65535 < roundDiv ((mref : Int) * 100000) (roundDiv sumC 128 - z).toNat) :
    spanJudged z span mref sumC = (.badSpan, roundDiv sumC 128 - z, span) := by
  unfold spanJudged meanOf
  dsimp only
  split
  · rfl
  · exact if_neg (by omega)

theorem spanJudged_good {z : Int} {span mref : Nat} {sumC : Int} (positive : 0 < roundDiv sumC 128 - z)
    (least : 1 ≤ roundDiv ((mref : Int) * 100000) (roundDiv sumC 128 - z).toNat)
    (most : roundDiv ((mref : Int) * 100000) (roundDiv sumC 128 - z).toNat ≤ 65535) :
    spanJudged z span mref sumC =
      (.ok, roundDiv sumC 128 - z, (roundDiv ((mref : Int) * 100000) (roundDiv sumC 128 - z).toNat).toNat) := by
  unfold spanJudged meanOf
  dsimp only
  rw [if_neg (by omega)]
  exact if_pos ⟨least, most⟩

/-! ### CAL_SPAN's sample by its rows (R104 to R106) -/

section rows
variable (c : Int) (ov : Bool) {k : CalWork} {l : Lift} {s : State} (works : s.wge.cal = some k) (lift : s.wge.lift = some l)
  (up : l.stage ≠ .gripped) (idle : s.wge.tare = none)
include lift up idle

/-- CAL_SPAN never writes zero, and with a lift auto-zero rests (R92, R95). -/
theorem linkArrival_cal_z : (linkArrival c ov s).wge.z = s.wge.z := by
  by_cases drops : (massOf s.wge.z s.wge.span c ov).m < ((s.cfg.weigh.lMin / 2 : Nat) : Int) ∧ 4 ≤ l.drops
  · obtain ⟨v, before, after⟩ := linkArrival_calDrops c ov lift up drops idle
    exact after.z.trans ((endCal_tareSide _ v).z.trans before.z)
  · obtain ⟨v, before, after⟩ := linkArrival_calStep c ov lift up drops idle
    exact after.z.trans ((calStep_tareSide _ _ _ _ _ v).z.trans before.z)

include works

theorem linkArrival_cal_drops
    (drops : (massOf s.wge.z s.wge.span c ov).m < ((s.cfg.weigh.lMin / 2 : Nat) : Int) ∧ 4 ≤ l.drops) :
    let u := linkArrival c ov s
    u.wge.cal = none ∧ u.wge.span = s.wge.span ∧
      ∀ (i : Fin 4) (d : DelayedSlot), s.mpt.slots[i] = some d → d.kind = .calSpan → d.state = .working →
        u.mpt.slots[i] = some { d with state := .done (calResult .aborted 0 s.wge.span) (s.now + 5000) } := by
  obtain ⟨v, before, after⟩ := linkArrival_calDrops c ov lift up drops idle
  have ended : endCal .aborted v =
      (v.setWge { v.wge with cal := none }).finishWork .calSpan (calResult .aborted 0 v.wge.span) := by
    unfold endCal
    rw [before.cal.trans works]
  rw [ended] at after
  refine ⟨after.cal, after.span.trans before.span, fun i d slot kind working => ?_⟩
  rw [after.slots, ← before.now, ← before.span]
  rw [← before.slots] at slot
  exact finishWork_slot (s := v.setWge _) slot _ kind working

variable (stays : ¬((massOf s.wge.z s.wge.span c ov).m < ((s.cfg.weigh.lMin / 2 : Nat) : Int) ∧ 4 ≤ l.drops))
include stays

theorem linkArrival_cal_unsteady (not : windowSteady s.cfg s.pos.pose s.wge.prev (massOf s.wge.z s.wge.span c ov) = false) :
    let u := linkArrival c ov s
    u.wge.cal = some k ∧ u.wge.span = s.wge.span := by
  obtain ⟨v, before, after⟩ := linkArrival_calStep c ov lift up stays idle
  have held := before.cal.trans works
  rw [calStep_goesOn _ _ _ c _ v held (by rw [not]; exact v.wge.calSample_rejects c)] at after
  exact ⟨after.cal.trans held, after.span.trans before.span⟩

variable (yes : windowSteady s.cfg s.pos.pose s.wge.prev (massOf s.wge.z s.wge.span c ov) = true)
include yes

theorem linkArrival_cal_joins (few : k.count < 127) :
    let u := linkArrival c ov s
    u.wge.cal = some { k with count := k.count + 1, sumC := k.sumC + c } ∧ u.wge.span = s.wge.span := by
  obtain ⟨v, before, after⟩ := linkArrival_calStep c ov lift up stays idle
  rw [calStep_goesOn _ _ _ c _ v (before.cal.trans works) (by rw [yes]; exact v.wge.calSample_joins c few)] at after
  exact ⟨after.cal, after.span.trans before.span⟩

/-- The last sample of the collection ends CAL_SPAN by the judgement of its span (R105). -/
theorem linkArrival_cal_completes (last : 127 ≤ k.count) {code : WorkCode} {diff : Int} {new : Nat}
    (judged : spanJudged s.wge.z s.wge.span k.mref (k.sumC + c) = (code, diff, new)) :
    let u := linkArrival c ov s
    u.wge.cal = none ∧ u.wge.span = (if code = .ok then new else s.wge.span) ∧
      ∀ (i : Fin 4) (d : DelayedSlot), s.mpt.slots[i] = some d → d.kind = .calSpan → d.state = .working →
        u.mpt.slots[i] = some { d with state := .done (calResult code diff new) (s.now + 5000) } := by
  obtain ⟨v, before, after⟩ := linkArrival_calStep c ov lift up stays idle
  have held := before.cal.trans works
  have finished {w : Wge} (after : CalSide ((v.setWge w).finishWork .calSpan (calResult code diff new)) (linkArrival c ov s))
      (i : Fin 4) (d : DelayedSlot) (slot : s.mpt.slots[i] = some d) (kind : d.kind = .calSpan) (working : d.state = .working) :
      (linkArrival c ov s).mpt.slots[i] = some { d with state := .done (calResult code diff new) (s.now + 5000) } := by
    rw [after.slots, ← before.now]
    rw [← before.slots] at slot
    exact finishWork_slot (s := v.setWge w) slot _ kind working
  rw [← before.z, ← before.span] at judged
  by_cases ok : code = .ok
  · subst ok
    rw [calStep_ends _ _ _ c _ v held (by rw [yes]; exact v.wge.calSample_takes c last judged)] at after
    exact ⟨after.cal, after.span, finished after⟩
  · rw [calStep_ends _ _ _ c _ v held (by rw [yes]; exact v.wge.calSample_fails c last ok judged)] at after
    exact ⟨after.cal, (after.span.trans before.span).trans (if_neg ok).symm, finished after⟩

end rows

/-! ### Timers -/

theorem tareTimeout_due {s : State} {t : TareWork} (works : s.wge.tare = some t) (due : t.deadline ≤ s.now) :
    tareTimeout s = (s.setWge { s.wge with tare := none, az := .empty }).finishWork .tare (tareResult .notSteady s.wge.z) := by
  unfold tareTimeout endTare
  rw [works]
  exact if_pos due

theorem commitEnd_ok {s : State} {c : ImageContents} (works : s.stc.commit = some c) :
    commitEnd true s = (s.setStc { s.stc with
      commit := none, settingsBad := false
      image := { contents := c, check := Config.settingsCheck c, invalid := false } }).finishWork .commit (be1 WorkCode.ok.num) := by
  unfold commitEnd
  rw [works]
  rfl

theorem commitEnd_failed {s : State} {c : ImageContents} (works : s.stc.commit = some c) :
    commitEnd false s = (s.setStc { s.stc with commit := none }).finishWork .commit (be1 WorkCode.writeFail.num) := by
  unfold commitEnd
  rw [works]
  rfl

theorem discardExpiry_due {s : State} {i : Fin 4} {d : DelayedSlot} {result : List Byte} {u : Nat} (slot : s.mpt.slots[i] = some d)
    (done : d.state = .done result u) (due : u ≤ s.now) : discardExpiry i s = s.freeDelayed i := by
  unfold discardExpiry
  rw [slot]
  exact if_pos ((d.discardDue_iff s.now).2 ⟨result, u, done, due⟩)

/-- Settles O48: the timers and COMMIT by their equations; a LINK arrival by the one step it takes with the work
(`linkArrival_tareStep`, `linkArrival_calStep`), or by the drop that ends CAL_SPAN (`linkArrival_calDrops`). -/
theorem delayedWorkEnds : Obligations.DelayedWorkEnds := by
  refine ⟨?timer, ?commit, ?discard, ?tare, ?cal⟩
  case timer =>
    intro t s on works due
    refine (completes_powered (f := tareTimeout) on).trans ?_
    rw [tareTimeout_due works due]
    rfl
  case commit =>
    intro c s on works slots
    refine ⟨(completes_powered (f := commitEnd true) on).trans ?_, (completes_powered (f := commitEnd false) on).trans ?_⟩
    · rw [commitEnd_ok works]
      rfl
    · rw [commitEnd_failed works]
      rfl
  case discard =>
    intro i d result u s on slot done due
    refine (completes_powered (f := discardExpiry i) on).trans ?_
    rw [discardExpiry_due slot done due]
    rfl
  case tare =>
    intro c ov t s works x steady u
    have isSteady : zeroSteady s.cfg s.wge.prev x = true ↔ steady := zeroSteady_iff _ _ _
    exact ⟨fun not => linkArrival_tare_unsteady c ov works (Bool.eq_false_iff.2 (mt isSteady.1 not)),
      fun yes few => linkArrival_tare_joins c ov works (isSteady.2 yes) few,
      fun yes last => linkArrival_tare_completes c ov works (isSteady.2 yes) last⟩
  case cal =>
    intro c ov k l s works lift up idle x cfg drops steady u done diff new
    have isSteady : windowSteady s.cfg s.pos.pose s.wge.prev x = true ↔ steady := windowSteady_iff _ _ _ _
    have completes (stays : ¬drops) (yes : steady) (last : 127 ≤ k.count) {code : WorkCode} {diff : Int} {new : Nat}
        (judged : spanJudged s.wge.z s.wge.span k.mref (k.sumC + c) = (code, diff, new)) :=
      linkArrival_cal_completes c ov works lift up idle stays (isSteady.2 yes) last judged
    refine ⟨linkArrival_cal_z c ov lift up idle, fun isDrop => linkArrival_cal_drops c ov works lift up idle isDrop,
      fun stays not => linkArrival_cal_unsteady c ov works lift up idle stays (Bool.eq_false_iff.2 (mt isSteady.1 not)),
      fun stays yes few => linkArrival_cal_joins c ov works lift up idle stays (isSteady.2 yes) few,
      fun stays yes last bad => completes stays yes last (spanJudged_bad bad), fun stays yes last positive least most => ?_⟩
    obtain ⟨none, span, slots⟩ := completes stays yes last (spanJudged_good positive least most)
    refine ⟨none, ?_, slots⟩
    rw [span, if_pos rfl]
    exact Int.toNat_of_nonneg (Int.le_trans (by decide) least)

end Sys2Proof.Machine
end

section
/-! PROOFS. The laws of the tally through each of its operations (R109 to R117, R122 to R131): the ground of O4 and O7. -/

namespace Sys2Proof.Machine

/-! ### One slot (R110) -/

/-- The two laws of R110 for one slot. -/
def AsnSlot.lawful (x : AsnSlot) : Prop := x.inLimits ∧ x.balanced

theorem AsnSlot.fresh_lawful (id : Nat) : (AsnSlot.fresh id).lawful := by
  constructor
  · simp [AsnSlot.inLimits, AsnSlot.fresh]
  · exact fun _ => ⟨rfl, rfl⟩

section slot
variable {x : AsnSlot} (h : x.lawful)
include h

theorem AsnSlot.add_lawful (m : Nat) : (x.add m).lawful := by
  obtain ⟨limits, balance⟩ := h
  unfold AsnSlot.inLimits at limits
  constructor
  · simp only [AsnSlot.inLimits, AsnSlot.add, addMass, addCount]
    omega
  · intro clear
    simp only [AsnSlot.add, massOver, countOver, Bool.or_eq_false_iff, decide_eq_false_iff_not, and_assoc] at clear
    obtain ⟨clear, within⟩ := clear
    have balance := balance clear
    simp only [AsnSlot.add, addMass, addCount]
    omega

/-- A REMOVE takes no more from the bunk than is there (R117). -/
theorem AsnSlot.remove_lawful (m : Nat) : (x.remove (x.split m)).lawful := by
  obtain ⟨limits, balance⟩ := h
  unfold AsnSlot.inLimits at limits
  unfold AsnSlot.remove AsnSlot.split
  by_cases counted : 0 < x.bunkCount <;>
    simp only [counted, decide_true, decide_false, Bool.false_eq_true, if_true, if_false]
  all_goals
    constructor
    · simp only [AsnSlot.inLimits, addMass, addCount]
      omega
    · intro clear
      simp only [massOver, countOver, Bool.or_eq_false_iff, decide_eq_false_iff_not, and_assoc] at clear
      obtain ⟨clear, within⟩ := clear
      have balance := balance clear
      simp only [addMass, addCount]
      omega

/-- The reversal of a record that the slot can give back (R128, R129). -/
theorem AsnSlot.reverse_lawful {r : LogRecord} (can : cannotReverse x r = false) : (x.reverse r).lawful := by
  obtain ⟨limits, balance⟩ := h
  unfold AsnSlot.inLimits at limits
  unfold cannotReverse at can
  unfold AsnSlot.reverse
  split at can
  · simp only [Bool.or_eq_false_iff, decide_eq_false_iff_not] at can
    constructor
    · simp only [AsnSlot.inLimits]
      omega
    · intro clear
      have balance := balance clear
      dsimp only
      omega
  · simp only [Bool.or_eq_false_iff, decide_eq_false_iff_not] at can
    cases counted : r.countTaken <;>
      simp only [counted, Bool.false_eq_true, if_true, if_false, decide_eq_false_iff_not] at can ⊢
    all_goals
      constructor
      · simp only [AsnSlot.inLimits, addMass, addCount]
        omega
      · intro clear
        simp only [massOver, countOver, Bool.or_eq_false_iff, decide_eq_false_iff_not, and_assoc] at clear
        obtain ⟨clear, within⟩ := clear
        have balance := balance clear
        simp only [addMass, addCount]
        omega
  · exact ⟨limits, balance⟩

theorem AsnSlot.newPeriod_lawful : x.newPeriod.lawful := by
  obtain ⟨limits, -⟩ := h
  unfold AsnSlot.inLimits at limits
  constructor
  · simp only [AsnSlot.inLimits, AsnSlot.newPeriod]
    omega
  · exact fun _ => ⟨rfl, rfl⟩

theorem AsnSlot.writeOff_lawful : x.writeOff.lawful := by
  obtain ⟨limits, balance⟩ := h
  unfold AsnSlot.inLimits at limits
  constructor
  · simp only [AsnSlot.inLimits, AsnSlot.writeOff, addMass, addCount]
    omega
  · intro clear
    simp only [AsnSlot.writeOff, massOver, countOver, Bool.or_eq_false_iff, decide_eq_false_iff_not, and_assoc] at clear
    obtain ⟨clear, within⟩ := clear
    have balance := balance clear
    simp only [AsnSlot.writeOff, addMass, addCount]
    omega

end slot

/-! ### The ids the slots hold (R109, R111) -/

/-- The id each slot holds. -/
def Tlu.ids (t : Tlu) : Vector (Option Nat) 16 := t.table.map (Option.map AsnSlot.id)

theorem Tlu.ids_get (t : Tlu) (i : Fin 16) : t.ids[i] = t.table[i].map AsnSlot.id := by
  simp [Tlu.ids]

theorem Tlu.slotOf_eq_find (t : Tlu) (id : Nat) :
    t.slotOf id = (List.finRange 16).find? (fun i => t.ids[i] == some id) := by
  unfold Tlu.slotOf
  congr 1
  funext i
  rw [t.ids_get i]
  cases t.table[i] <;> simp

theorem Tlu.defined_iff (t : Tlu) (id : Nat) : t.defined id = true ↔ ∃ i : Fin 16, t.ids[i] = some id := by
  unfold Tlu.defined
  rw [Tlu.slotOf_eq_find, List.find?_isSome]
  simp

theorem Tlu.slotOf_ids {t : Tlu} {id : Nat} {i : Fin 16} (slot : t.slotOf id = some i) : t.ids[i] = some id := by
  rw [Tlu.slotOf_eq_find] at slot
  simpa using List.find?_some slot

/-- A defined id's slot holds figures, under that id. -/
theorem Tlu.slotOf_table {t : Tlu} {id : Nat} {i : Fin 16} (slot : t.slotOf id = some i) :
    ∃ x, t.table[i] = some x ∧ x.id = id := by
  have held := Tlu.slotOf_ids slot
  rw [t.ids_get i] at held
  exact Option.map_eq_some_iff.1 held

/-- New figures under the id of the old ones leave every slot its id. -/
theorem Tlu.update_ids (t : Tlu) {id : Nat} {y : AsnSlot} (same : y.id = (t.figures id).id) : (t.update id y).ids = t.ids := by
  cases slot : t.slotOf id with
  | none =>
    unfold Tlu.update
    rw [slot]
  | some i =>
    obtain ⟨x, held, -⟩ := Tlu.slotOf_table slot
    rw [Tlu.figures_held slot held] at same
    rw [Tlu.update_slot slot]
    ext j hj o
    simp only [Tlu.ids, Vector.getElem_map, Vector.getElem_set]
    split
    · next e =>
      subst e
      rw [Fin.getElem_fin] at held
      simp [held, same]
    · rfl

theorem Tlu.mapTable_ids (t : Tlu) {f : AsnSlot → AsnSlot} (same : ∀ x, (f x).id = x.id) :
    ({ t with table := t.table.map (Option.map f) } : Tlu).ids = t.ids := by
  unfold Tlu.ids
  rw [Vector.map_map]
  congr 1
  funext o
  cases o <;> simp [same]

/-! ### What every operation keeps (R109 to R111, R115, R119, R122, R127) -/

theorem Tlu.lawful_iff (t : Tlu) : t.lawful ↔ ∀ (i : Fin 16) (x : AsnSlot), t.table[i] = some x → x.lawful := by
  have held (x : AsnSlot) : x ∈ t.slots ↔ ∃ i : Fin 16, t.table[i] = some x := by
    unfold Tlu.slots
    rw [List.mem_filterMap]
    simp [Vector.mem_iff_getElem, Fin.exists_iff]
  unfold Tlu.lawful
  simp only [held]
  exact ⟨fun h i x e => h x ⟨i, e⟩, fun h x ⟨i, e⟩ => h i x e⟩

/-- Slot 0 holds UNSORTED and the current assortment is defined, in terms of the ids the slots hold. -/
theorem Tlu.wellKept_iff (t : Tlu) : t.wellKept ↔ t.ids[(0 : Fin 16)] = some 0 ∧ (∃ i : Fin 16, t.ids[i] = some t.current) ∧
    t.log.length ≤ 64 ∧ t.history.length ≤ 8 ∧ 1 ≤ t.nextLift ∧ t.nextLift ≤ 65535 ∧ t.trip.number ≤ 9999 := by
  unfold Tlu.wellKept
  rw [Tlu.defined_iff, t.ids_get 0]
  rfl

/-- The laws of the tally hold on if they held. -/
structure Tlu.Kept (t u : Tlu) : Prop where
  lawful : t.lawful → u.lawful
  wellKept : t.wellKept → u.wellKept

theorem Tlu.Kept.refl (t : Tlu) : t.Kept t := ⟨id, id⟩

theorem Tlu.Kept.trans {t u v : Tlu} (h : t.Kept u) (k : u.Kept v) : t.Kept v := ⟨k.lawful ∘ h.lawful, k.wellKept ∘ h.wellKept⟩

/-- The figures change under the ids they had. -/
theorem Tlu.Kept.ofTable {t : Tlu} {table : Vector (Option AsnSlot) 16}
    (lawful : t.lawful → ({ t with table := table } : Tlu).lawful) (ids : ({ t with table := table } : Tlu).ids = t.ids) :
    t.Kept { t with table := table } where
  lawful := lawful
  wellKept h := by
    rw [Tlu.wellKept_iff] at h ⊢
    rwa [ids]

theorem Tlu.figures_lawful {t : Tlu} (h : t.lawful) (id : Nat) : (t.figures id).lawful := by
  cases slot : t.slotOf id with
  | none =>
    unfold Tlu.figures
    rw [slot]
    exact AsnSlot.fresh_lawful id
  | some i =>
    obtain ⟨x, held, -⟩ := Tlu.slotOf_table slot
    rw [Tlu.figures_held slot held]
    exact t.lawful_iff.1 h i x held

theorem Tlu.set_lawful {t : Tlu} (h : t.lawful) (i : Fin 16) {o : Option AsnSlot} (new : ∀ y, o = some y → y.lawful) :
    ({ t with table := t.table.set i o } : Tlu).lawful := by
  rw [Tlu.lawful_iff] at h ⊢
  intro j x held
  simp only [Fin.getElem_fin, Vector.getElem_set] at held
  split at held
  · exact new x held
  · exact h j x held

theorem Tlu.update_kept (t : Tlu) {id : Nat} {y : AsnSlot} (lawful : (t.figures id).lawful → y.lawful)
    (same : y.id = (t.figures id).id) : t.Kept (t.update id y) := by
  have ids := t.update_ids same
  have held (h : t.lawful) : y.lawful := lawful (Tlu.figures_lawful h id)
  cases slot : t.slotOf id with
  | none =>
    unfold Tlu.update
    rw [slot]
    exact .refl t
  | some i =>
    rw [Tlu.update_slot slot] at ids ⊢
    exact .ofTable (fun h => Tlu.set_lawful h i fun _ e => Option.some.inj e ▸ held h) ids

theorem Tlu.mapTable_kept (t : Tlu) {f : AsnSlot → AsnSlot} (lawful : ∀ x, x.lawful → (f x).lawful) (same : ∀ x, (f x).id = x.id) :
    t.Kept { t with table := t.table.map (Option.map f) } := by
  refine .ofTable (fun h => ?_) (t.mapTable_ids same)
  rw [Tlu.lawful_iff] at h ⊢
  intro i y held
  simp only [Fin.getElem_fin, Vector.getElem_map, Option.map_eq_some_iff] at held
  obtain ⟨x, held, rfl⟩ := held
  exact lawful x (h i x held)

theorem Tlu.setTrip_kept (t : Tlu) {trip : Trip} (number : t.trip.number ≤ 9999 → trip.number ≤ 9999) :
    t.Kept { t with trip := trip } := by
  refine ⟨id, fun h => ?_⟩
  obtain ⟨zero, current, log, history, first, last, trip⟩ := h
  exact ⟨zero, current, log, history, first, last, number trip⟩

theorem Tlu.setLog_kept (t : Tlu) {log : List LogRecord} (length : t.log.length ≤ 64 → log.length ≤ 64) :
    t.Kept { t with log := log } := by
  refine ⟨id, fun h => ?_⟩
  obtain ⟨zero, current, log, rest⟩ := h
  exact ⟨zero, current, length log, rest⟩

theorem Tlu.close_kept (t : Tlu) (cause : CloseCause) : t.Kept (t.close cause) := by
  refine ⟨id, fun h => ?_⟩
  obtain ⟨zero, current, log, -, rest⟩ := h
  exact ⟨zero, current, log, lastN_length 8 _, rest⟩

/-! ### Lifts taken, assigned and reversed (R114 to R117, R123 to R125, R128 to R130) -/

theorem Trip.add_number {t : Trip} (h : t.number ≤ 9999) (id m lift : Nat) : (t.add id m lift).number ≤ 9999 := by
  by_cases closed : t.state = .empty
  · rw [Trip.add_opens closed]
    simp only [Trip.opened]
    split <;> omega
  · rw [Trip.add_open closed]
    exact h

theorem Trip.remove_number {t : Trip} (h : t.number ≤ 9999) (id : Nat) (p : Split) (lift : Nat) :
    (t.remove id p lift).number ≤ 9999 := by
  unfold Trip.remove
  split <;> exact h

theorem AsnSlot.remove_id (x : AsnSlot) (p : Split) : (x.remove p).id = x.id := by
  unfold AsnSlot.remove
  dsimp only
  split <;> rfl

theorem AsnSlot.reverse_id (x : AsnSlot) (r : LogRecord) : (x.reverse r).id = x.id := by
  unfold AsnSlot.reverse
  split
  · rfl
  · dsimp only
    split <;> rfl
  · rfl

theorem Tlu.update_trip (t : Tlu) (id : Nat) (y : AsnSlot) : (t.update id y).trip = t.trip := by
  unfold Tlu.update
  split <;> rfl

theorem Tlu.applyAdd_kept (t : Tlu) (id m lift : Nat) : t.Kept (t.applyAdd id m lift).tlu :=
  (t.update_kept (AsnSlot.add_lawful · m) rfl).trans
    (Tlu.setTrip_kept _ (by rw [Tlu.update_trip]; exact fun h => t.trip.add_number h id m lift))

theorem Tlu.removed_kept (t : Tlu) (id m lift : Nat) : t.Kept (t.removed id m lift) :=
  (t.update_kept (AsnSlot.remove_lawful · m) (AsnSlot.remove_id _ _)).trans
    (Tlu.setTrip_kept _ (by rw [Tlu.update_trip]; exact fun h => t.trip.remove_number h id _ lift))

theorem Tlu.applyRemove_kept (t : Tlu) (id m lift : Nat) : t.Kept (t.applyRemove id m lift).tlu := by
  rw [Tlu.applyRemove_tlu]
  split
  · exact (t.removed_kept id m lift).trans (Tlu.close_kept _ _)
  · exact t.removed_kept id m lift

theorem Tlu.apply_kept (t : Tlu) (o : LiftOutcome) (id : Nat) (mass : Option Nat) (lift : Nat) :
    t.Kept (t.apply o id mass lift).tlu := by
  unfold Tlu.apply
  split
  · exact t.applyAdd_kept _ _ _
  · exact t.applyRemove_kept _ _ _
  · exact .refl t

/-- Applying an outcome leaves the log and the lift number to the lift taken. -/
theorem Tlu.apply_log (t : Tlu) (o : LiftOutcome) (id : Nat) (mass : Option Nat) (lift : Nat) :
    (t.apply o id mass lift).tlu.log = t.log ∧ (t.apply o id mass lift).tlu.nextLift = t.nextLift := by
  have updated (id : Nat) (y : AsnSlot) : (t.update id y).log = t.log ∧ (t.update id y).nextLift = t.nextLift := by
    unfold Tlu.update
    split <;> exact ⟨rfl, rfl⟩
  unfold Tlu.apply
  split
  · exact updated _ _
  · rw [Tlu.applyRemove_tlu]
    split <;> exact updated _ _
  · exact ⟨rfl, rfl⟩

theorem Tlu.handOver_kept (t : Tlu) (c : CompletedLift) : t.Kept (t.handOver c).tlu := by
  have applied := t.apply_kept c.outcome (if t.defined c.tag then c.tag else 0) c.mass t.nextLift
  refine ⟨applied.lawful, fun h => ?_⟩
  obtain ⟨-, -, -, -, first, last, -⟩ := id h
  obtain ⟨zero, current, -, history, -, -, number⟩ := applied.wellKept h
  refine ⟨zero, current, lastN_length 64 _, history, ?_, ?_, number⟩
  all_goals
    show _ ≤ _
    simp only [Tlu.handOver, liftAfter]
    split <;> omega

theorem Tlu.replace_kept (t : Tlu) (r : LogRecord) : t.Kept (t.replace r) :=
  t.setLog_kept (by rw [List.length_map]; exact id)

theorem Tlu.assign_kept (t : Tlu) (r : LogRecord) (o : LiftOutcome) (m : Nat) : t.Kept (t.assign r o m).tlu :=
  (t.apply_kept o r.asn (some m) r.number).trans (Tlu.replace_kept _ _)

theorem Tlu.voidJudged_can {t : Tlu} {n : Nat} {r : LogRecord} (ok : t.voidJudged n = .ok r) :
    cannotReverse (t.figures r.asn) r = false := by
  unfold Tlu.voidJudged at ok
  repeat' split at ok
  all_goals cases ok
  next can => exact Bool.eq_false_iff.2 can

theorem Tlu.reverse_kept {t : Tlu} {r : LogRecord} (can : cannotReverse (t.figures r.asn) r = false) : t.Kept (t.reverse r) := by
  have figured : t.Kept (t.update r.asn ((t.figures r.asn).reverse r)) :=
    t.update_kept (AsnSlot.reverse_lawful · can) (AsnSlot.reverse_id _ _)
  unfold Tlu.reverse
  refine .trans ?_ (Tlu.replace_kept _ _)
  split
  · dsimp only
    split
    · exact figured.trans (Tlu.setTrip_kept _ (by rw [Tlu.update_trip]; exact id))
    · exact figured
  · exact .refl t

/-! ### Assortments, totals and TRIP_CLOSE (R111 to R113, R126, R131) -/

theorem Tlu.setCurrent_kept {t : Tlu} {id : Nat} (defined : t.defined id = true) : t.Kept { t with current := id } := by
  refine ⟨fun h => h, fun h => ?_⟩
  obtain ⟨zero, -, rest⟩ := h
  exact ⟨zero, defined, rest⟩

/-- A free slot other than slot 0 may be filled, and one that holds neither UNSORTED nor the current assortment be freed. -/
theorem Tlu.set_kept (t : Tlu) {i : Fin 16} {o : Option AsnSlot} (lawful : ∀ y, o = some y → y.lawful)
    (unsorted : t.ids[i] ≠ some 0) (current : t.ids[i] ≠ some t.current) : t.Kept { t with table := t.table.set i o } := by
  have other {j : Fin 16} {n : Nat} (held : t.ids[j] = some n) (apart : t.ids[i] ≠ some n) :
      ({ t with table := t.table.set i o } : Tlu).ids[j] = some n := by
    have ne : i.val ≠ j.val := fun e => apart (Fin.ext e ▸ held)
    simpa [Tlu.ids, Vector.getElem_set, ne] using held
  refine ⟨fun h => Tlu.set_lawful h i lawful, fun h => ?_⟩
  rw [Tlu.wellKept_iff] at h ⊢
  obtain ⟨zero, ⟨j, defined⟩, rest⟩ := h
  exact ⟨other zero unsorted, ⟨j, other defined current⟩, rest⟩

theorem Tlu.define_kept (t : Tlu) (id : Nat) : t.Kept (t.define id).2 := by
  unfold Tlu.define
  split
  · exact .refl t
  · split
    · exact .refl t
    · split
      · exact .refl t
      · next i free =>
        have empty : t.ids[i] = none := by
          have found := List.find?_some free
          simp only [Bool.and_eq_true, Option.isNone_iff_eq_none] at found
          rw [t.ids_get i, found.2]
          rfl
        refine t.set_kept (fun y e => Option.some.inj e ▸ AsnSlot.fresh_lawful id) ?_ ?_ <;> simp [empty]

theorem Tlu.delete_kept (t : Tlu) (id : Nat) : t.Kept (t.delete id).2 := by
  unfold Tlu.delete
  split
  · exact .refl t
  · next nonzero =>
    split
    · exact .refl t
    · next i slot =>
      have held := Tlu.slotOf_ids slot
      dsimp only
      split
      · exact .refl t
      · split
        · exact .refl t
        · next other =>
          split
          · exact .refl t
          · refine t.set_kept nofun ?_ ?_
            · rw [held]
              simpa using nonzero
            · rw [held]
              simpa using Ne.symm other

theorem Tlu.newPeriod_kept (t : Tlu) : t.Kept t.newPeriod :=
  t.mapTable_kept (fun _ => AsnSlot.newPeriod_lawful) fun _ => rfl

theorem Tlu.closeOrdered_kept (t : Tlu) : t.Kept t.closeOrdered := by
  have written : t.Kept { t with table := t.table.map (Option.map AsnSlot.writeOff) } :=
    t.mapTable_kept (fun _ => AsnSlot.writeOff_lawful) fun _ => rfl
  have counted (moved : Nat) : t.Kept { t with
      table := t.table.map (Option.map AsnSlot.writeOff), trip := { t.trip with writtenOff := moved } } :=
    written.trans (Tlu.setTrip_kept _ id)
  exact (counted _).trans (Tlu.close_kept _ _)

theorem Tlu.reset_lawful : Tlu.reset.lawful := by
  have slots : Tlu.reset.slots = [AsnSlot.fresh 0] := rfl
  intro x held
  rw [slots, List.mem_singleton] at held
  exact held ▸ AsnSlot.fresh_lawful 0

theorem Tlu.reset_wellKept : Tlu.reset.wellKept := by
  refine ⟨rfl, rfl, ?_⟩
  simp [Tlu.reset, Trip.reset]

end Sys2Proof.Machine
end

section
/-! PROOFS. The laws of the tally through every command and every step (R109 to R111, R115, R119, R122, R127): O7. -/

namespace Sys2Proof.Machine

/-! ### What has no part in the tally -/

/-- The laws of the tally hold on from one state to another if they held. -/
def TallyKept (s t : State) : Prop := s.tlu.Kept t.tlu

theorem TallyKept.same {s t : State} (h : t.tlu = s.tlu) : TallyKept s t := by
  unfold TallyKept
  rw [h]
  exact .refl _

theorem TallyKept.portFree : PortFree TallyKept where
  refl _ := .refl _
  trans h k := Tlu.Kept.trans h k
  mpt _ _ := .refl _
  sched _ _ := .refl _

theorem TallyKept.refl (s : State) : TallyKept s s := .same rfl

theorem TallyKept.trans {s t u : State} (h : TallyKept s t) (k : TallyKept t u) : TallyKept s u := TallyKept.portFree.trans h k

theorem HandedOn.tallyKept {s t : State} (h : HandedOn s t) : TallyKept s t := .same h.tlu
theorem OnlyBus.tallyKept {s t : State} (h : OnlyBus s t) : TallyKept s t := .same h.tlu
theorem Judged.tallyKept {s t : State} (h : Judged s t) : TallyKept s t := .same (by rw [h.rest])

theorem present_tallyKept (src : HoldSource) (mask : LineMask) (s : State) : TallyKept s (present src mask s) :=
  (present_judged src mask s).tallyKept

theorem recompute_tallyKept (s : State) : TallyKept s (recompute s) := .same (recompute_handedOn s).tlu

theorem endTare_tallyKept (c : WorkCode) (s : State) : TallyKept s (endTare c s) := .same (endTare_tlu c s)
theorem endCal_tallyKept (c : WorkCode) (s : State) : TallyKept s (endCal c s) := .same (endCal_tlu c s)

/-! ### Deliveries, polls and the bus (R23 to R37, R65 to R67, R114) -/

theorem gripArrival_tallyKept (closed : Bool) (s : State) : TallyKept s (gripArrival closed s) := by
  unfold gripArrival
  split
  · exact .same (closeGrapple_leaves s).2.2.2.2.1
  · exact .refl s
  · exact .refl s
  · next l _ =>
    refine rel_ite (.same (openUnlifted_leaves s).2.1) ?_
    obtain ⟨-, -, tlu, -⟩ := release_leaves (l := l) (s := s) rfl
    unfold TallyKept
    rw [tlu]
    exact Tlu.handOver_kept _ _

theorem deliverSample_tallyKept (r : Role) (returning : Bool) (x : Sample) (s : State) :
    TallyKept s (deliverSample r returning x s) := by
  by_cases grip : r = .grip
  · rw [grip]
    exact gripArrival_tallyKept _ s
  · exact .same (deliverSample_tlu grip returning x s)

theorem applyPoll_tallyKept (e : Entry) (st : Bool) (obs : PollObs) (s : State) : TallyKept s (applyPoll e st obs s) := by
  have reported := (pollReported_onlyBus e st obs s).tallyKept
  by_cases good : judgePoll e.expectWaking st e.pd.role obs = .ok ∧ e.pd.enable = true
  · obtain ⟨returning, afresh, x, delivers⟩ := applyPoll_delivers e st obs s good.1 good.2
    rw [delivers]
    exact reported.trans (.trans (rel_ite (.same (startAfresh_tlu _ _)) (.refl _)) (deliverSample_tallyKept _ _ _ _))
  · rw [applyPoll_undelivered e st obs s good]
    exact reported

theorem afterAttempt_tallyKept (ok : Bool) (s : State) : TallyKept s (afterAttempt ok s) :=
  rel_ite (.refl s) (rel_ite (.refl s) (.refl s))

theorem pollDone_tallyKept (t : Txn) (r : Role) (obs : PollObs) {after : Bool → PollOutcome → State → State}
    (h : ∀ b o s, TallyKept s (after b o s)) (s : State) : TallyKept s (pollDone t r obs after s) := by
  have txn (b : Sbc) : TallyKept s (s.setSbc b) := .refl _
  unfold pollDone
  split
  · exact rel_ite ((txn _).trans (applyPoll_tallyKept _ _ _ _)) ((txn _).trans ((applyPoll_tallyKept _ _ _ _).trans (h _ _ _)))
  · exact (txn _).trans (h _ _ _)

theorem pollTransactionDone_tallyKept (obs : PollObs) (s : State) : TallyKept s (pollTransactionDone obs s) := by
  unfold pollTransactionDone
  split
  · split
    · exact pollDone_tallyKept _ _ _ (fun _ _ u => (afterTransaction_onlyBus _ u).tallyKept) s
    · exact pollDone_tallyKept _ _ _ (fun _ _ u => afterAttempt_tallyKept _ u) s
    · exact .refl s
  · exact .refl s

theorem passthroughDone_tallyKept (obs : PassObs) (s : State) : TallyKept s (passthroughDone obs s) := by
  have freed (b : Sbc) (result : List Byte) : TallyKept s ((s.setSbc b).finishWork .sensorPass result) := .refl _
  unfold passthroughDone
  split
  · exact rel_ite ((freed _ _).trans (afterTransaction_onlyBus _ _).tallyKept) (.refl s)
  · exact .refl s

theorem sensorStale_tallyKept (r : Role) (s : State) : TallyKept s (sensorStale r s) := by
  have stale (u : State) : TallyKept u (deliverStale r u) := .same (deliverStale_keeps r u).1
  have marked (e : Entry) (b : Sbc) : TallyKept s (reportEntry e (s.setSbc b)) := .refl _
  unfold sensorStale
  split
  · exact rel_ite ((marked _ _).trans (stale _)) (.refl s)
  · exact .refl s

theorem roundTimerExpiry_tallyKept (s : State) : TallyKept s (roundTimerExpiry s) := by
  unfold roundTimerExpiry
  split
  · exact rel_ite (.refl s) (.refl s)
  · exact .refl s

theorem stretchTimeout_tallyKept (s : State) : TallyKept s (stretchTimeout s) := by
  unfold stretchTimeout
  split <;> exact .refl s

theorem busFreePulseEnd_tallyKept (s : State) : TallyKept s (busFreePulseEnd s) := by
  unfold busFreePulseEnd
  split
  · exact rel_ite (.refl s) (.refl s)
  · exact .refl s
  · exact .refl s

theorem recoveryWaitEnd_tallyKept (dataHigh : Bool) (s : State) : TallyKept s (recoveryWaitEnd dataHigh s) := by
  unfold recoveryWaitEnd
  split
  · exact rel_ite (rel_ite (.refl s) (busStuck_onlyBus s).tallyKept) (.refl s)
  · exact .refl s
  · exact .refl s

theorem recoveryAttempt_tallyKept (s : State) : TallyKept s (recoveryAttempt s) := by
  unfold recoveryAttempt
  split
  · exact rel_ite (rel_ite (.refl s) (.refl s)) (.refl s)
  · exact .refl s

theorem attemptWaitEnd_tallyKept (dataHigh : Bool) (s : State) : TallyKept s (attemptWaitEnd dataHigh s) := by
  unfold attemptWaitEnd
  split
  · refine rel_ite (rel_ite ?_ (.refl s)) (.refl s)
    split <;> exact .refl s
  · exact .refl s
  · exact .refl s

theorem takePollWrite_tallyKept (list : List PollDef) (s : State) : TallyKept s (takePollWrite list s) :=
  .same (takePollWrite_besideStale list s).2.2.1

/-! ### The operating states, the settings, the resets -/

theorem changeState_tallyKept (new : OpState) (s : State) : TallyKept s (changeState new s) := by
  have changed : TallyKept s (s.setStc { s.stc with op := new }) := .refl _
  refine changed.trans (TallyKept.portFree.runAny (fun f hf u => ?_) _)
  rw [stateHandOvers_eq] at hf
  obtain rfl | hf := List.mem_cons.1 hf
  · exact .refl u
  obtain rfl | rfl | rfl | rfl | rfl | rfl := mem_stateOthers hf
  · exact present_tallyKept _ _ u
  · exact rel_ite (.refl u) (.refl u)
  · exact .refl u
  · exact (cpmTake_handedOn _ u).tallyKept
  · exact endCal_tallyKept _ u
  · exact (endWaitingPass_onlyBus _ u).tallyKept

theorem install_tallyKept (good : Bool) (c : ImageContents) (s : State) : TallyKept s (install good c s) := by
  have configured (u : State) (g : Settings) : TallyKept u (u.setCfg g) := .refl _
  refine (configured s _).trans (TallyKept.portFree.runAny (fun f hf u => ?_) _)
  simp only [List.mem_cons, List.not_mem_nil, or_false] at hf
  rcases hf with rfl | rfl | rfl | rfl | rfl
  · exact .refl u
  · exact (configured u _).trans (recompute_tallyKept _)
  · exact (configured u _).trans (rel_ite (.refl _) (.refl _))
  · exact (configured u _).trans (cpmEvaluate_handedOn _).tallyKept
  · exact (makeEntries_handedOn _ u).tallyKept

theorem preloadDone_tallyKept (readFailed : Bool) (s : State) : TallyKept s (preloadDone readFailed s) := by
  have marked (u : State) (c : Stc) : TallyKept u (u.setStc c) := .refl _
  exact rel_ite ((install_tallyKept _ _ s).trans ((marked _ _).trans (changeState_tallyKept _ _))) (.refl s)

/-- A warm reset retains the tally, a cold one takes it to its cold values (R135). -/
theorem afterReset_tallyKept (warm : Bool) (s : State) : TallyKept s (afterReset warm s) := by
  cases warm
  · exact ⟨fun _ => Tlu.reset_lawful, fun _ => Tlu.reset_wellKept⟩
  · exact .refl s

/-! ### The requests of the tally (R111 to R113, R126, R128 to R131) -/

section owners
variable (p : Port) (body : List Byte) (s : State)

theorem serveSetAssortment_tallyKept : TallyKept s (serveSetAssortment p body s).2 := by
  unfold serveSetAssortment
  dsimp only
  split
  · next defined => exact Tlu.setCurrent_kept defined
  · exact .refl s

theorem serveVoidLift_tallyKept : TallyKept s (serveVoidLift p body s).2 := by
  unfold serveVoidLift
  split
  · exact .refl s
  · next r judged =>
    have reversed : TallyKept s (s.setTlu (s.tlu.reverse r)) := Tlu.reverse_kept (Tlu.voidJudged_can judged)
    exact reversed.trans (handBunkTotal_handedOn _ _).tallyKept

theorem serveAssignLift_tallyKept : TallyKept s (serveAssignLift p body s).2 := by
  unfold serveAssignLift
  split
  · exact .refl s
  · next r o m _ =>
    have assigned : TallyKept s (s.setTlu (s.tlu.assign r o m).tlu) := s.tlu.assign_kept r o m
    exact assigned.trans (.trans (rel_ite (reportTripClosed_handedOn _ _).tallyKept (.refl _))
      (handBunkTotal_handedOn _ _).tallyKept)

theorem serveTripClose_tallyKept : TallyKept s (serveTripClose p body s).2 := by
  have closed : TallyKept s (s.setTlu s.tlu.closeOrdered) := s.tlu.closeOrdered_kept
  unfold serveTripClose
  split
  · exact closed.trans ((reportTripClosed_handedOn _ _).tallyKept.trans (handBunkTotal_handedOn _ _).tallyKept)
  · exact .refl s

/-! ### The other requests -/

theorem servePollWrite_tallyKept : TallyKept s (servePollWrite p body s).2 := by
  unfold servePollWrite
  have judged := TallyKept.portFree.eitherRefusal (if s.committing then some .busy else none) (pollRefusal (pollDefsOf body)) s
  dsimp only
  split
  · next e =>
    rw [e] at judged
    exact judged
  · next e =>
    rw [e] at judged
    exact judged.trans (takePollWrite_tallyKept _ _)

theorem serveSensorPass_tallyKept : TallyKept s (serveSensorPass p body s).2 := by
  refine TallyKept.portFree.serveDelayed _ _ _ (fun _ u => TallyKept.portFree.eitherRefusal _ _ u) (fun u => ?_) s
  cases passOf body with
  | none => exact .refl u
  | some x =>
    have waits : TallyKept u (u.setSbc { u.sbc with pass := some x }) := .refl _
    exact waits.trans (rel_ite (endWaitingPass_onlyBus _ _).tallyKept (.refl _))

theorem serveBusRestart_tallyKept : TallyKept s (serveBusRestart p body s).2 := by
  unfold serveBusRestart
  split
  · split <;> exact .refl s
  · split <;> exact .refl s
  · exact .refl s
  · exact .refl s

theorem serveTare_tallyKept : TallyKept s (serveTare p body s).2 := by
  have begun (u : State) : TallyKept u (startTare p u) := .refl _
  exact TallyKept.portFree.serveDelayed p .tare body (fun _ u => .refl u)
    (fun u => rel_ite ((begun u).trans (endTare_tallyKept _ _)) (begun u)) s

theorem serveCalSpan_tallyKept : TallyKept s (serveCalSpan p body s).2 := by
  have begun (mref : Nat) (u : State) : TallyKept u (startCal mref u) := .refl _
  exact TallyKept.portFree.serveDelayed p .calSpan body (fun _ u => .refl u)
    (fun u => rel_ite ((begun _ u).trans (endCal_tallyKept _ _)) (begun _ u)) s

theorem serveCommit_tallyKept : TallyKept s (serveCommit p body s).2 := by
  have begun (u : State) : TallyKept u (startCommit u) := .refl _
  exact TallyKept.portFree.serveDelayed p .commit body (fun _ u => .refl u) begun s

theorem serveChartWrite_tallyKept : TallyKept s (serveChartWrite p body s).2 := by
  unfold serveChartWrite
  have judged := TallyKept.portFree.eitherRefusal (if s.committing then some .busy else none)
    (if runAllowed (natAt body 0 1) (natAt body 1 1) then none else some .badField) s
  have configured (u : State) (c : Settings) : TallyKept u (u.setCfg c) := .refl _
  split
  · next e =>
    rw [e] at judged
    exact judged
  · next e =>
    rw [e] at judged
    exact (judged.trans (configured _ _)).trans (cpmEvaluate_handedOn _).tallyKept

theorem serveOverrideSet_tallyKept : TallyKept s (serveOverrideSet p body s).2 := by
  unfold serveOverrideSet
  split
  · next i o _ => exact (cpmTake_handedOn (fun c => { c with overrides := c.overrides.set i o }) s).tallyKept
  · exact .refl s

theorem servePermit_tallyKept : TallyKept s (servePermit p body s).2 := by
  unfold servePermit
  split
  · exact .refl s
  · split
    · exact .refl s
    · split
      · exact .refl s
      · exact (startPermit_handedOn s).tallyKept

theorem serveWatchWrite_tallyKept : TallyKept s (serveWatchWrite p body s).2 := by
  unfold serveWatchWrite
  split
  · exact .refl s
  · split
    · exact .refl s
    · split
      · exact .refl s
      · exact (takeWatchWrite_handedOn _ _ s).tallyKept

theorem serveCaptureRead_tallyKept : TallyKept s (serveCaptureRead p body s).2 := by
  unfold serveCaptureRead
  split <;> exact .refl s

theorem serveHoldManual_tallyKept : TallyKept s (serveHoldManual p body s).2 := by
  unfold serveHoldManual
  split
  · exact present_tallyKept _ _ s
  · exact .refl s

theorem serveLineFaultClear_tallyKept : TallyKept s (serveLineFaultClear p body s).2 := by
  have cleared (h : Hls) : TallyKept s (s.setHls h) := .refl _
  unfold serveLineFaultClear
  split
  · exact (cleared _).trans (rel_ite (present_tallyKept _ _ _) (.refl _))
  · exact .refl s

theorem serveParamWrite_tallyKept : TallyKept s (serveParamWrite p body s).2 := by
  unfold serveParamWrite
  split
  · exact .refl s
  · dsimp only
    split
    · exact .refl s
    · split
      · exact .refl s
      · exact .same (takeParam_tlu _ _ s)

theorem serveFeatures_tallyKept : TallyKept s (serveFeatures p body s).2 := by
  have emptied (c : Settings) (b : Prop) [Decidable b] : TallyKept s (if b then s.setCfg c else
      (s.setCfg c).setWge { (s.setCfg c).wge with az := .empty }) := rel_ite (.refl _) (.refl _)
  unfold serveFeatures
  split
  · exact .refl s
  · exact (emptied _ _).trans (cpmEvaluate_handedOn _).tallyKept

theorem serveEnterService_tallyKept : TallyKept s (serveEnterService p body s).2 := by
  unfold serveEnterService
  split
  · exact .refl s
  · split
    · exact .refl s
    · exact changeState_tallyKept _ s

theorem serveLeaveService_tallyKept : TallyKept s (serveLeaveService p body s).2 := by
  unfold serveLeaveService
  split
  · exact .refl s
  · split
    · exact .refl s
    · exact changeState_tallyKept _ s

theorem serveStandby_tallyKept : TallyKept s (serveStandby p body s).2 := by
  unfold serveStandby
  split
  · exact .refl s
  · exact changeState_tallyKept _ s

theorem serveRestart_tallyKept : TallyKept s (serveRestart p body s).2 := by
  unfold serveRestart
  split <;> exact .refl s

theorem serveReportEnable_tallyKept : TallyKept s (serveReportEnable p body s).2 := by
  unfold serveReportEnable
  dsimp only
  split <;> exact .refl s

end owners

/-- What an owner makes of any request keeps the laws of the tally (R207, row 8). -/
theorem serve_tallyKept (r : Req) (p : Port) (body : List Byte) (s : State) : TallyKept s (serve r p body s).2 := by
  cases r
  case pose | sensors | pollRead | tallyRead | logRead | tripRead | chartRead | watchRead | linesRead | paramRead =>
    rw [serve_reads rfl]
    exact .refl s
  case status | hitClear => exact .refl s
  case setAssortment => exact serveSetAssortment_tallyKept p body s
  case defineAssortment => exact s.tlu.define_kept _
  case deleteAssortment => exact s.tlu.delete_kept _
  case voidLift => exact serveVoidLift_tallyKept p body s
  case assignLift => exact serveAssignLift_tallyKept p body s
  case tripClose => exact serveTripClose_tallyKept p body s
  case totalsReset => exact s.tlu.newPeriod_kept
  case pollWrite => exact servePollWrite_tallyKept p body s
  case sensorPass => exact serveSensorPass_tallyKept p body s
  case busRestart => exact serveBusRestart_tallyKept p body s
  case tare => exact serveTare_tallyKept p body s
  case calSpan => exact serveCalSpan_tallyKept p body s
  case commit => exact serveCommit_tallyKept p body s
  case chartWrite => exact serveChartWrite_tallyKept p body s
  case overrideSet => exact serveOverrideSet_tallyKept p body s
  case permit => exact servePermit_tallyKept p body s
  case watchWrite => exact serveWatchWrite_tallyKept p body s
  case captureRead => exact serveCaptureRead_tallyKept p body s
  case holdManual => exact serveHoldManual_tallyKept p body s
  case lineFaultClear => exact serveLineFaultClear_tallyKept p body s
  case paramWrite => exact serveParamWrite_tallyKept p body s
  case features => exact serveFeatures_tallyKept p body s
  case enterService => exact serveEnterService_tallyKept p body s
  case leaveService => exact serveLeaveService_tallyKept p body s
  case standby => exact serveStandby_tallyKept p body s
  case restart => exact serveRestart_tallyKept p body s
  case reportEnable => exact serveReportEnable_tallyKept p body s

/-! ### Ports and timers -/

theorem restartDue_tallyKept (p : Port) (f : Option OutFrame) (s : State) : TallyKept s (restartDue p f s) := by
  unfold restartDue
  split
  · exact rel_ite (.refl s) (.refl s)
  · exact .refl s

theorem portBreak_tallyKept (p : Port) (s : State) : TallyKept s (portBreak p s) := by
  have dropped (u : State) : TallyKept u (dropPass u) := rel_ite (.refl u) (.refl u)
  exact rel_ite (.refl s) ((TallyKept.portFree.mpt s _).trans ((rel_ite (dropped _) (.refl _)).trans (restartDue_tallyKept _ _ _)))

theorem tareTimeout_tallyKept (s : State) : TallyKept s (tareTimeout s) := by
  unfold tareTimeout
  split
  · exact rel_ite (endTare_tallyKept _ s) (.refl s)
  · exact .refl s

theorem permitExpiry_tallyKept (s : State) : TallyKept s (permitExpiry s) := by
  unfold permitExpiry
  split
  · exact rel_ite (expirePermit_handedOn s).tallyKept (.refl s)
  · exact .refl s

theorem senseExpiry_tallyKept (levels : LineMask) (s : State) : TallyKept s (senseExpiry levels s) := by
  have sampled (u : State) (h : Hls) : TallyKept u (u.setHls h) := .refl _
  exact rel_ite ((sampled s _).trans ((sampled _ _).trans ((queueAll_handedOn _ _ _).tallyKept.trans
    (rel_ite (present_tallyKept _ _ _) (.refl _))))) (.refl s)

theorem discardExpiry_tallyKept (i : Fin 4) (s : State) : TallyKept s (discardExpiry i s) := by
  unfold discardExpiry
  split
  · exact rel_ite (.refl s) (.refl s)
  · exact .refl s

theorem commitEnd_tallyKept (ok : Bool) (s : State) : TallyKept s (commitEnd ok s) := by
  unfold commitEnd
  split
  · split <;> exact .refl s
  · exact .refl s

/-! ### Every command and every step -/

theorem exec_tallyKept {c : Instr} {s t : State} (h : exec c s = .next t) : TallyKept s t := by
  have pf := TallyKept.portFree
  have wakes (u : State) : TallyKept u (wake u) := changeState_tallyKept .run u
  cases c
  case powerOn => cases h; exact afterReset_tallyKept _ s
  case supplyLoss => cases h; exact .refl s
  case restartReset => exact pf.completes (fun s => rel_ite (afterReset_tallyKept true s) (.refl s)) h
  case preloadDone => exact pf.completes (preloadDone_tallyKept _) h
  case roundTimerExpiry => exact pf.completes roundTimerExpiry_tallyKept h
  case pollTransactionDone => exact pf.completes (pollTransactionDone_tallyKept _) h
  case stretchTimeout => exact pf.completes stretchTimeout_tallyKept h
  case sensorStale => exact pf.completes (sensorStale_tallyKept _) h
  case busFreePulseEnd => exact pf.completes busFreePulseEnd_tallyKept h
  case recoveryWaitEnd => exact pf.completes (recoveryWaitEnd_tallyKept _) h
  case recoveryAttempt => exact pf.completes recoveryAttempt_tallyKept h
  case attemptWaitEnd => exact pf.completes (attemptWaitEnd_tallyKept _) h
  case passthroughDone => exact pf.completes (passthroughDone_tallyKept _) h
  case tareTimeout => exact pf.completes tareTimeout_tallyKept h
  case permitExpiry => exact pf.completes permitExpiry_tallyKept h
  case senseExpiry => exact pf.completes (senseExpiry_tallyKept _) h
  case discardExpiry => exact pf.completes (discardExpiry_tallyKept _) h
  case frameGapTimeout | lineReturnsToIdle => exact pf.completes (fun s => rel_ite (pf.mpt s _) (pf.refl s)) h
  case frameBadCheck | stopBitLow => exact pf.completes (fun s => pf.mpt s _) h
  case unknownKind | frameHeld | standbyWake => exact pf.completes (pf.takeAny serve_tallyKept wakes _ _ _) h
  case heldFrameHandled => exact pf.completes (pf.heldFrame serve_tallyKept wakes _) h
  case frameSent => exact pf.completes (fun s => (pf.mpt s _).trans (restartDue_tallyKept _ _ _)) h
  case portBreak => exact pf.completes (portBreak_tallyKept _) h
  case commitDone => exact pf.completes (commitEnd_tallyKept _) h
  case byteArrival => exact pf.completes (pf.byteIn serve_tallyKept wakes _ _) h
  all_goals exact pf.completes (pf.takeRequest serve_tallyKept wakes _ _ _) h

theorem step_tallyKept {s t : State} (h : step s = .next t) : TallyKept s t := by
  obtain ⟨c, rest, -, k⟩ | ⟨-, rfl⟩ := step_cases h
  · have waited : TallyKept s (s.setPending rest) := .refl _
    exact waited.trans (exec_tallyKept k)
  · exact rel_ite (.refl s) (.refl s)

/-- Settles O7: every operation of the tally keeps its laws (`Tlu.handOver_kept`, `Tlu.assign_kept`, `Tlu.reverse_kept`,
`Tlu.define_kept`, `Tlu.delete_kept`, `Tlu.newPeriod_kept`, `Tlu.closeOrdered_kept`), and no other operation touches the tally
(`exec_tallyKept`). -/
theorem tallyLawsKept : Obligations.TallyLawsKept :=
  ⟨fun _ _ lawful h => (step_tallyKept h).lawful lawful, fun _ _ kept h => (step_tallyKept h).wellKept kept⟩

end Sys2Proof.Machine
end

section
/-! PROOFS. The state after reset keeps every law of Safety.lean (R35, R103, R110, R148, R150, R164, R179, R182, R209, R213, R217): O4. -/

namespace Sys2Proof.Machine

theorem defaultSettings_ordered : SettingsOrdered defaultSettings := by
  unfold SettingsOrdered
  decide

/-- The working settings and those of an image never written are the defaults (notes/assumptions/4.md, 5.md). -/
theorem Stc.reset_ordered : Stc.reset.ordered := ⟨defaultSettings_ordered, defaultSettings_ordered, nofun⟩

theorem PortState.reset_served (enable : BitVec 16) : (PortState.reset enable).served := fun _ => ⟨rfl, fun _ => rfl⟩

/-- No entry of a new watch table asks for a line (R164, R176). -/
theorem Wt.reset_request (k : Fin 8) : Wt.reset.request k = 0#6 := by
  have unmatched : Wt.reset.entries[k].matching = false := by simp [Wt.reset, WatchEntry.of]
  have unpaired : Wt.reset.pairs[coupleOf k] = false := by simp [Wt.reset]
  unfold Wt.request
  refine if_neg fun ⟨holds, _⟩ => ?_
  simp only [unmatched, unpaired, Bool.false_eq_true, and_false, ite_self] at holds

theorem State.reset_watchHeld : State.reset.watchHeld := by
  intro k
  refine Eq.trans ?_ (Wt.reset_request k).symm
  simp [State.reset, Hls.reset]

/-- Settles O4: the laws block by block. -/
theorem resetKeepsTheLaws : Obligations.ResetKeepsTheLaws := by
  have slots : State.reset.slotsLawful := by
    rw [State.slotsLawful_iff]
    exact .empty _
  exact ⟨Tlu.reset_lawful, Tlu.reset_wellKept, rfl, rfl, ⟨rfl, nofun⟩, State.reset_watchHeld, Sbc.reset_lawfulIn, Sbc.reset_inRanges,
    PortState.reset_served _, PortState.reset_served _, ⟨Nat.zero_le _, Nat.zero_le _⟩, slots, calHeld_of_none rfl,
    Stc.reset_ordered, Nat.zero_le _⟩

end Sys2Proof.Machine
end

section
/-! PROOFS. Reads of records and tables, the choice of an assortment and the totals (R111, R121, R127, R131, R133, R140, R175, R202, R211):
O27 and O36. -/

namespace Sys2Proof.Machine

/-! ### Fields of short bodies (R13, R222) -/

theorem natAt_byte (b : Byte) : natAt [b] 0 1 = b.toNat := by simp [natAt, beNat]

section fields
variable (a b c : Byte)

theorem natAt_first : natAt [a, b, c] 0 1 = a.toNat := by simp [natAt, beNat]
theorem natAt_second : natAt [a, b, c] 1 1 = b.toNat := by simp [natAt, beNat]
theorem natAt_third : natAt [a, b, c] 2 1 = c.toNat := by simp [natAt, beNat]
theorem natAt_lastTwo : natAt [a, b, c] 1 2 = b.toNat * 256 + c.toNat := by simp [natAt, beNat]
theorem natAt_firstTwo : natAt [a, b, c] 0 2 = a.toNat * 256 + b.toNat := by simp [natAt, beNat]
theorem natAt_one_of_two : natAt [a, b] 0 1 = a.toNat ∧ natAt [a, b] 1 1 = b.toNat := by simp [natAt, beNat]

end fields

/-- The event of an admitted request that its owner takes. -/
theorem exec_taken {p : Port} {r : Req} {body : List Byte} {s t : State} {reply : List Byte} (h : Admitted p r body s)
    (served : serve r p body (s.heard p) = (.ok reply, t)) :
    exec (r.frame p body) s = .next (t.answered p r.code .ok reply) := by
  rw [exec_admitted h, served]
  rfl

section reads
variable {p : Port} {s : State}

/-! ### TALLY_READ and LOG_READ (R121, R133, R211) -/

theorem tallyRead_rows {part : Byte} (admitted : Admitted p .tallyRead [part] s) :
    exec (.tallyRead p [part]) s =
      .next (if 1 ≤ part.toNat ∧ part.toNat ≤ 4 then
          (s.heard p).answered p 0x13#8 .ok (tallyBody s.tlu part.toNat)
        else (s.heard p).answered p 0x13#8 .badField []) := by
  have served : serve .tallyRead p [part] (s.heard p) = if 1 ≤ part.toNat ∧ part.toNat ≤ 4 then
      (.ok (tallyBody s.tlu part.toNat), s.heard p) else (.refuse .badField, s.heard p) := by
    rw [← natAt_byte]
    rfl
  split
  · next some => exact exec_taken (r := .tallyRead) admitted (served.trans (if_pos some))
  · next none => exact exec_refused (r := .tallyRead) admitted (served.trans (if_neg none))

theorem serveLogRead_resident {n : Nat} {body : List Byte} (sel : natAt body 0 1 = 0) (number : natAt body 1 2 = n) (named : n ≠ 0) :
    serveLogRead p body s = match s.tlu.find n with
      | some r => (.ok (logBody [r]), s)
      | none => (.refuse .notFound, s) := by
  unfold serveLogRead
  dsimp only
  rw [sel, number]
  exact if_neg named

theorem logRead_resident {hi lo : Byte} (admitted : Admitted p .logRead [0#8, hi, lo] s) (named : hi.toNat * 256 + lo.toNat ≠ 0) :
    exec (.logRead p [0#8, hi, lo]) s =
      .next (match s.tlu.find (hi.toNat * 256 + lo.toNat) with
        | some r => (s.heard p).answered p 0x14#8 .ok (1#8 :: liftRecordBytes r)
        | none => (s.heard p).answered p 0x14#8 .notFound []) := by
  have served : serve .logRead p [0#8, hi, lo] (s.heard p) = _ :=
    serveLogRead_resident (p := p) ((natAt_first 0#8 hi lo).trans rfl) (natAt_lastTwo 0#8 hi lo) named
  have heard : (s.heard p).tlu = s.tlu := rfl
  rw [heard] at served
  cases found : s.tlu.find (hi.toNat * 256 + lo.toNat) with
  | none =>
    rw [found] at served
    exact exec_refused (r := .logRead) admitted served
  | some r =>
    have one : logBody [r] = 1#8 :: liftRecordBytes r := by
      unfold logBody
      rw [List.map_singleton, List.flatten_singleton, List.length_singleton]
      simp [be1, beBytes]
    rw [found] at served
    dsimp only at served ⊢
    rw [one] at served
    exact exec_taken (r := .logRead) admitted served

theorem logRead_newest {k : Byte} (admitted : Admitted p .logRead [1#8, 0#8, k] s) (least : 1 ≤ k.toNat) (most : k.toNat ≤ 8) :
    exec (.logRead p [1#8, 0#8, k]) s =
      .next ((s.heard p).answered p 0x14#8 .ok (logBody (s.tlu.log.reverse.take k.toNat))) := by
  refine exec_taken (r := .logRead) admitted ?_
  have count : natAt [1#8, 0#8, k] 1 2 = k.toNat := (natAt_lastTwo _ _ _).trans (by simp)
  unfold serve serveLogRead
  dsimp only
  rw [natAt_first, count]
  exact if_pos ⟨least, most⟩

theorem logRead_badField {sel hi lo : Byte} (admitted : Admitted p .logRead [sel, hi, lo] s)
    (bad : 2 ≤ sel.toNat ∨ hi.toNat * 256 + lo.toNat = 0 ∨ (sel.toNat = 1 ∧ 8 < hi.toNat * 256 + lo.toNat)) :
    exec (.logRead p [sel, hi, lo]) s = .next ((s.heard p).answered p 0x14#8 .badField []) := by
  refine exec_refused (r := .logRead) admitted ?_
  unfold serve serveLogRead
  dsimp only
  rw [natAt_first, natAt_lastTwo]
  split
  · exact if_pos (by omega)
  · exact if_neg (by omega)
  · rfl

/-! ### TRIP_READ (R127, R211; notes/assumptions/26.md) -/

theorem serveTripRead_ok {body : List Byte} {x : Trip} (p : Port) (selected : tripSelected s.tlu body = .ok x) :
    serveTripRead p body s = (.ok (tripRecordBytes x (natAt body 2 1)), s) := by
  unfold serveTripRead
  rw [selected]

theorem serveTripRead_error {body : List Byte} {c : Code} (p : Port) (selected : tripSelected s.tlu body = .error c) :
    serveTripRead p body s = (.refuse c, s) := by
  unfold serveTripRead
  rw [selected]

theorem tripSelected_badField (t : Tlu) {sel k part : Byte}
    (bad : 2 ≤ sel.toNat ∨ part.toNat = 0 ∨ 2 < part.toNat ∨ (sel.toNat = 1 ∧ (k.toNat = 0 ∨ 8 < k.toNat))) :
    tripSelected t [sel, k, part] = .error .badField := by
  unfold tripSelected
  dsimp only
  rw [natAt_first, natAt_second, natAt_third]
  split
  · rfl
  · split
    · omega
    · exact if_pos (by omega)
    · rfl

theorem tripSelected_working (t : Tlu) {k part : Byte} (least : 1 ≤ part.toNat) (most : part.toNat ≤ 2) :
    tripSelected t [0#8, k, part] = .ok t.trip := by
  unfold tripSelected
  dsimp only
  rw [natAt_first, natAt_third]
  exact if_neg (by omega)

theorem tripSelected_closed (t : Tlu) {k part : Byte} (least : 1 ≤ part.toNat) (most : part.toNat ≤ 2) (first : 1 ≤ k.toNat)
    (last : k.toNat ≤ 8) : tripSelected t [1#8, k, part] = match t.history.reverse[k.toNat - 1]? with
      | some x => .ok x
      | none => .error .notFound := by
  unfold tripSelected
  dsimp only
  rw [natAt_first, natAt_second, natAt_third]
  exact (if_neg (by omega)).trans (if_neg (by omega))

theorem tripRead_taken {body : List Byte} {x : Trip} (admitted : Admitted p .tripRead body s)
    (selected : tripSelected s.tlu body = .ok x) :
    exec (.tripRead p body) s = .next ((s.heard p).answered p 0x17#8 .ok (tripRecordBytes x (natAt body 2 1))) :=
  exec_taken (r := .tripRead) admitted (serveTripRead_ok (s := s.heard p) p selected)

theorem tripRead_refused {body : List Byte} {c : Code} (admitted : Admitted p .tripRead body s)
    (selected : tripSelected s.tlu body = .error c) :
    exec (.tripRead p body) s = .next ((s.heard p).answered p 0x17#8 c []) :=
  exec_refused (r := .tripRead) admitted (serveTripRead_error (s := s.heard p) p selected)

theorem tripRead_closed {k part : Byte} (admitted : Admitted p .tripRead [1#8, k, part] s) (least : 1 ≤ part.toNat)
    (most : part.toNat ≤ 2) (first : 1 ≤ k.toNat) (last : k.toNat ≤ 8) :
    exec (.tripRead p [1#8, k, part]) s =
      .next (match s.tlu.history.reverse[k.toNat - 1]? with
        | some x => (s.heard p).answered p 0x17#8 .ok (tripRecordBytes x part.toNat)
        | none => (s.heard p).answered p 0x17#8 .notFound []) := by
  have selected := tripSelected_closed s.tlu least most first last
  cases held : s.tlu.history.reverse[k.toNat - 1]? with
  | none =>
    rw [held] at selected
    exact tripRead_refused admitted selected
  | some x =>
    rw [held] at selected
    have taken := tripRead_taken admitted selected
    rw [natAt_third] at taken
    exact taken

/-! ### CHART_READ, WATCH_READ and PARAM_READ (R140, R175, R202) -/

theorem runAllowed_iff (first count : Nat) : runAllowed first count = true ↔ 1 ≤ count ∧ first + count ≤ 64 := by
  simp only [runAllowed, Bool.and_eq_true, decide_eq_true_eq]
  omega

theorem chartRead_rows {first count : Byte} (admitted : Admitted p .chartRead [first, count] s) :
    exec (.chartRead p [first, count]) s =
      .next (if 1 ≤ count.toNat ∧ first.toNat + count.toNat ≤ 64 then
          (s.heard p).answered p 0x22#8 .ok (chartBody s.cfg.cap s.cpm.overrides first.toNat count.toNat)
        else (s.heard p).answered p 0x22#8 .badField []) := by
  obtain ⟨isFirst, isCount⟩ := natAt_one_of_two first count
  have served : serve .chartRead p [first, count] (s.heard p) = if runAllowed first.toNat count.toNat = true then
      (.ok (chartBody s.cfg.cap s.cpm.overrides first.toNat count.toNat), s.heard p) else (.refuse .badField, s.heard p) := by
    rw [← isFirst, ← isCount]
    rfl
  split
  · next within => exact exec_taken (r := .chartRead) admitted (served.trans (if_pos ((runAllowed_iff _ _).2 within)))
  · next beyond => exact exec_refused (r := .chartRead) admitted (served.trans (if_neg (mt (runAllowed_iff _ _).1 beyond)))

theorem watchRead_one {k : Fin 8} (admitted : Admitted p .watchRead [BitVec.ofNat 8 k.val] s) :
    exec (.watchRead p [BitVec.ofNat 8 k.val]) s = .next ((s.heard p).answered p 0x28#8 .ok (watchReply s.wt [k])) := by
  refine exec_taken (r := .watchRead) admitted ?_
  have number : natAt [BitVec.ofNat 8 k.val] 0 1 = k.val := by
    rw [natAt_byte, BitVec.toNat_ofNat]
    omega
  have index : indexAt [BitVec.ofNat 8 k.val] 0 = some k := by
    unfold indexAt
    rw [dif_pos (by omega)]
    simp only [number]
  unfold serve serveWatchRead
  dsimp only
  rw [index]
  rfl

theorem watchRead_badField {k : Byte} (admitted : Admitted p .watchRead [k] s) (none : 8 ≤ k.toNat) :
    exec (.watchRead p [k]) s = .next ((s.heard p).answered p 0x28#8 .badField []) := by
  refine exec_refused (r := .watchRead) admitted ?_
  have index : indexAt [k] 0 = Option.none := dif_neg (by rw [natAt_byte]; omega)
  unfold serve serveWatchRead
  dsimp only
  rw [index]

/-- The code of a parameter is the byte that names it. -/
theorem Param.ofCode_be1 {id : Byte} {q : Param} (named : Param.ofCode id.toNat = some q) : be1 q.code = [id] := by
  have code : q.code = id.toNat := by simpa using List.find?_some named
  rw [code]
  simp [be1, beBytes]

theorem paramRead_rows {id : Byte} (admitted : Admitted p .paramRead [id] s) :
    exec (.paramRead p [id]) s =
      .next (match Param.ofCode id.toNat with
        | some q => (s.heard p).answered p 0x30#8 .ok (id :: beBytes 4 (q.read s))
        | none => (s.heard p).answered p 0x30#8 .badField []) := by
  have served : serve .paramRead p [id] (s.heard p) = match Param.ofCode id.toNat with
      | some q => (.ok (paramBytes q (q.read (s.heard p))), s.heard p)
      | none => (.refuse .badField, s.heard p) := by
    rw [← natAt_byte]
    rfl
  cases named : Param.ofCode id.toNat with
  | none =>
    rw [named] at served
    exact exec_refused (r := .paramRead) admitted served
  | some q =>
    rw [named] at served
    have taken := exec_taken (r := .paramRead) admitted served
    rw [paramBytes, Param.ofCode_be1 named, Param.read_heard] at taken
    exact taken

end reads

/-- Settles O27: each read by its rows, and by the fields its body carries. -/
theorem recordAndTableReads : Obligations.RecordAndTableReads := by
  unfold Obligations.RecordAndTableReads
  refine ⟨fun p s => ⟨fun part => tallyRead_rows, fun hi lo => logRead_resident, fun k => logRead_newest,
    fun sel hi lo => logRead_badField, fun sel k part admitted bad => ?_, fun k part admitted least most => ?_,
    fun k part => tripRead_closed⟩, fun p s => ⟨fun first count => chartRead_rows, fun admitted => ?_, fun k => watchRead_one,
    fun k none admitted => watchRead_badField admitted none, fun id => paramRead_rows⟩⟩
  · exact tripRead_refused admitted (tripSelected_badField s.tlu bad)
  · have taken := tripRead_taken admitted (tripSelected_working s.tlu least most)
    rw [natAt_third] at taken
    exact taken
  · exact exec_taken (r := .watchRead) admitted rfl

/-! ### SET_ASSORTMENT and TOTALS_RESET (R111, R131) -/

/-- Settles O36: the rows of R111, and the slots as R131 has them. -/
theorem assortmentChoiceAndTotals : Obligations.AssortmentChoiceAndTotals := by
  refine ⟨fun p id s admitted => ?_, fun p s admitted => exec_taken (r := .totalsReset) admitted rfl⟩
  have served : serve .setAssortment p [id] (s.heard p) = if s.tlu.defined id.toNat = true then
      (.ok [], (s.heard p).setTlu { s.tlu with current := id.toNat }) else (.refuse .notFound, s.heard p) := by
    rw [← natAt_byte]
    rfl
  split
  · next defined => exact exec_taken (r := .setAssortment) admitted (served.trans (if_pos defined))
  · next unknown => exact exec_refused (r := .setAssortment) admitted (served.trans (if_neg unknown))

end Sys2Proof.Machine
end

section
/-! PROOFS. Assortments defined and deleted (R112, R113), and a REMOVE taken back (R117, R129): O37, O38 and O39. -/

namespace Sys2Proof.Machine

/-! ### The free slot (R112) -/

theorem Tlu.freeSlot_none {t : Tlu} (held : ∀ j : Fin 16, j.val ≠ 0 → t.table[j].isSome = true) : t.freeSlot = none := by
  unfold Tlu.freeSlot
  rw [List.find?_eq_none]
  intro j _ free
  simp only [Bool.and_eq_true, decide_eq_true_eq, Option.isNone_iff_eq_none] at free
  have some := held j free.1
  rw [free.2] at some
  cases some

theorem Tlu.freeSlot_lowest {t : Tlu} {i : Fin 16} (kept : i.val ≠ 0) (free : t.table[i] = none)
    (below : ∀ j : Fin 16, j.val ≠ 0 → j.val < i.val → t.table[j].isSome = true) : t.freeSlot = some i := by
  unfold Tlu.freeSlot
  rw [List.find?_eq_some_iff_getElem]
  refine ⟨by simp [kept, free], i.val, by simp, by simp, fun j earlier => ?_⟩
  rw [List.getElem_finRange]
  by_cases zero : j = 0
  · simp [zero]
  · have held := below ⟨j, by omega⟩ zero earlier
    simp only [Fin.getElem_fin] at held
    simp [zero, held]

/-! ### DEFINE_ASSORTMENT (R112) -/

section rows
variable {p : Port} {id : Byte} {s : State}

theorem defineAssortment_exec (admitted : Admitted p .defineAssortment [id] s) :
    exec (.defineAssortment p [id]) s =
      .next (((s.heard p).setTlu (s.tlu.define id.toNat).2).answered p 0x11#8 (s.tlu.define id.toNat).1 []) := by
  rw [← natAt_byte]
  exact exec_admitted (r := .defineAssortment) admitted

theorem defineAssortment_refused {c : Code} (admitted : Admitted p .defineAssortment [id] s)
    (refused : s.tlu.define id.toNat = (c, s.tlu)) :
    exec (.defineAssortment p [id]) s = .next ((s.heard p).answered p 0x11#8 c []) := by
  rw [defineAssortment_exec admitted, refused]
  rfl

variable {t : Tlu} {n : Nat}

theorem Tlu.define_conflict (named : n ≠ 0) (defined : t.defined n = true) : t.define n = (.conflict, t) :=
  (if_neg named).trans (if_pos defined)

theorem Tlu.define_noRoom (named : n ≠ 0) (new : t.defined n = false) (full : t.freeSlot = none) : t.define n = (.noRoom, t) := by
  unfold Tlu.define
  rw [if_neg named, new, full]
  rfl

theorem Tlu.define_takes {i : Fin 16} (named : n ≠ 0) (new : t.defined n = false) (free : t.freeSlot = some i) :
    t.define n = (.ok, { t with table := t.table.set i (some (.fresh n)) }) := by
  unfold Tlu.define
  rw [if_neg named, new, free]
  rfl

/-! ### DELETE_ASSORTMENT (R113) -/

theorem deleteAssortment_exec (admitted : Admitted p .deleteAssortment [id] s) :
    exec (.deleteAssortment p [id]) s =
      .next (((s.heard p).setTlu (s.tlu.delete id.toNat).2).answered p 0x12#8 (s.tlu.delete id.toNat).1 []) := by
  rw [← natAt_byte]
  exact exec_admitted (r := .deleteAssortment) admitted

theorem deleteAssortment_refused {c : Code} (admitted : Admitted p .deleteAssortment [id] s)
    (refused : s.tlu.delete id.toNat = (c, s.tlu)) :
    exec (.deleteAssortment p [id]) s = .next ((s.heard p).answered p 0x12#8 c []) := by
  rw [deleteAssortment_exec admitted, refused]
  rfl

theorem Tlu.delete_notFound (named : n ≠ 0) (unknown : t.slotOf n = none) : t.delete n = (.notFound, t) := by
  unfold Tlu.delete
  rw [if_neg named, unknown]

/-- A defined id is judged by its slot's figures, by the current assortment and by the open trip's list (R113). -/
theorem Tlu.delete_held {i : Fin 16} {x : AsnSlot} (named : n ≠ 0) (slot : t.slotOf n = some i) (held : t.table[i] = some x) :
    t.delete n = if x.bunkCount ≠ 0 ∨ x.bunkMass ≠ 0 then (.conflict, t)
      else if t.current = n then (.conflict, t)
      else if t.trip.state ≠ .empty ∧ t.trip.list.any (fun e => e.id == n) = true then (.conflict, t)
      else (.ok, { t with table := t.table.set i none }) := by
  unfold Tlu.delete
  rw [if_neg named, slot, Tlu.figures_held slot held]
  simp only [Trip.open_iff]

end rows

/-- Settles O37: the rows of `Tlu.define`, with the lowest free slot (`Tlu.freeSlot_lowest`), and the two ports of R212. -/
theorem defineAssortmentRows : Obligations.DefineAssortmentRows := by
  unfold Obligations.DefineAssortmentRows
  refine ⟨fun p id s admitted => ⟨fun zero => ?_, fun named defined => ?_, fun named new full => ?_,
    fun i named new kept free below => ?_⟩, fun p op => by cases p <;> cases op <;> decide⟩
  · exact defineAssortment_refused admitted (if_pos zero)
  · exact defineAssortment_refused admitted (Tlu.define_conflict named defined)
  · exact defineAssortment_refused admitted (Tlu.define_noRoom named new (Tlu.freeSlot_none full))
  · rw [defineAssortment_exec admitted, Tlu.define_takes named new (Tlu.freeSlot_lowest kept free below)]
    rfl

/-- Settles O38: the rows of `Tlu.delete` (`Tlu.delete_held`), and the two ports of R212. -/
theorem deleteAssortmentRows : Obligations.DeleteAssortmentRows := by
  unfold Obligations.DeleteAssortmentRows
  refine ⟨fun p id s admitted => ⟨fun zero => ?_, fun named unknown => ?_, fun i x named slot held => ?_⟩,
    fun p op => by cases p <;> cases op <;> decide⟩
  · exact deleteAssortment_refused admitted (if_pos zero)
  · exact deleteAssortment_refused admitted (Tlu.delete_notFound named unknown)
  · have judged := Tlu.delete_held named slot held
    refine ⟨fun loaded => ?_, fun count mass current => ?_, fun count mass other isOpen listed => ?_,
      fun count mass other unlisted => ?_⟩
    · exact deleteAssortment_refused admitted (judged.trans (if_pos loaded))
    · exact deleteAssortment_refused admitted (by simp [judged, current])
    · refine deleteAssortment_refused admitted ?_
      rw [judged, if_neg (by simp [count, mass]), if_neg other, if_pos ⟨isOpen, listed⟩]
    · have gone : ¬(s.tlu.trip.state ≠ .empty ∧ s.tlu.trip.list.any (fun e => e.id == id.toNat) = true) :=
        fun ⟨isOpen, listed⟩ => unlisted.elim isOpen (fun absent => absent listed)
      rw [deleteAssortment_exec admitted, judged, if_neg (by simp [count, mass]), if_neg other, if_neg gone]

/-! ### A REMOVE and its VOID (R117, R129) -/

theorem addMass_exact {a b : Nat} (room : a + b ≤ massMax) : addMass a b = a + b ∧ massOver a b = false :=
  ⟨Nat.min_eq_right room, decide_eq_false (Nat.not_lt.2 room)⟩

theorem addCount_exact {a b : Nat} (room : a + b ≤ countMax) : addCount a b = a + b ∧ countOver a b = false :=
  ⟨Nat.min_eq_right room, decide_eq_false (Nat.not_lt.2 room)⟩

/-- Settles O39: no addition of the REMOVE or of its reversal saturates, so each is undone by the subtraction it meets, whether
the count came from the bunk or not. -/
theorem voidReversesRemove : Obligations.VoidReversesRemove := by
  unfold Obligations.VoidReversesRemove
  intro x m r removed taken excess countTaken bunkMass bunkCount removedMass excessMass removedCount excessCount
  have within : min m x.bunkMass ≤ m := Nat.min_le_left _ _
  have onBunk : min m x.bunkMass ≤ x.bunkMass := Nat.min_le_right _ _
  simp only [AsnSlot.split] at taken excess countTaken
  have split : x.split m = { taken := r.taken, excess := r.excess, countTaken := r.countTaken } := by
    simp [AsnSlot.split, taken, excess, countTaken]
  refine ⟨taken, by omega, by simp [countTaken], ?_⟩
  obtain ⟨mass, massFits⟩ := addMass_exact (a := x.removedMass) (b := r.taken) (by omega)
  obtain ⟨beyond, beyondFits⟩ := addMass_exact (a := x.excessMass) (b := r.excess) (by omega)
  obtain ⟨back, backFits⟩ := addMass_exact (a := x.bunkMass - r.taken) (b := r.taken) (by omega)
  have bunk : x.bunkMass - r.taken + r.taken = x.bunkMass := by omega
  by_cases some : 0 < x.bunkCount
  · obtain ⟨count, countFits⟩ := addCount_exact removedCount
    obtain ⟨given, givenFits⟩ := addCount_exact (a := x.bunkCount - 1) (b := 1) (by omega)
    have one : x.bunkCount - 1 + 1 = x.bunkCount := by omega
    simp [split, AsnSlot.remove, AsnSlot.reverse, removed, countTaken, some, mass, massFits, beyond, beyondFits, back, backFits, bunk,
      count, countFits, given, givenFits, one]
  · obtain ⟨count, countFits⟩ := addCount_exact excessCount
    simp [split, AsnSlot.remove, AsnSlot.reverse, removed, countTaken, some, mass, massFits, beyond, beyondFits, back, backFits, bunk,
      count, countFits]

end Sys2Proof.Machine
end

section
/-! PROOFS. A lift voided and a lift assigned (R128, R129, R130): O40 and O41. -/

namespace Sys2Proof.Machine

section judged
variable {t : Tlu} {n : Nat} {r : LogRecord}

theorem Tlu.find_number (found : t.find n = some r) : r.number = n := by simpa using List.find?_some found

/-! ### VOID_LIFT as TLU judges it (R128) -/

theorem Tlu.tripGone_iff (t : Tlu) (r : LogRecord) :
    t.tripGone r = true ↔ ¬∀ k, r.trip = some k → t.trip.state ≠ .empty ∧ t.trip.number = k := by
  unfold Tlu.tripGone
  cases r.trip with
  | none => simp
  | some k =>
    rw [Trip.current_eq]
    by_cases closed : t.trip.state = .empty <;> simp [closed]

/-- A resident record under R128's rows 3 to 7. -/
theorem Tlu.voidJudged_found (named : n ≠ 0) (found : t.find n = some r) : t.voidJudged n =
    if r.voided = true then .error .conflict
    else if t.tripGone r = true then .error .conflict
    else if (r.outcome = .add ∨ r.outcome = .remove) ∧ (!t.defined r.asn) = true then .error .notFound
    else if cannotReverse (t.figures r.asn) r = true then .error .conflict
    else .ok r := by
  unfold Tlu.voidJudged
  rw [if_neg named, found]

theorem Tlu.voidJudged_absent (named : n ≠ 0) (absent : t.find n = none) : t.voidJudged n = .error .notFound := by
  unfold Tlu.voidJudged
  rw [if_neg named, absent]

/-- The record stands in the log, not VOIDED, of no trip or of the open one: what R128's rows 5 to 7 are left to judge. -/
structure Tlu.Voidable (t : Tlu) (n : Nat) (r : LogRecord) : Prop where
  named : n ≠ 0
  found : t.find n = some r
  standing : r.voided = false
  current : ∀ k, r.trip = some k → t.trip.state ≠ .empty ∧ t.trip.number = k

theorem Tlu.Voidable.judged (h : t.Voidable n r) : t.voidJudged n =
    if (r.outcome = .add ∨ r.outcome = .remove) ∧ (!t.defined r.asn) = true then .error .notFound
    else if cannotReverse (t.figures r.asn) r = true then .error .conflict
    else .ok r := by
  rw [Tlu.voidJudged_found h.named h.found, if_neg (by simp [h.standing]), if_neg (fun gone => (t.tripGone_iff r).1 gone h.current)]

theorem Tlu.Voidable.undefined (h : t.Voidable n r) (outcome : r.outcome = .add ∨ r.outcome = .remove)
    (unknown : t.slotOf r.asn = none) : t.voidJudged n = .error .notFound := by
  rw [h.judged]
  exact if_pos ⟨outcome, by simp [Tlu.defined, unknown]⟩

theorem Tlu.Voidable.held (h : t.Voidable n r) {i : Fin 16} {x : AsnSlot} (slot : t.slotOf r.asn = some i)
    (held : t.table[i] = some x) : t.voidJudged n = if cannotReverse x r = true then .error .conflict else .ok r := by
  rw [h.judged, if_neg (by simp [Tlu.defined, slot]), Tlu.figures_held slot held]

theorem Tlu.Voidable.neither (h : t.Voidable n r) (add : r.outcome ≠ .add) (remove : r.outcome ≠ .remove) :
    t.voidJudged n = .ok r := by
  have reverses : cannotReverse (t.figures r.asn) r = false := by
    unfold cannotReverse
    split
    · next h => exact absurd h add
    · next h => exact absurd h remove
    · rfl
  rw [h.judged, if_neg (fun ⟨either, _⟩ => either.elim add remove), reverses]
  rfl

theorem cannotReverse_add {x : AsnSlot} {m : Nat} (add : r.outcome = .add) (mass : r.mass = some m) :
    cannotReverse x r = true ↔ x.bunkMass < m ∨ x.bunkCount < 1 ∨ x.loadedMass < m ∨ x.loadedCount < 1 := by
  simp [cannotReverse, add, mass, or_assoc]

theorem cannotReverse_remove {x : AsnSlot} (remove : r.outcome = .remove) :
    cannotReverse x r = true ↔ x.removedMass < r.taken ∨ x.excessMass < r.excess ∨
      (r.countTaken = true ∧ x.removedCount < 1) ∨ (r.countTaken = false ∧ x.excessCount < 1) := by
  cases counted : r.countTaken <;> simp [cannotReverse, remove, counted, or_assoc]

/-! ### A record reversed (R129) -/

/-- The table, the trip and the log after a VOID that leaves the table and the trip's entries as stated (R129). -/
def Tlu.voided (t : Tlu) (n : Nat) (r : LogRecord) (table : Vector (Option AsnSlot) 16) (entry : TripEntry → TripEntry) : Tlu :=
  { t with
    table := table
    trip := if r.trip.isSome = true then
        { t.trip with list := t.trip.list.map (fun e => if e.id = r.asn then entry e else e) }
      else t.trip
    log := t.log.map (fun y => if y.number = n then { r with voided := true } else y) }

theorem Tlu.reverse_held {i : Fin 16} {x : AsnSlot} (slot : t.slotOf r.asn = some i) (held : t.table[i] = some x)
    (outcome : r.outcome = .add ∨ r.outcome = .remove) (number : r.number = n) :
    t.reverse r = t.voided n r (t.table.set i (some (x.reverse r))) (TripEntry.reverse r) := by
  subst number
  unfold Tlu.reverse Tlu.voided Tlu.replace
  rw [if_pos outcome, Tlu.update_slot slot, Tlu.figures_held slot held]
  cases r.trip <;> simp

theorem Tlu.reverse_neither (add : r.outcome ≠ .add) (remove : r.outcome ≠ .remove) (number : r.number = n) :
    t.reverse r = t.voided n r t.table id := by
  subst number
  unfold Tlu.reverse Tlu.voided Tlu.replace
  rw [if_neg (fun either => either.elim add remove)]
  cases r.trip <;> simp

theorem AsnSlot.reverse_add (x : AsnSlot) {m : Nat} (add : r.outcome = .add) (mass : r.mass = some m) :
    x.reverse r = { x with
      loadedMass := x.loadedMass - m, bunkMass := x.bunkMass - m, loadedCount := x.loadedCount - 1
      bunkCount := x.bunkCount - 1 } := by
  simp [AsnSlot.reverse, add, mass]

theorem AsnSlot.reverse_remove (x : AsnSlot) (remove : r.outcome = .remove) :
    x.reverse r = { x with
      bunkMass := min massMax (x.bunkMass + r.taken)
      removedMass := x.removedMass - r.taken
      excessMass := x.excessMass - r.excess
      bunkCount := if r.countTaken = true then min countMax (x.bunkCount + 1) else x.bunkCount
      removedCount := if r.countTaken = true then x.removedCount - 1 else x.removedCount
      excessCount := if r.countTaken = true then x.excessCount else x.excessCount - 1
      saturated := x.saturated || decide (massMax < x.bunkMass + r.taken ∨
        (r.countTaken = true ∧ countMax < x.bunkCount + 1)) } := by
  cases counted : r.countTaken <;>
    simp [AsnSlot.reverse, remove, counted, addMass, addCount, massOver, countOver, Bool.or_assoc]

theorem TripEntry.reverse_add {m : Nat} (add : r.outcome = .add) (mass : r.mass = some m) :
    TripEntry.reverse r = fun e => { e with loadedMass := e.loadedMass - m, loadedCount := e.loadedCount - 1 } := by
  funext e
  simp [TripEntry.reverse, add, mass]

theorem TripEntry.reverse_remove (remove : r.outcome = .remove) : TripEntry.reverse r = fun e => { e with
    removedMass := e.removedMass - r.taken
    removedCount := if r.countTaken = true then e.removedCount - 1 else e.removedCount } := by
  funext e
  simp [TripEntry.reverse, remove]

end judged

section frames
variable {p : Port} {hi lo : Byte} {s : State}

theorem voidLift_refused {c : Code} (admitted : Admitted p .voidLift [hi, lo] s)
    (judged : s.tlu.voidJudged (hi.toNat * 256 + lo.toNat) = .error c) :
    exec (.voidLift p [hi, lo]) s = .next ((s.heard p).answered p 0x15#8 c []) := by
  refine exec_refused (r := .voidLift) admitted ?_
  rw [← natAt_two, ← heard_tlu] at judged
  unfold serve serveVoidLift
  dsimp only
  rw [judged]

theorem voidLift_taken {r : LogRecord} (admitted : Admitted p .voidLift [hi, lo] s)
    (judged : s.tlu.voidJudged (hi.toNat * 256 + lo.toNat) = .ok r) :
    exec (.voidLift p [hi, lo]) s =
      .next ((handBunkTotal s.tlu.bunkTotal ((s.heard p).setTlu (s.tlu.reverse r))).answered p 0x15#8 .ok
        (liftRecordBytes { r with voided := true })) := by
  refine exec_taken (r := .voidLift) admitted ?_
  rw [← natAt_two] at judged
  unfold serve serveVoidLift
  dsimp only
  rw [show (s.heard p).tlu = s.tlu from rfl, judged]

end frames

/-- Settles O40: R128's rows as `Tlu.voidJudged` has them, and the reversal of an ADD, of a REMOVE and of neither. -/
theorem voidLift : Obligations.VoidLift := by
  unfold Obligations.VoidLift
  intro p hi lo s admitted n refused
  refine ⟨fun zero => voidLift_refused admitted (if_pos zero),
    fun named absent => voidLift_refused admitted (Tlu.voidJudged_absent named absent), fun r named found => ?_⟩
  intro current voided
  have number : r.number = n := Tlu.find_number found
  have voids {table : Vector (Option AsnSlot) 16} {entry : TripEntry → TripEntry} (judged : s.tlu.voidJudged n = .ok r)
      (reverses : s.tlu.reverse r = s.tlu.voided n r table entry) : voided table entry := by
    have taken := voidLift_taken admitted judged
    rw [reverses] at taken
    exact taken
  have voidable (standing : r.voided = false) (ofOpen : current) : s.tlu.Voidable n r := ⟨named, found, standing, ofOpen⟩
  have judged := Tlu.voidJudged_found named found
  refine ⟨fun gone => ?_, fun standing other => ?_, fun standing ofOpen outcome unknown => ?_,
    fun standing ofOpen add remove => ?_, fun i x m standing ofOpen slot held add mass => ⟨fun short => ?_, fun bm bc lm lc => ?_⟩,
    fun i x standing ofOpen slot held remove => ⟨fun short => ?_, fun taken excess removed left => ?_⟩⟩
  · exact voidLift_refused admitted (judged.trans (if_pos gone))
  · refine voidLift_refused admitted (judged.trans ?_)
    rw [if_neg (by simp [standing]), if_pos ((s.tlu.tripGone_iff r).2 other)]
  · exact voidLift_refused admitted ((voidable standing ofOpen).undefined outcome unknown)
  · exact voids ((voidable standing ofOpen).neither add remove) (Tlu.reverse_neither add remove number)
  · exact voidLift_refused admitted (((voidable standing ofOpen).held slot held).trans (if_pos ((cannotReverse_add add mass).2 short)))
  · have reverses := Tlu.reverse_held slot held (.inl add) number
    rw [x.reverse_add add mass, TripEntry.reverse_add add mass] at reverses
    refine voids (((voidable standing ofOpen).held slot held).trans (if_neg ?_)) reverses
    rw [cannotReverse_add add mass]
    omega
  · exact voidLift_refused admitted (((voidable standing ofOpen).held slot held).trans (if_pos ((cannotReverse_remove remove).2 short)))
  · have reverses := Tlu.reverse_held slot held (.inr remove) number
    rw [x.reverse_remove remove, TripEntry.reverse_remove remove] at reverses
    refine voids (((voidable standing ofOpen).held slot held).trans (if_neg ?_)) reverses
    rw [cannotReverse_remove remove]
    rintro (short | short | ⟨counted, short⟩ | ⟨counted, short⟩)
    · omega
    · omega
    · exact absurd (removed counted) (by omega)
    · exact absurd (left counted) (by omega)

/-! ### ASSIGN_LIFT (R130) -/

section assigned
variable {t : Tlu} {n : Nat} {r : LogRecord} {o : LiftOutcome}

theorem Tlu.assignJudged_absent (named : n ≠ 0) (absent : t.find n = none) :
    t.assignJudged n (some o) = .error .notFound := by
  unfold Tlu.assignJudged
  dsimp only
  rw [if_neg named, absent]

/-- A resident record with a mass under R130's rows 3 and 4. -/
theorem Tlu.assignJudged_weighed {m : Nat} (named : n ≠ 0) (found : t.find n = some r) (mass : r.mass = some m) :
    t.assignJudged n (some o) = if r.voided = true ∨ r.outcome ≠ .unzoned then .error .conflict
      else if (!t.defined r.asn) = true then .error .notFound
      else .ok (r, o, m) := by
  unfold Tlu.assignJudged
  dsimp only
  rw [if_neg named, found]
  dsimp only
  rw [mass]

theorem Tlu.assignJudged_conflict (named : n ≠ 0) (found : t.find n = some r)
    (unfit : r.voided = true ∨ r.outcome ≠ .unzoned ∨ r.mass = none) : t.assignJudged n (some o) = .error .conflict := by
  cases mass : r.mass with
  | none =>
    unfold Tlu.assignJudged
    dsimp only
    rw [if_neg named, found]
    dsimp only
    rw [mass]
  | some m =>
    rw [Tlu.assignJudged_weighed named found mass]
    exact if_pos (unfit.imp_right (fun h => h.resolve_right (by simp [mass])))

/-- A standing UNZONED record with a mass is assigned, when its assortment is defined. -/
theorem Tlu.assignJudged_unzoned {m : Nat} (named : n ≠ 0) (found : t.find n = some r) (standing : r.voided = false)
    (unzoned : r.outcome = .unzoned) (mass : r.mass = some m) :
    t.assignJudged n (some o) = if t.slotOf r.asn = none then .error .notFound else .ok (r, o, m) := by
  rw [Tlu.assignJudged_weighed named found mass, if_neg (by simp [standing, unzoned])]
  simp [Tlu.defined]

/-- The log of an assignment holds the record as it now stands; the next lift number is untouched (R130). -/
theorem Tlu.assign_log (t : Tlu) (r : LogRecord) (o : LiftOutcome) (m : Nat) :
    (t.assign r o m).tlu.log = t.log.map (fun y => if y.number = r.number then (t.assign r o m).record else y) ∧
      (t.assign r o m).tlu.nextLift = t.nextLift := by
  obtain ⟨log, nextLift⟩ := t.apply_log o r.asn (some m) r.number
  refine ⟨?_, nextLift⟩
  rw [← log]
  exact List.map_congr_left (fun y _ => by simp only [beq_iff_eq]; rfl)

variable {p : Port} {hi lo b : Byte} {s : State}

theorem assignLift_refused {c : Code} (admitted : Admitted p .assignLift [hi, lo, b] s)
    (judged : s.tlu.assignJudged (hi.toNat * 256 + lo.toNat) (assignOutcomeOf b.toNat) = .error c) :
    exec (.assignLift p [hi, lo, b]) s = .next ((s.heard p).answered p 0x16#8 c []) := by
  refine exec_refused (r := .assignLift) admitted ?_
  rw [← natAt_firstTwo hi lo b, ← natAt_third hi lo b, ← heard_tlu] at judged
  unfold serve serveAssignLift
  dsimp only
  rw [judged]

theorem assignLift_taken {m : Nat} (admitted : Admitted p .assignLift [hi, lo, b] s)
    (judged : s.tlu.assignJudged (hi.toNat * 256 + lo.toNat) (assignOutcomeOf b.toNat) = .ok (r, o, m)) :
    let h := s.tlu.assign r o m
    exec (.assignLift p [hi, lo, b]) s =
      .next ((handBunkTotal s.tlu.bunkTotal (if h.closed = true then reportTripClosed h.tlu.trip ((s.heard p).setTlu h.tlu)
        else (s.heard p).setTlu h.tlu)).answered p 0x16#8 .ok (liftRecordBytes h.record)) := by
  refine exec_taken (r := .assignLift) admitted ?_
  rw [← natAt_firstTwo hi lo b, ← natAt_third hi lo b] at judged
  unfold serve serveAssignLift
  dsimp only
  rw [show (s.heard p).tlu = s.tlu from rfl, judged]

end assigned

theorem assignOutcomeOf_none {k : Nat} (other : 2 ≤ k) : assignOutcomeOf k = none := by
  unfold assignOutcomeOf
  split
  · omega
  · omega
  · rfl

theorem assignOutcomeOf_some {k : Nat} (one : k < 2) :
    (k = 0 ∧ assignOutcomeOf k = some .add) ∨ (k = 1 ∧ assignOutcomeOf k = some .remove) := by
  obtain rfl | rfl : k = 0 ∨ k = 1 := by omega
  · exact .inl ⟨rfl, rfl⟩
  · exact .inr ⟨rfl, rfl⟩

theorem Tlu.assignJudged_badField (t : Tlu) {n k : Nat} (bad : n = 0 ∨ 2 ≤ k) :
    t.assignJudged n (assignOutcomeOf k) = .error .badField := by
  cases outcome : assignOutcomeOf k with
  | none => rfl
  | some o =>
    have within : ¬2 ≤ k := fun other => by simp [assignOutcomeOf_none other] at outcome
    exact if_pos (bad.resolve_right within)

/-- Settles O41: R130's rows as `Tlu.assignJudged` has them, and what applying an ADD or a REMOVE gives, as at a hand-over
(`Tlu.applyAdd_added`, `Tlu.applyRemove_removed`). -/
theorem assignLiftResult : Obligations.AssignLiftResult := by
  unfold Obligations.AssignLiftResult
  intro p hi lo b s admitted n refused
  have outcome (fits : b.toNat < 2) : ∃ o, assignOutcomeOf b.toNat = some o := by
    rcases assignOutcomeOf_some fits with ⟨_, o⟩ | ⟨_, o⟩ <;> exact ⟨_, o⟩
  refine ⟨fun bad => assignLift_refused admitted (s.tlu.assignJudged_badField bad), fun named fits absent => ?_,
    fun r named fits found => ⟨fun unfit => ?_, fun standing unzoned weighed unknown => ?_,
      fun i x m standing unzoned mass slot held => ?_⟩⟩
  all_goals obtain ⟨o, is⟩ := outcome fits
  · exact assignLift_refused admitted (by rw [is]; exact Tlu.assignJudged_absent named absent)
  · exact assignLift_refused admitted (by rw [is]; exact Tlu.assignJudged_conflict named found unfit)
  · obtain ⟨m, mass⟩ := Option.isSome_iff_exists.1 weighed
    refine assignLift_refused admitted ?_
    rw [is, Tlu.assignJudged_unzoned named found standing unzoned mass, if_pos unknown]
  · have number : r.number = n := Tlu.find_number found
    have taken := assignLift_taken (r := r) (o := o) (m := m) admitted (by
      rw [is, Tlu.assignJudged_unzoned named found standing unzoned mass, if_neg (by simp [slot])])
    obtain ⟨log, nextLift⟩ := s.tlu.assign_log r o m
    rw [number] at log
    refine ⟨(s.tlu.assign r o m).tlu, (s.tlu.assign r o m).closed, (s.tlu.assign r o m).record, taken, log, nextLift,
      fun zero => ?_, fun one => ?_⟩
    · obtain rfl : o = .add := by rw [zero] at is; cases is; rfl
      have trip := s.tlu.applyAdd_trip r.asn m r.number
      rw [← number]
      refine ⟨s.tlu.applyAdd_added r.asn m r.number, rfl, ?_⟩
      simp only [Tlu.assign, Tlu.apply, trip, Tlu.replace]
    · obtain rfl : o = .remove := by rw [one] at is; cases is; rfl
      rw [← number]
      refine ⟨Tlu.applyRemove_removed slot held, s.tlu.apply_closed .remove r.asn (some m) r.number, ?_⟩
      simp only [Tlu.assign, Tlu.apply, Tlu.applyRemove, Trip.current_eq, Tlu.figures_held slot held, AsnSlot.split]

end Sys2Proof.Machine
end

section
/-! PROOFS. TRIP_CLOSE (R125, R126, R211, R217): O42. -/

namespace Sys2Proof.Machine

/-! ### A report that finds room (R217) -/

theorem queueReport_port (s : State) (r : Report) (body : List Byte) (q : Port) :
    (s.queueReport r body).port q = (s.port q).queueReport r body := by cases q <;> rfl

/-- An enabled report joins a queue with room. -/
theorem queueReport_joins {s : State} {r : Report} {q : Port} (enabled : (s.port q).enable.getLsbD r.bit = true)
    (room : (s.port q).queue.length < 16) (body : List Byte) : (s.queueReport r body).port q = { s.port q with
      queue := (s.port q).queue ++ [{ kind := r.kind, status := 0#8, body := body }] } := by
  rw [queueReport_port]
  exact (if_pos enabled).trans (if_pos room)

/-- A frame of TRIP_CLOSED (R211). -/
def closedFrame (t : Trip) (part : Nat) : OutFrame := { kind := 0xC1#8, status := 0#8, body := tripRecordBytes t part }

/-- The report of a closed trip joins in its one or two frames (R125, R211). -/
theorem reportTripClosed_joins (t : Trip) {s : State} {q : Port} (enabled : (s.port q).enable.getLsbD 1 = true)
    (room : (s.port q).queue.length +
      (if t.list.length ≤ 8 then [closedFrame t 1] else [closedFrame t 1, closedFrame t 2]).length ≤ 16) :
    ((reportTripClosed t s).port q).queue =
      (s.port q).queue ++ if t.list.length ≤ 8 then [closedFrame t 1] else [closedFrame t 1, closedFrame t 2] := by
  unfold reportTripClosed Trip.parts
  by_cases short : t.list.length ≤ 8
  · simp only [short, if_true] at room ⊢
    have first := queueReport_joins (r := .tripClosed) enabled (Nat.lt_of_succ_le room) (tripRecordBytes t 1)
    exact congrArg PortState.queue first
  · simp only [short, if_false] at room ⊢
    have two : (s.port q).queue.length + 2 ≤ 16 := room
    have first := queueReport_joins (r := .tripClosed) enabled (by omega) (tripRecordBytes t 1)
    have second := queueReport_joins (s := s.queueReport .tripClosed (tripRecordBytes t 1)) (r := .tripClosed) (q := q)
      (by rw [first]; exact enabled) (by rw [first]; simp; omega) (tripRecordBytes t 2)
    rw [first] at second
    exact (congrArg PortState.queue second).trans (List.append_assoc _ _ _)

/-! ### What a judgement leaves elsewhere -/

theorem Judged.otherBlocks {s t : State} (h : Judged s t) :
    t.sbc = s.sbc ∧ t.pos = s.pos ∧ t.wge = s.wge ∧ t.tlu = s.tlu ∧ t.cpm = s.cpm ∧ t.stc = s.stc := by
  rw [h.rest]
  exact ⟨rfl, rfl, rfl, rfl, rfl, rfl⟩

/-! ### The bunk written off (R126) -/

theorem Tlu.closeOrdered_history (t : Tlu) : t.closeOrdered.history.getLast? = some t.closeOrdered.trip :=
  getLast?_lastN_append 7 _ _

theorem Tlu.closeOrdered_table (t : Tlu) {i : Fin 16} {x : AsnSlot} (held : t.table[i] = some x) :
    t.closeOrdered.table[i] = some x.writeOff := by
  have held : t.table[i.val] = some x := held
  simp [Tlu.closeOrdered, Tlu.close, held]

/-- The part once the trip is closed, reported and its bunk total handed on (R126, R132). -/
def tripCloses (s : State) : State :=
  handBunkTotal s.tlu.bunkTotal (reportTripClosed s.tlu.closeOrdered.trip (s.setTlu s.tlu.closeOrdered))

theorem tripCloses_judged (s : State) : Judged (s.setTlu s.tlu.closeOrdered) (tripCloses s) :=
  (reportTripClosed_judged _ _).trans (handBunkTotal_judged _ _)

theorem tripCloses_tlu (s : State) : (tripCloses s).tlu = s.tlu.closeOrdered :=
  (handBunkTotal_handedOn _ _).tlu.trans (reportTripClosed_handedOn _ _).tlu

theorem tripCloses_queue {s : State} {q : Port} (enabled : (s.port q).enable.getLsbD 1 = true) :
    let trip := s.tlu.closeOrdered.trip
    let frames := if trip.list.length ≤ 8 then [closedFrame trip 1] else [closedFrame trip 1, closedFrame trip 2]
    (s.port q).queue.length + frames.length ≤ 16 → ∃ more, ((tripCloses s).port q).queue = (s.port q).queue ++ frames ++ more := by
  intro trip frames room
  have joined := reportTripClosed_joins trip (s := s.setTlu s.tlu.closeOrdered) enabled room
  obtain ⟨more, queue, -⟩ := handBunkTotal_quiet (kinds := []) (by unfold Avoids; decide) s.tlu.bunkTotal
    (reportTripClosed trip (s.setTlu s.tlu.closeOrdered)) q
  exact ⟨more, queue.trans (congrArg (· ++ more) joined)⟩

/-- Settles O42: the trip closed with the bunk written off, its report, and the bunk total handed on after it. -/
theorem tripCloseResult : Obligations.TripCloseResult := by
  unfold Obligations.TripCloseResult
  refine fun p s admitted => ⟨fun closed => ?_, fun isOpen => ?_⟩
  · exact exec_refused (r := .tripClose) admitted (if_neg (by simp [Trip.open_iff, closed]))
  · have taken := exec_taken (r := .tripClose) (reply := be4 s.tlu.closeOrdered.trip.writtenOff) (t := tripCloses (s.heard p)) admitted
      (if_pos ((Trip.open_iff _).2 isOpen))
    have tlu : (tripCloses (s.heard p)).tlu = s.tlu.closeOrdered := tripCloses_tlu _
    obtain ⟨sbc, pos, wge, -, cpm, stc⟩ := (tripCloses_judged (s.heard p)).otherBlocks
    refine ⟨_, tripCloses (s.heard p), taken, ?_⟩
    rw [answered_tlu, tlu]
    refine ⟨rfl, rfl, rfl, rfl, rfl, rfl, s.tlu.closeOrdered_history, rfl, rfl, fun i x held => ?_, fun q => ?_, ?_⟩
    · exact ⟨x.writeOff, s.tlu.closeOrdered_table held, rfl, rfl, rfl, rfl, rfl, rfl, rfl, rfl⟩
    · intro frame frames enabled room
      have queue : ((s.heard p).port q).queue = (s.port q).queue ∧ ((s.heard p).port q).enable = (s.port q).enable := by
        cases p <;> cases q <;> exact ⟨rfl, rfl⟩
      have joined := tripCloses_queue (s := s.heard p) (q := q) (by rw [queue.2]; exact enabled)
      rw [queue.1] at joined
      exact joined room
    · simp only [answered_sbc, answered_pos, answered_wge, answered_cpm, answered_stc]
      exact ⟨sbc, pos, wge, cpm, stc⟩

end Sys2Proof.Machine
end

section
/-! PROOFS. What a firing and a withdrawal leave, and the edge of an entry or of a pair (R163 to R166): the ground of O53. -/

namespace Sys2Proof.Machine

/-! ### Entries and pairs (R163, R165) -/

theorem Wt.setEntry_get (w : Wt) (k j : Fin 8) (x : WatchEntry) :
    (w.setEntry k x).entries[j] = if j = k then x else w.entries[j] := by
  by_cases same : j = k
  · subst same
    simp [Wt.setEntry]
  · have apart : k.val ≠ j.val := fun h => same (Fin.ext h.symm)
    simp [Wt.setEntry, Vector.getElem_set_ne _ _ apart, same]

theorem Wt.setPair_get (w : Wt) (k : Fin 8) (c : Fin 4) (b : Bool) :
    (w.setPair k b).pairs[c] = if c = coupleOf k then b else w.pairs[c] := by
  by_cases same : c = coupleOf k
  · subst same
    simp [Wt.setPair]
  · have apart : (coupleOf k).val ≠ c.val := fun h => same (Fin.ext h.symm)
    simp [Wt.setPair, Vector.getElem_set_ne _ _ apart, same]

/-- The entry with its hit flag set where `hit` holds (R163). -/
def WatchEntry.hits (x : WatchEntry) (hit : Bool) : WatchEntry := { x with hit := x.hit || hit }

theorem Wt.setHit_get (w : Wt) (k j : Fin 8) : (w.setHit k).entries[j] = w.entries[j].hits (decide (j = k)) := by
  unfold Wt.setHit
  rw [Wt.setEntry_get]
  by_cases same : j = k <;> simp [WatchEntry.hits, same]

theorem Wt.setHits_get (w : Wt) (k j : Fin 8) (partner : Option (Fin 8)) :
    (w.setHits k partner).entries[j] = w.entries[j].hits (decide (j = k ∨ partner = some j)) := by
  cases partner with
  | none => simpa [Wt.setHits] using w.setHit_get k j
  | some p =>
    have both : (w.setHits k (some p)).entries[j] = ((w.entries[j].hits (decide (j = p))).hits (decide (j = k))) := by
      rw [← w.setHit_get p j]
      exact (w.setHit p).setHit_get k j
    have turned : p = j ↔ j = p := ⟨Eq.symm, Eq.symm⟩
    rw [both]
    simp [WatchEntry.hits, Bool.or_assoc, Bool.or_comm, turned]

theorem Wt.setHits_beside (w : Wt) (k : Fin 8) (partner : Option (Fin 8)) :
    (w.setHits k partner).pairs = w.pairs ∧ (w.setHits k partner).capture = w.capture := by
  cases partner <;> exact ⟨rfl, rfl⟩

/-! ### A presentation of WT (R178) -/

theorem present_wt (src : HoldSource) (mask : LineMask) (s : State) : (present src mask s).wt = s.wt := by
  obtain ⟨m, rest, -⟩ := present_rest src mask s
  rw [rest]
  rfl

theorem present_watch (k j : Fin 8) (mask : LineMask) (s : State) :
    (present (.watch k) mask s).hls.masks.watch[j] = if j = k then mask else s.hls.masks.watch[j] := by
  have asked := present_get (.watch k) mask s (.watch j)
  simp only [HoldSource.watch.injEq] at asked
  exact asked

/-! ### A withdrawal (R164) -/

section withdrawal
variable (k : Fin 8) (s : State)

theorem withdraw_wt : (withdraw k s).wt = s.wt := by
  unfold withdraw
  split
  · exact present_wt _ _ _
  · rfl

theorem withdraw_calm {k : Fin 8} {s : State} (calm : s.wt.entries[k].d.action ≠ .hold) : withdraw k s = s := if_neg calm

theorem withdraw_watch (j : Fin 8) : (withdraw k s).hls.masks.watch[j] =
    if j = k ∧ s.wt.entries[k].d.action = .hold then 0#6 else s.hls.masks.watch[j] := by
  by_cases hold : s.wt.entries[k].d.action = .hold
  · rw [show withdraw k s = _ from if_pos hold, present_watch]
    simp only [hold, and_true]
  · rw [withdraw_calm hold]
    simp only [hold, and_false, if_false]

end withdrawal

/-! ### A firing (R163) -/

section firing
variable (ev : SourceEvent) (k : Fin 8) (partner : Option (Fin 8)) (s : State)

theorem offerCapture_entries : (offerCapture k s).wt.entries = s.wt.entries ∧ (offerCapture k s).wt.pairs = s.wt.pairs ∧
    (offerCapture k s).hls = s.hls := by
  unfold offerCapture
  split
  · exact ⟨rfl, rfl, rfl⟩
  · split <;> exact ⟨rfl, rfl, rfl⟩

theorem offerCapture_empty {s : State} (empty : s.wt.capture = none) : (offerCapture k s).wt.capture = some (s.wt.captureOf k false) := by
  unfold offerCapture
  rw [empty]
  rfl

/-- A firing by its action (R163). -/
theorem fire_rows : let u := s.setWt (s.wt.setHits k partner)
    (s.wt.entries[k].d.action = .report → fire ev k partner s = u.queueReport .watch (watchBody u.wt k partner ev)) ∧
      (s.wt.entries[k].d.action = .capture → fire ev k partner s = offerCapture k u) ∧
      (s.wt.entries[k].d.action = .hold → fire ev k partner s = present (.watch k) s.wt.entries[k].d.holdMask u) := by
  unfold fire
  refine ⟨fun action => ?_, fun action => ?_, fun action => ?_⟩ <;> simp only [action]

theorem fire_entries : (fire ev k partner s).wt.entries = (s.wt.setHits k partner).entries ∧
    (fire ev k partner s).wt.pairs = s.wt.pairs := by
  obtain ⟨pairs, -⟩ := s.wt.setHits_beside k partner
  obtain ⟨reports, captures, holds⟩ := fire_rows ev k partner s
  cases action : s.wt.entries[k].d.action with
  | report => rw [reports action]; exact ⟨rfl, pairs⟩
  | capture =>
    obtain ⟨entries, same, -⟩ := offerCapture_entries k (s.setWt (s.wt.setHits k partner))
    rw [captures action]
    exact ⟨entries, same.trans pairs⟩
  | hold => rw [holds action, present_wt]; exact ⟨rfl, pairs⟩

theorem fire_calm (calm : s.wt.entries[k].d.action ≠ .hold) : (fire ev k partner s).hls = s.hls := by
  obtain ⟨reports, captures, -⟩ := fire_rows ev k partner s
  cases action : s.wt.entries[k].d.action with
  | report => rw [reports action]; rfl
  | capture => rw [captures action]; exact (offerCapture_entries k _).2.2
  | hold => exact absurd action calm

theorem fire_watch (j : Fin 8) : (fire ev k partner s).hls.masks.watch[j] =
    if j = k ∧ s.wt.entries[k].d.action = .hold then s.wt.entries[k].d.holdMask else s.hls.masks.watch[j] := by
  by_cases hold : s.wt.entries[k].d.action = .hold
  · rw [(fire_rows ev k partner s).2.2 hold, present_watch]
    simp only [hold, and_true, State.setWt_hls]
  · rw [fire_calm ev k partner s hold]
    simp only [hold, and_false, if_false]

end firing

/-! ### An edge (R163 to R166) -/

/-- Acting entry `k` as the match state it acts for goes from `was` to `is`. -/
def actOn (ev : SourceEvent) (k : Fin 8) (partner : Option (Fin 8)) (was is : Bool) (s : State) : State :=
  if is && !was then fire ev k partner s else if was && !is then withdraw k s else s

theorem judgeEdge_unchained {s : State} {k : Fin 8} (alone : s.wt.chained k = false) (ev : SourceEvent) (was : Bool) :
    judgeEdge ev k was s = actOn ev k none was s.wt.entries[k].matching s := if_neg (by simp [alone])

theorem judgeEdge_chained {s : State} {k : Fin 8} (chained : s.wt.chained k = true) (ev : SourceEvent) (was : Bool) :
    judgeEdge ev k was s = actOn ev (oddOf k) (some (evenOf k)) s.wt.pairs[coupleOf k] (s.wt.bothMatch k)
      (s.setWt (s.wt.setPair k (s.wt.bothMatch k))) := if_pos chained

/-- What an edge of acting entry `k` leaves: hit flags and the action as it rises, the HOLD withdrawn as it falls. -/
structure Acted (ev : SourceEvent) (k : Fin 8) (partner : Option (Fin 8)) (was is : Bool) (s t : State) : Prop where
  entries : ∀ j : Fin 8, t.wt.entries[j] = s.wt.entries[j].hits (decide (j = k ∨ partner = some j) && (!was && is))
  pairs : t.wt.pairs = s.wt.pairs
  others : ∀ j : Fin 8, j ≠ k → t.hls.masks.watch[j] = s.hls.masks.watch[j]
  holds : was = false → is = true → s.wt.entries[k].d.action = .hold → t.hls.masks.watch[k] = s.wt.entries[k].d.holdMask
  reports : was = false → is = true → s.wt.entries[k].d.action = .report → ∀ p, t.port p =
    (s.port p).queueReport .watch (watchBody (s.wt.setHits k partner) k partner ev)
  captures : was = false → is = true → s.wt.entries[k].d.action = .capture → s.wt.capture = none →
    t.wt.capture = some ((s.wt.setHits k partner).captureOf k false)
  withdraws : was = true → is = false → s.wt.entries[k].d.action = .hold → t.hls.masks.watch[k] = 0#6
  calm : s.wt.entries[k].d.action ≠ .hold → t.hls = s.hls
  stays : was = is → t.hls = s.hls ∧ t.mpt = s.mpt
  judged : Judged s t

theorem WatchEntry.hits_false (x : WatchEntry) : x.hits false = x := by simp [WatchEntry.hits]

section edges
variable (ev : SourceEvent) (k : Fin 8) (partner : Option (Fin 8)) (s : State)

theorem fire_acted : Acted ev k partner false true s (fire ev k partner s) := by
  obtain ⟨reports, captures, -⟩ := fire_rows ev k partner s
  obtain ⟨entries, pairs⟩ := fire_entries ev k partner s
  refine ⟨fun j => ?_, pairs, fun j other => ?_, fun _ _ hold => ?_, fun _ _ action p => ?_, fun _ _ action empty => ?_, nofun,
    fire_calm ev k partner s, nofun, fire_judged ev k partner s⟩
  · rw [entries, Wt.setHits_get]
    simp
  · rw [fire_watch, if_neg (fun h => other h.1)]
  · rw [fire_watch, if_pos ⟨rfl, hold⟩]
  · rw [reports action, queueReport_port]
    rfl
  · rw [captures action]
    exact offerCapture_empty k ((s.wt.setHits_beside k partner).2.trans empty)

theorem withdraw_acted : Acted ev k partner true false s (withdraw k s) := by
  refine ⟨fun j => ?_, by rw [withdraw_wt], fun j other => ?_, nofun, nofun, nofun, fun _ _ hold => ?_, fun calm => ?_, nofun,
    withdraw_judged k s⟩
  · rw [withdraw_wt]
    simp [WatchEntry.hits_false]
  · rw [withdraw_watch, if_neg (fun h => other h.1)]
  · rw [withdraw_watch, if_pos ⟨rfl, hold⟩]
  · rw [withdraw_calm calm]

theorem acted_refl (b : Bool) : Acted ev k partner b b s s := by
  have no {P : Prop} (low : b = false) (high : b = true) : P := by rw [low] at high; cases high
  refine ⟨fun j => ?_, rfl, fun _ _ => rfl, fun low high => no low high, fun low high => no low high, fun low high => no low high,
    fun high low => no low high, fun _ => rfl, fun _ => ⟨rfl, rfl⟩, .refl s⟩
  simp [WatchEntry.hits]

theorem actOn_acted (was is : Bool) : Acted ev k partner was is s (actOn ev k partner was is s) := by
  cases was <;> cases is
  case false.true => exact fire_acted ev k partner s
  case true.false => exact withdraw_acted ev k partner s
  all_goals exact acted_refl ev k partner s _

end edges

end Sys2Proof.Machine
end

section
/-! PROOFS. The watch table's evaluation and the reset of its LIFT_MASS entries (R159 to R166): O53. -/

namespace Sys2Proof.Machine

/-! ### Comparison (R160) -/

theorem watchHolds_rows (d : WatchDef) (v : Int) :
    (d.mode = .above → (watchHolds d v = true ↔ d.a ≤ v)) ∧ (d.mode = .below → (watchHolds d v = true ↔ v ≤ d.a)) ∧
    (d.mode = .inside → d.a ≤ d.b → (watchHolds d v = true ↔ d.a ≤ v ∧ v ≤ d.b)) ∧
    (d.mode = .outside → d.a ≤ d.b → (watchHolds d v = true ↔ v < d.a ∨ d.b < v)) ∧
    (d.mode = .inside → d.b < d.a → (watchHolds d v = true ↔ d.a ≤ v ∨ v ≤ d.b)) ∧
    (d.mode = .outside → d.b < d.a → (watchHolds d v = true ↔ d.b < v ∧ v < d.a)) := by
  refine ⟨fun mode => ?_, fun mode => ?_, fun mode order => ?_, fun mode order => ?_, fun mode order => ?_, fun mode order => ?_⟩
  · simp [watchHolds, mode]
  · simp [watchHolds, mode]
  · simp [watchHolds, mode, order]
  · simp [watchHolds, mode, order]
  · simp [watchHolds, mode, Int.not_le.2 order]
  · simp [watchHolds, mode, Int.not_le.2 order]

/-! ### One entry judged (R161) -/

/-- WT with entry `k` judged on a valid value, before its edge is acted on. -/
def State.judgeAt (s : State) (k : Fin 8) (v : Int) : State := s.setWt (s.wt.setEntry k (s.wt.entries[k].judged v))

section entry
variable {ev : SourceEvent} {vals : Quantity → Option Marked} {k : Fin 8} {m : Marked} {s : State}

theorem evalEntry_unconcerned (none : vals s.wt.entries[k].d.quantity = none) : evalEntry ev vals s k = s := by
  unfold evalEntry
  dsimp only
  rw [none]
  split <;> rfl

theorem evalEntry_disabled (disabled : s.wt.entries[k].d.enable = false) : evalEntry ev vals s k = s :=
  if_neg (Bool.eq_false_iff.1 disabled)

theorem evalEntry_enabled (enabled : s.wt.entries[k].d.enable = true) (carried : vals s.wt.entries[k].d.quantity = some m) :
    evalEntry ev vals s k = judgeEdge ev k s.wt.entries[k].matching (if m.ok = true then s.judgeAt k m.val else s) := by
  unfold evalEntry
  dsimp only
  rw [carried]
  exact if_pos enabled

theorem evalEntry_valid (enabled : s.wt.entries[k].d.enable = true) (carried : vals s.wt.entries[k].d.quantity = some m)
    (valid : m.ok = true) : evalEntry ev vals s k = judgeEdge ev k s.wt.entries[k].matching (s.judgeAt k m.val) := by
  rw [evalEntry_enabled enabled carried, if_pos valid]

theorem evalEntry_invalid (carried : vals s.wt.entries[k].d.quantity = some m) (invalid : m.ok = false)
    (alone : s.wt.chained k = false) : evalEntry ev vals s k = s := by
  cases enabled : s.wt.entries[k].d.enable with
  | false => exact evalEntry_disabled enabled
  | true =>
    rw [evalEntry_enabled enabled carried, if_neg (by simp [invalid]), judgeEdge_unchained alone]
    cases h : s.wt.entries[k].matching <;> simp [actOn]

theorem judgeAt_get (s : State) (k j : Fin 8) (v : Int) :
    (s.judgeAt k v).wt.entries[j] = if j = k then s.wt.entries[k].judged v else s.wt.entries[j] := Wt.setEntry_get _ _ _ _

theorem judgeAt_defs (s : State) (k j : Fin 8) (v : Int) : (s.judgeAt k v).wt.entries[j].d = s.wt.entries[j].d :=
  Wt.setEntry_defs (x := s.wt.entries[k].judged v) s.wt k rfl j

theorem judgeAt_judged (s : State) (k : Fin 8) (v : Int) : Judged s (s.judgeAt k v) := setWt_judged s rfl

/-- An unchained entry acts on its own edge (R163, R164). -/
theorem evalEntry_alone (enabled : s.wt.entries[k].d.enable = true) (alone : s.wt.chained k = false)
    (carried : vals s.wt.entries[k].d.quantity = some m) (valid : m.ok = true) :
    Acted ev k none s.wt.entries[k].matching (watchHolds s.wt.entries[k].d m.val) (s.judgeAt k m.val) (evalEntry ev vals s k) := by
  have here : (s.judgeAt k m.val).wt.entries[k].matching = watchHolds s.wt.entries[k].d m.val := by
    rw [judgeAt_get, if_pos rfl]
    rfl
  have alone : (s.judgeAt k m.val).wt.chained k = false := by
    unfold Wt.chained
    rw [judgeAt_defs]
    exact alone
  rw [evalEntry_valid enabled carried valid, judgeEdge_unchained alone, here]
  exact actOn_acted ev k none _ _ _

/-- The pair match state of `k`'s couple once `k` is judged on a valid value (R165). -/
def State.pairAt (s : State) (k : Fin 8) (v : Int) : Bool := (s.judgeAt k v).wt.bothMatch k

/-- WT with entry `k` and its pair judged, before the pair's edge is acted on. -/
def State.judgePair (s : State) (k : Fin 8) (v : Int) : State :=
  (s.judgeAt k v).setWt ((s.judgeAt k v).wt.setPair k (s.pairAt k v))

theorem judgePair_judged (s : State) (k : Fin 8) (v : Int) : Judged s (s.judgePair k v) := setWt_judged s rfl

/-- A member of a chained pair acts on the pair's edge, the odd member acting (R165, R166). -/
theorem evalEntry_paired (enabled : s.wt.entries[k].d.enable = true) (chained : s.wt.chained k = true)
    (carried : vals s.wt.entries[k].d.quantity = some m) (valid : m.ok = true) :
    Acted ev (oddOf k) (some (evenOf k)) s.wt.pairs[coupleOf k] (s.pairAt k m.val) (s.judgePair k m.val)
      (evalEntry ev vals s k) := by
  have chained : (s.judgeAt k m.val).wt.chained k = true := by
    unfold Wt.chained
    rw [judgeAt_defs]
    exact chained
  rw [evalEntry_valid enabled carried valid, judgeEdge_chained chained]
  exact actOn_acted ev (oddOf k) (some (evenOf k)) _ _ _

end entry

/-- The WATCH report of a firing (R163, R222). -/
theorem watchBody_fired (w : Wt) (k : Fin 8) (partner : Option (Fin 8)) (ev : SourceEvent) :
    watchBody (w.setHits k partner) k partner ev = be1 k.val ++ be1 (match partner with | some p => p.val | none => 0xFF) ++
      be1 (quantityNum w.entries[k].d.quantity) ++ be1 (modeNum w.entries[k].d.mode) ++ beBytes 4 (w.entries[k].last.getD 0) ++
      be1 ev.num := by
  unfold watchBody
  dsimp only
  rw [Wt.setHits_get]
  rfl

end Sys2Proof.Machine
end

section
/-! PROOFS. The reset of the LIFT_MASS entries at OPEN to GRIPPED (R162; notes/assumptions/39.md): the last part of O53. -/

namespace Sys2Proof.Machine

/-! ### What a reset of some indices touches (R162) -/

/-- The reset of the indices of `l` resets entry `k`: its quantity is LIFT_MASS. -/
def Wt.resets (w : Wt) (l : List (Fin 8)) (k : Fin 8) : Bool := decide (w.entries[k].d.quantity = .liftMass ∧ k ∈ l)

/-- It resets the pair of `k`'s couple: one of the two members. -/
def Wt.resetsPair (w : Wt) (l : List (Fin 8)) (k : Fin 8) : Bool :=
  w.chained k && (w.resets l (evenOf k) || w.resets l (oddOf k))

/-- It ends what acting entry `k` acts for: its own match state, or its pair's. -/
def Wt.ends (w : Wt) (l : List (Fin 8)) (k : Fin 8) : Bool :=
  (!w.chained k && (w.resets l k && w.entries[k].matching)) || (w.resetsPair l k && (w.pairs[coupleOf k] && decide (k = oddOf k)))

/-- `t` is `s` after the reset of the indices of `l`. -/
structure LiftReset (l : List (Fin 8)) (s t : State) : Prop where
  entries : ∀ j : Fin 8, t.wt.entries[j] =
    { s.wt.entries[j] with matching := s.wt.entries[j].matching && !s.wt.resets l j }
  pairs : ∀ j : Fin 8, t.wt.pairs[coupleOf j] = (s.wt.pairs[coupleOf j] && !s.wt.resetsPair l j)
  watch : ∀ j : Fin 8, t.hls.masks.watch[j] =
    if s.wt.ends l j = true ∧ s.wt.entries[j].d.action = .hold then 0#6 else s.hls.masks.watch[j]
  rest : t.wt = { s.wt with entries := t.wt.entries, pairs := t.wt.pairs }
  queued : Queued [.watch, .captureReady] [] s t
  judged : Judged s t

/-- Nothing is reset where no index of `l` watches LIFT_MASS. -/
theorem LiftReset.refl {l : List (Fin 8)} {s : State} (none : ∀ j, s.wt.resets l j = false) : LiftReset l s s := by
  have noPair (j : Fin 8) : s.wt.resetsPair l j = false := by simp [Wt.resetsPair, none]
  have noEnd (j : Fin 8) : s.wt.ends l j = false := by simp [Wt.ends, none, noPair]
  refine ⟨fun j => ?_, fun j => ?_, fun j => ?_, rfl, .refl _ s, .refl s⟩
  · simp [none]
  · simp [noPair]
  · simp [noEnd]

/-- The resets of `l` and then of `r` are that of both. -/
theorem LiftReset.trans {l r : List (Fin 8)} {s t u : State} (h : LiftReset l s t) (k : LiftReset r t u) :
    LiftReset (l ++ r) s u := by
  have defs (j : Fin 8) : t.wt.entries[j].d = s.wt.entries[j].d := by rw [h.entries]
  have chained (j : Fin 8) : t.wt.chained j = s.wt.chained j := congrArg WatchDef.chain (defs (evenOf j))
  have resets (j : Fin 8) : t.wt.resets r j = s.wt.resets r j := by rw [Wt.resets, defs, Wt.resets]
  have resetsPair (j : Fin 8) : t.wt.resetsPair r j = s.wt.resetsPair r j := by
    rw [Wt.resetsPair, chained, resets, resets, Wt.resetsPair]
  have both (j : Fin 8) : s.wt.resets (l ++ r) j = (s.wt.resets l j || s.wt.resets r j) := by
    simp [Wt.resets, and_or_left]
  have bothPair (j : Fin 8) : s.wt.resetsPair (l ++ r) j = (s.wt.resetsPair l j || s.wt.resetsPair r j) := by
    rw [Wt.resetsPair, both, both, Wt.resetsPair, Wt.resetsPair]
    cases s.wt.chained j <;> simp [Bool.or_assoc, Bool.or_left_comm]
  have ends (j : Fin 8) : s.wt.ends (l ++ r) j = (s.wt.ends l j || t.wt.ends r j) := by
    rw [Wt.ends, Wt.ends, Wt.ends, chained, resets, resetsPair, both, bothPair, h.entries, h.pairs]
    cases s.wt.chained j <;> cases s.wt.resets l j <;> cases s.wt.resetsPair l j <;> simp [Bool.or_comm]
  refine ⟨fun j => ?_, fun j => ?_, fun j => ?_, ?_, h.queued.after k.queued, h.judged.trans k.judged⟩
  · rw [k.entries, h.entries, resets, both]
    simp [Bool.and_assoc]
  · rw [k.pairs, h.pairs, resetsPair, bothPair]
    simp [Bool.and_assoc]
  · rw [k.watch, h.watch, defs, ends]
    by_cases hold : s.wt.entries[j].d.action = .hold
    · cases t.wt.ends r j <;> simp only [hold, and_true, Bool.or_true, Bool.or_false, if_true, Bool.false_eq_true, if_false]
    · simp only [hold, and_false, if_false]
  · rw [k.rest, h.rest]

/-! ### One index reset (R162) -/

theorem coupleOf_eq_iff (j k : Fin 8) : coupleOf j = coupleOf k ↔ evenOf j = k ∨ oddOf j = k := by
  simp only [coupleOf, evenOf, oddOf, Fin.ext_iff]
  omega

theorem evenOf_couple {j k : Fin 8} (couple : coupleOf j = coupleOf k) : evenOf j = evenOf k := by
  simp only [coupleOf, evenOf, Fin.ext_iff] at *
  omega

theorem eq_oddOf_iff (j k : Fin 8) : j = oddOf k ↔ coupleOf j = coupleOf k ∧ j = oddOf j := by
  simp only [coupleOf, oddOf, Fin.ext_iff]
  omega

theorem Wt.chained_couple (w : Wt) {j k : Fin 8} (couple : coupleOf j = coupleOf k) : w.chained j = w.chained k :=
  congrArg (fun i : Fin 8 => w.entries[i].d.chain) (evenOf_couple couple)

section one
variable {w : Wt} {k : Fin 8} (lift : w.entries[k].d.quantity = .liftMass) (j : Fin 8)
include lift

theorem Wt.resets_one : w.resets [k] j = decide (j = k) := by
  unfold Wt.resets
  simp only [List.mem_singleton, decide_eq_decide]
  exact ⟨And.right, fun here => ⟨by rw [here]; exact lift, here⟩⟩

theorem Wt.resetsPair_one : w.resetsPair [k] j = (w.chained k && decide (coupleOf j = coupleOf k)) := by
  rw [Wt.resetsPair, Wt.resets_one lift, Wt.resets_one lift, ← Bool.decide_or]
  simp only [← coupleOf_eq_iff]
  by_cases couple : coupleOf j = coupleOf k
  · rw [w.chained_couple couple]
  · simp [couple]

theorem Wt.ends_one : w.ends [k] j = if w.chained k = true then w.pairs[coupleOf k] && decide (j = oddOf k)
    else w.entries[k].matching && decide (j = k) := by
  rw [Wt.ends, Wt.resets_one lift, Wt.resetsPair_one lift]
  by_cases couple : coupleOf j = coupleOf k
  · rw [w.chained_couple couple]
    have odd : decide (j = oddOf j) = decide (j = oddOf k) := by simp [eq_oddOf_iff j k, couple]
    cases w.chained k with
    | true => simp only [couple, odd, decide_true, Bool.not_true, Bool.false_and, Bool.false_or, Bool.true_and, if_true]
    | false =>
      by_cases here : j = k
      · subst here
        simp
      · simp [here]
  · have apart : j ≠ k := fun h => couple (congrArg coupleOf h)
    have odd : j ≠ oddOf k := fun h => couple ((eq_oddOf_iff j k).1 h).1
    simp [couple, apart, odd]

end one

/-- An edge to not matching: a withdrawal, or nothing (R164, R166). -/
theorem actOn_falling (ev : SourceEvent) (k : Fin 8) (partner : Option (Fin 8)) (was : Bool) (s : State) :
    actOn ev k partner was false s = if was = true then withdraw k s else s := by cases was <;> rfl

section falling
variable (was : Bool) (k : Fin 8) (s : State)

theorem falling_wt : (if was = true then withdraw k s else s).wt = s.wt := by
  split
  · exact withdraw_wt k s
  · rfl

theorem falling_watch (j : Fin 8) : (if was = true then withdraw k s else s).hls.masks.watch[j] =
    if (was && decide (j = k)) = true ∧ s.wt.entries[j].d.action = .hold then 0#6 else s.hls.masks.watch[j] := by
  cases was with
  | false => rfl
  | true =>
    rw [if_pos rfl, withdraw_watch]
    by_cases here : j = k
    · subst here
      simp
    · simp [here]

theorem falling_queued : Queued [.watch, .captureReady] [] s (if was = true then withdraw k s else s) := by
  unfold withdraw
  split
  · split
    · exact present_quiet (by decide) _ _ _
    · exact .refl _ s
  · exact .refl _ s

end falling

/-- The entry no longer matches (R162). -/
def Wt.unmatch (w : Wt) (k : Fin 8) : Wt := w.setEntry k { w.entries[k] with matching := false }

theorem Wt.unmatch_get (w : Wt) (k j : Fin 8) :
    (w.unmatch k).entries[j] = { w.entries[j] with matching := w.entries[j].matching && !decide (j = k) } := by
  unfold Wt.unmatch
  rw [Wt.setEntry_get]
  by_cases here : j = k
  · subst here
    simp
  · simp [here]

theorem Wt.unmatch_chained (w : Wt) (k j : Fin 8) : (w.unmatch k).chained j = w.chained j := by
  unfold Wt.chained
  rw [Wt.unmatch_get]

/-- A pair with a member that does not match does not match. -/
theorem Wt.unmatch_pair (w : Wt) (k : Fin 8) : (w.unmatch k).bothMatch k = false := by
  unfold Wt.bothMatch
  dsimp only
  rw [Wt.unmatch_get, Wt.unmatch_get]
  rcases (coupleOf_eq_iff k k).1 rfl with member | member
  · simp [member]
  · simp [member]

/-- An index reset whose acting entry `a`, matching or not before, has its HOLD withdrawn where it did (R162). -/
theorem LiftReset.of_falling {s : State} {k a : Fin 8} {w : Wt} {was : Bool} (lift : s.wt.entries[k].d.quantity = .liftMass)
    (entries : w.entries = (s.wt.unmatch k).entries)
    (pairs : ∀ j, w.pairs[coupleOf j] = (s.wt.pairs[coupleOf j] && !s.wt.resetsPair [k] j))
    (rest : w = { s.wt with entries := w.entries, pairs := w.pairs }) (ends : ∀ j, s.wt.ends [k] j = (was && decide (j = a))) :
    LiftReset [k] s (if was = true then withdraw a (s.setWt w) else s.setWt w) := by
  have wt : (if was = true then withdraw a (s.setWt w) else s.setWt w).wt = w := falling_wt was a (s.setWt w)
  have defs (j : Fin 8) : w.entries[j].d = s.wt.entries[j].d := by rw [entries, Wt.unmatch_get]
  have copies : w.copies = s.wt.copies := by rw [rest]; rfl
  refine ⟨fun j => ?_, fun j => ?_, fun j => ?_, ?_, (setWt_quiet _ s w).after (falling_queued was a (s.setWt w)),
    (setWt_judged s copies).trans (rel_ite (withdraw_judged a _) (.refl _))⟩
  · rw [wt, entries, Wt.unmatch_get, Wt.resets_one lift]
  · rw [wt, pairs]
  · rw [falling_watch, ends, State.setWt_wt, defs, State.setWt_hls]
  · rw [wt]
    exact rest

/-- One index reset, by what it watches and by whether it is a member of a pair (R162). -/
theorem resetLiftMass_reset (s : State) (k : Fin 8) : LiftReset [k] s (resetLiftMass s k) := by
  by_cases lift : s.wt.entries[k].d.quantity = .liftMass
  · have reset : resetLiftMass s k = judgeEdge .weighed k s.wt.entries[k].matching (s.setWt (s.wt.unmatch k)) := if_pos lift
    have chained : (s.setWt (s.wt.unmatch k)).wt.chained k = s.wt.chained k := s.wt.unmatch_chained k k
    have ends := Wt.ends_one lift
    have pair := Wt.resetsPair_one lift
    cases member : s.wt.chained k with
    | false =>
      have falls : (s.setWt (s.wt.unmatch k)).wt.entries[k].matching = false := by
        rw [State.setWt_wt, Wt.unmatch_get]
        simp
      rw [reset, judgeEdge_unchained (chained.trans member), falls, actOn_falling]
      refine .of_falling lift rfl (fun j => ?_) rfl (fun j => ?_)
      · rw [pair, member]
        simp [Wt.unmatch, Wt.setEntry]
      · rw [ends, member]
        rfl
    | true =>
      rw [reset, judgeEdge_chained (chained.trans member), State.setWt_wt, State.setWt_setWt, s.wt.unmatch_pair k, actOn_falling]
      refine .of_falling lift rfl (fun j => ?_) rfl (fun j => ?_)
      · rw [pair, member, Wt.setPair_get]
        by_cases couple : coupleOf j = coupleOf k
        · simp [couple]
        · simp [couple, Wt.unmatch, Wt.setEntry]
      · rw [ends, member]
        rfl
  · have none (j : Fin 8) : s.wt.resets [k] j = false := by
      unfold Wt.resets
      rw [decide_eq_false]
      rintro ⟨watches, here⟩
      rw [List.mem_singleton.1 here] at watches
      exact lift watches
    rw [show resetLiftMass s k = s from if_neg lift]
    exact .refl none

theorem resetAll_reset (l : List (Fin 8)) (s : State) : LiftReset l s (l.foldl resetLiftMass s) := by
  induction l generalizing s with
  | nil => exact .refl (fun j => by simp [Wt.resets])
  | cons k l ih => exact (resetLiftMass_reset s k).trans (ih _)

end Sys2Proof.Machine
end

section
/-! PROOFS. The source events and the change OPEN to GRIPPED as WT takes them (R132, R159, R162, R176), and O53. -/

namespace Sys2Proof.Machine

/-! ### The change OPEN to GRIPPED (R162) -/

theorem Wt.resets_all (w : Wt) (k : Fin 8) : w.resets (List.finRange 8) k = true ↔ w.entries[k].d.quantity = .liftMass := by
  simp [Wt.resets]

theorem Wt.resetsPair_all (w : Wt) (k : Fin 8) : w.resetsPair (List.finRange 8) k = true ↔
    w.entries[evenOf k].d.chain = true ∧
      (w.entries[evenOf k].d.quantity = .liftMass ∨ w.entries[oddOf k].d.quantity = .liftMass) := by
  rw [Wt.resetsPair, Bool.and_eq_true, Bool.or_eq_true, Wt.resets_all, Wt.resets_all]
  rfl

theorem Wt.ends_all (w : Wt) (k : Fin 8) : w.ends (List.finRange 8) k = true ↔
    (w.entries[evenOf k].d.chain = false ∧ w.entries[k].d.quantity = .liftMass ∧ w.entries[k].matching = true) ∨
      (w.entries[evenOf k].d.chain = true ∧
        (w.entries[evenOf k].d.quantity = .liftMass ∨ w.entries[oddOf k].d.quantity = .liftMass) ∧
        w.pairs[coupleOf k] = true ∧ k = oddOf k) := by
  unfold Wt.ends
  simp only [Bool.or_eq_true, Bool.and_eq_true, Bool.not_eq_true', decide_eq_true_eq, Wt.resets_all, Wt.resetsPair_all, Wt.chained,
    and_assoc]

section all
variable {s t : State} (h : LiftReset (List.finRange 8) s t) (k : Fin 8)
include h

theorem LiftReset.entry : t.wt.entries[k] =
    if s.wt.entries[k].d.quantity = .liftMass then { s.wt.entries[k] with matching := false } else s.wt.entries[k] := by
  rw [h.entries]
  by_cases lift : s.wt.entries[k].d.quantity = .liftMass
  · rw [(s.wt.resets_all k).2 lift, if_pos lift]
    simp
  · rw [Bool.eq_false_iff.2 (mt (s.wt.resets_all k).1 lift), if_neg lift]
    simp

theorem LiftReset.pair : t.wt.pairs[coupleOf k] =
    if s.wt.entries[evenOf k].d.chain = true ∧
      (s.wt.entries[evenOf k].d.quantity = .liftMass ∨ s.wt.entries[oddOf k].d.quantity = .liftMass) then false
    else s.wt.pairs[coupleOf k] := by
  rw [h.pairs]
  by_cases reset : s.wt.entries[evenOf k].d.chain = true ∧
      (s.wt.entries[evenOf k].d.quantity = .liftMass ∨ s.wt.entries[oddOf k].d.quantity = .liftMass)
  · rw [(s.wt.resetsPair_all k).2 reset, if_pos reset, Bool.not_true, Bool.and_false]
  · rw [Bool.eq_false_iff.2 (mt (s.wt.resetsPair_all k).1 reset), if_neg reset, Bool.not_false, Bool.and_true]

end all

theorem wtLift_gripped (tag mass : Option Nat) (s : State) :
    LiftReset (List.finRange 8) (s.setWt { s.wt with lift := .gripped, tag := tag }) (wtLift .open_ .gripped tag mass s) :=
  resetAll_reset _ _

/-! ### The source events (R159, R161, R176) -/

theorem poseVals_eq (p : Pose) : poseVals p = fun x =>
    if x = .reach then some { val := p.r.val, ok := p.valid } else if x = .height then some { val := p.h.val, ok := p.valid }
    else if x = .slew then some p.s else if x = .downhill then some p.t else none := by
  funext x
  cases x <;> rfl

theorem handBunkTotal_eq (n : Nat) (s : State) :
    handBunkTotal n s = if s.tlu.bunkTotal = n then s else wtBunk s.tlu.bunkTotal s := by
  unfold handBunkTotal
  by_cases same : s.tlu.bunkTotal = n <;> simp [same]

theorem wtLift_unresponsive {old new : LiftState} (low : new ≠ .weighed) (begun : ¬(old = .open_ ∧ new = .gripped))
    (tag mass : Option Nat) (s : State) : wtLift old new tag mass s = s.setWt { s.wt with lift := new, tag := tag } := by
  unfold wtLift
  dsimp only
  rw [if_neg begun]
  split
  · exact absurd rfl low
  · rfl

/-! ### The members of a couple (R165) -/

theorem couple_members {k even odd : Fin 8} {c : Fin 4} (isEven : even.val = 2 * c.val) (isOdd : odd.val = 2 * c.val + 1)
    (member : k = even ∨ k = odd) : even = evenOf k ∧ odd = oddOf k ∧ c = coupleOf k := by
  simp only [evenOf, oddOf, coupleOf, Fin.ext_iff] at *
  omega

/-- The match states of which a pair's is formed once `k` is judged (R165). -/
theorem pairAt_eq (s : State) (k : Fin 8) (v : Int) :
    let matching (j : Fin 8) := if j = k then watchHolds s.wt.entries[k].d v else s.wt.entries[j].matching
    (∀ j : Fin 8, (s.judgeAt k v).wt.entries[j].matching = matching j) ∧
      s.pairAt k v = (s.wt.entries[evenOf k].d.enable && matching (evenOf k) &&
        (s.wt.entries[oddOf k].d.enable && matching (oddOf k))) := by
  intro matching
  have states (j : Fin 8) : (s.judgeAt k v).wt.entries[j].matching = matching j := by
    rw [judgeAt_get, apply_ite WatchEntry.matching]
    rfl
  refine ⟨states, ?_⟩
  unfold State.pairAt Wt.bothMatch
  dsimp only
  rw [states, states, judgeAt_defs, judgeAt_defs, Bool.and_assoc]

theorem judgeAt_hit (s : State) (k j : Fin 8) (v : Int) : (s.judgeAt k v).wt.entries[j].hit = s.wt.entries[j].hit := by
  rw [judgeAt_get]
  split
  · next here => rw [here]; rfl
  · rfl

/-- Settles O53: the comparisons, an entry's own edge (`evalEntry_alone`), a pair's edge (`evalEntry_paired`), the source events, and
the reset at OPEN to GRIPPED (`wtLift_gripped`). -/
theorem entryEvaluation : Obligations.EntryEvaluation := by
  unfold Obligations.EntryEvaluation
  refine ⟨fun d v => ?_, fun ev vals k s => ⟨evalEntry_unconcerned, evalEntry_disabled, fun m => evalEntry_invalid⟩,
    fun ev vals k m s enabled alone carried valid => ?_, fun ev vals k even odd c m s isEven isOdd member chain enabled carried valid => ?_,
    fun s => ⟨fun m => rfl, fun m => rfl, fun n => rfl, fun n => handBunkTotal_eq n s, fun p => ?_,
      fun old new tag mass => ⟨fun m weighed result => ?_, fun low begun => wtLift_unresponsive low begun tag mass s, ?_⟩⟩⟩
  · obtain ⟨above, below, inside, outside, within, beyond⟩ := watchHolds_rows d v
    exact ⟨above, below, inside, outside, fun mode order _ => within mode order, fun mode order _ => beyond mode order⟩
  · intro t x
    have acted : Acted ev k none x.matching (watchHolds x.d m.val) (s.judgeAt k m.val) t := evalEntry_alone enabled alone carried valid
    have before : (s.judgeAt k m.val).wt.entries[k] = x.judged m.val := (judgeAt_get s k k m.val).trans (if_pos rfl)
    obtain ⟨entries, -, others, holds, reports, -, withdraws, calm, stays, judged⟩ := acted
    have after := entries k
    rw [before] at after holds reports withdraws calm
    refine ⟨by rw [after]; rfl, by rw [after]; rfl, by simp [after, WatchEntry.hits, WatchEntry.judged],
      fun hold was is => holds was is hold, fun hold was is => withdraws was is hold,
      fun report was is => ⟨calm (fun hold => by cases report.symm.trans hold), fun p => (reports was is report p).trans ?_⟩,
      calm, stays, fun j other => ?_, ((judgeAt_judged s k m.val).trans judged).otherBlocks⟩
    · rw [watchBody_fired, before]
      rfl
    · rw [entries, judgeAt_get, if_neg other]
      simp [other, WatchEntry.hits]
  · obtain ⟨rfl, rfl, rfl⟩ := couple_members isEven isOdd member
    intro t matching new rises
    obtain ⟨state, pair⟩ := pairAt_eq s k m.val
    have acted : Acted ev (oddOf k) (some (evenOf k)) s.wt.pairs[coupleOf k] new (s.judgePair k m.val) t := by
      rw [show new = _ from pair.symm]
      exact evalEntry_paired enabled chain carried valid
    obtain ⟨entries, pairs, others, holds, reports, captures, withdraws, calm, stays, judged⟩ := acted
    have defs (j : Fin 8) : (s.judgePair k m.val).wt.entries[j].d = s.wt.entries[j].d := judgeAt_defs s k j m.val
    have hit (j : Fin 8) : (s.judgePair k m.val).wt.entries[j].hit = s.wt.entries[j].hit := judgeAt_hit s k j m.val
    have last (j : Fin 8) : t.wt.entries[j].last = (s.judgePair k m.val).wt.entries[j].last := by rw [entries]; rfl
    rw [defs] at holds reports captures withdraws calm
    refine ⟨?_, ?_, fun j => ⟨?_, ?_, ?_⟩, fun up hold => holds up.1 up.2 hold,
      fun up report p => (reports up.1 up.2 report p).trans ?_,
      fun up capture empty => ⟨_, captures up.1 up.2 capture empty, rfl, ?_, rfl⟩, fun was is hold => withdraws was is hold,
      stays, others, fun j other => ?_, ((judgePair_judged s k m.val).trans judged).otherBlocks⟩
    · rw [last]
      exact congrArg WatchEntry.last ((judgeAt_get s k k m.val).trans (if_pos rfl))
    · rw [pairs]
      exact ((Wt.setPair_get _ k _ _).trans (if_pos rfl)).trans pair
    · rw [entries]
      exact defs j
    · rw [entries]
      exact state j
    · have either : (j = oddOf k ∨ some (evenOf k) = some j) ↔ (j = evenOf k ∨ j = oddOf k) := by
        rw [Option.some.injEq, or_comm, eq_comm]
      rw [entries, WatchEntry.hits, hit]
      simp only [either, rises, Bool.decide_and, Bool.decide_eq_true, Bool.decide_eq_false]
    · rw [watchBody_fired, defs, ← last]
      rfl
    · rw [last, Wt.captureOf, Wt.setHits_get]
      rfl
    · rw [pairs]
      exact (Wt.setPair_get _ k _ _).trans (if_neg other)
  · exact congrArg (fun vals => watchEvaluate .poseUpdate vals (s.setWt { s.wt with pose := p })) (poseVals_eq p)
  · subst weighed result
    unfold wtLift
    dsimp only
    rw [if_neg (fun begun => nomatch begun.2)]
    rfl
  · rintro rfl rfl
    intro ofLift pairOfLift
    have reset := wtLift_gripped tag mass s
    refine ⟨reset.entry, reset.pair, fun k => ⟨fun ended hold => ?_, fun kept => ?_⟩, reset.rest,
      (setWt_quiet _ _ _).after reset.queued, reset.judged.otherBlocks⟩
    · exact (reset.watch k).trans (if_pos ⟨(Wt.ends_all _ k).2 ended, hold⟩)
    · refine (reset.watch k).trans (if_neg fun ⟨ended, hold⟩ => ?_)
      exact kept.elim (fun not => not ((Wt.ends_all _ k).1 ended)) (fun other => other hold)

end Sys2Proof.Machine
end

section
/-! PROOFS. The effective capacity, the utilisation and the monitor state (R145, R146): O49. -/

namespace Sys2Proof.Machine

/-! ### The utilisation (R145) -/

/-- The ceiling of a quotient is the least integer that covers it (R5). -/
theorem ceilDiv_le_iff (a n : Int) {b : Nat} (pos : 0 < b) : ceilDiv a b ≤ n ↔ a ≤ n * b := by
  have least := Int.le_ediv_iff_mul_le (a := -n) (b := -a) (c := b) (by exact_mod_cast pos)
  unfold ceilDiv
  rw [Int.neg_mul] at least
  omega

section loaded
variable {m : Int} {c : Nat} (mass : 0 < m) (cap : 0 < c)
include mass cap

/-- Below its limit of 9,999, U is the least whole number of per mille that covers the live mass (R145). -/
theorem utilisation_le_iff {n : Nat} (below : n < 9999) : utilisation m c ≤ n ↔ m * 1000 ≤ (n : Int) * c := by
  have least := ceilDiv_le_iff (m * 1000) n cap
  unfold utilisation
  rw [if_neg (by omega), if_neg (by omega)]
  omega

theorem utilisation_covers (within : m * 1000 ≤ 9999 * c) : m * 1000 ≤ (utilisation m c : Int) * c := by
  obtain below | limit := (utilisation_le m c).lt_or_eq
  · exact (utilisation_le_iff mass cap below).1 le_rfl
  · rw [limit]
    exact within

/-- One per mille less does not cover the live mass. -/
theorem utilisation_least : ((utilisation m c : Int) - 1) * c < m * 1000 := by
  have limit := utilisation_le m c
  cases used : utilisation m c with
  | zero => omega
  | succ n =>
    have short : ¬m * 1000 ≤ (n : Int) * c := fun covers =>
      absurd ((utilisation_le_iff mass cap (by omega)).2 covers) (by omega)
    rw [Nat.cast_succ, add_sub_cancel_right]
    exact lt_of_not_ge short

theorem utilisation_saturates (beyond : 9999 * (c : Int) < m * 1000) : utilisation m c = 9999 := by
  refine (utilisation_le m c).eq_of_not_lt fun below => ?_
  have covers := (utilisation_le_iff mass cap below).1 le_rfl
  have larger : (utilisation m c : Int) * c ≤ 9999 * c := by gcongr; omega
  omega

end loaded

/-! ### The monitor state (R146) -/

section levels
variable {c : CapParams}

theorem nextMonitor_clear {before : Monitor} (clear : before = .normal ∨ before = .blind) (u : Nat) :
    nextMonitor c before u = if c.uHold ≤ u then .hold else if c.uWarn ≤ u then .warn else .normal := by
  obtain rfl | rfl := clear <;> rfl

theorem nextMonitor_warn (u : Nat) :
    nextMonitor c .warn u = if c.uHold ≤ u then .hold else if u + 50 < c.uWarn then .normal else .warn := by
  simp only [nextMonitor, Nat.lt_sub_iff_add_lt]

theorem nextMonitor_hold (u : Nat) :
    nextMonitor c .hold u = if u + 50 < c.uWarn then .normal else if u ≤ c.uRel then .warn else .hold := by
  simp only [nextMonitor, Nat.lt_sub_iff_add_lt]

/-- HOLD is left at or below U_rel, or 50 below U_warn, alone. -/
theorem nextMonitor_leavesHold_iff (u : Nat) : nextMonitor c .hold u ≠ .hold ↔ (u ≤ c.uRel ∨ u + 50 < c.uWarn) := by
  rw [nextMonitor_hold]
  split
  · simp [*]
  · split <;> simp [*]

theorem nextMonitor_ne_blind (before : Monitor) (u : Nat) : nextMonitor c before u ≠ .blind := by
  cases before
  case normal | blind =>
    rw [nextMonitor_clear (by decide)]
    split <;> [skip; split] <;> decide
  case warn =>
    rw [nextMonitor_warn]
    split <;> [skip; split] <;> decide
  case hold =>
    rw [nextMonitor_hold]
    split <;> [skip; split] <;> decide

variable (warned : c.uWarn ≤ c.uHold)
include warned

/-- U_hold gives HOLD whatever the state was: U_rel and U_warn lie at or below it (R148). -/
theorem nextMonitor_atHold (released : c.uRel + 10 ≤ c.uHold) (before : Monitor) {u : Nat} (high : c.uHold ≤ u) :
    nextMonitor c before u = .hold := by
  cases before
  case normal | blind => rw [nextMonitor_clear (by decide), if_pos high]
  case warn => rw [nextMonitor_warn, if_pos high]
  case hold => rw [nextMonitor_hold, if_neg (by omega), if_neg (by omega)]

/-- More than 50 below U_warn gives NORMAL whatever the state was. -/
theorem nextMonitor_low (before : Monitor) {u : Nat} (low : u + 50 < c.uWarn) : nextMonitor c before u = .normal := by
  cases before
  case normal | blind => rw [nextMonitor_clear (by decide), if_neg (by omega), if_neg (by omega)]
  case warn => rw [nextMonitor_warn, if_neg (by omega), if_pos low]
  case hold => rw [nextMonitor_hold, if_pos low]

end levels

/-- Settles O49: U by the ceiling of R145 (`utilisation_le_iff`), the monitor state by the table of R146. -/
theorem utilisationAndLevels : Obligations.UtilisationAndLevels := by
  refine ⟨fun m c => ⟨fun none => if_pos none, fun mass empty => ?_, fun mass cap within =>
    ⟨utilisation_covers mass cap within, utilisation_least mass cap⟩, utilisation_saturates⟩,
    fun c before u warned released => ⟨nextMonitor_atHold warned released before, nextMonitor_low warned before,
      nextMonitor_leavesHold_iff u, fun clear => ?_, fun near below => ?_, fun near low => ?_, nextMonitor_ne_blind before u⟩,
    fun c f => ⟨Nat.div_mul_le_self _ _, Nat.lt_mul_of_div_lt (Nat.lt_succ_self _) (by decide)⟩⟩
  · exact (if_neg (by omega)).trans (if_pos empty)
  · rw [nextMonitor_clear clear]
    exact ⟨fun low => by rw [if_neg (by omega), if_neg (by omega)], fun warn below => by rw [if_neg (by omega), if_pos warn]⟩
  · rw [nextMonitor_warn, if_neg (by omega), if_neg (by omega)]
  · rw [nextMonitor_hold, if_neg (by omega), if_pos low]

end Sys2Proof.Machine
end

section
/-! PROOFS. PERMIT, its expiry, CHART_WRITE and OVERRIDE_SET (R138, R139, R150, R152, R153): O50 and O51. -/

namespace Sys2Proof.Machine

/-! ### PERMIT (R152) -/

section permit
variable (p : Port) (body : List Byte) {s : State}

theorem servePermit_busy (runs : s.cpm.permit.isSome = true) : servePermit p body s = (.refuse .busy, s) :=
  if_pos runs

theorem servePermit_outOfHold (free : s.cpm.permit = none) (out : s.cpm.monitor ≠ .hold) :
    servePermit p body s = (.refuse .wrongState, s) := by
  unfold servePermit
  rw [free, if_neg (by decide), if_pos out]

theorem servePermit_overloaded (free : s.cpm.permit = none) (hold : s.cpm.monitor = .hold)
    (high : 1200 ≤ s.cpm.u) : servePermit p body s = (.refuse .wrongState, s) := by
  unfold servePermit
  rw [free, if_neg (by decide), if_neg (not_not.2 hold), if_pos high]

theorem servePermit_starts (free : s.cpm.permit = none) (hold : s.cpm.monitor = .hold) (low : s.cpm.u < 1200) :
    servePermit p body s = (.ok (be1 s.cfg.cap.permitS), startPermit s) := by
  unfold servePermit
  rw [free, if_neg (by decide), if_neg (not_not.2 hold), if_neg (Nat.not_le.2 low)]

end permit

/-- In HOLD, CAP asks for LOWER but while a permit runs (R150). -/
theorem Cpm.mask_hold {c : Cpm} (hold : c.monitor = .hold) :
    c.mask = if c.permit.isSome = true then 0b100011#6 else 0b100111#6 := by
  unfold Cpm.mask
  rw [hold]
  cases c.permit <;> rfl

theorem presentCap_changed {old new : Cpm} (change : old.mask ≠ new.mask) (s : State) :
    presentCap old new s = present .cap new.mask s := if_pos change

/-- A permit that starts in HOLD changes the mask, so it is presented (R152). -/
theorem startPermit_presents {s : State} (free : s.cpm.permit = none) (hold : s.cpm.monitor = .hold) :
    startPermit s = present .cap 0b100011#6 (s.setCpm { s.cpm with permit := some (s.now + s.cfg.cap.permitS * 1000) }) := by
  have asked : s.cpm.mask = 0b100111#6 := by rw [Cpm.mask_hold hold, free]; rfl
  have given : Cpm.mask { s.cpm with permit := some (s.now + s.cfg.cap.permitS * 1000) } = 0b100011#6 := Cpm.mask_hold hold
  refine (presentCap_changed (by rw [asked, given]; decide) _).trans ?_
  rw [given]

/-! ### The expiry of a permit (R153) -/

theorem presentCap_sameBehindLines (old new : Cpm) (s : State) : SameBehindLines s (presentCap old new s) :=
  rel_ite (present_sameBehindLines _ _ s) (.refl s)

/-- The expiry queues PERMIT_END EXPIRED, before or after the HOLD_CHANGE reports of CAP's new mask. -/
theorem expirePermit_queued (s : State) : Queued [.permitEnd] [(.permitEnd, [0x00#8])] s (expirePermit s) := by
  obtain ⟨u, before, after⟩ := runAny_around (Queued [.permitEnd] []) (.refl _) (fun _ _ _ => .after)
    (fun _ _ => .same fun _ => ⟨rfl, rfl, rfl⟩) (f := fun s => s.queueReport .permitEnd (be1 PermitCause.expired.num))
    (rest := [presentCap s.cpm { s.cpm with permit := none }]) (.refl _)
    (fun f hf u => by
      rw [List.mem_singleton.1 hf]
      exact rel_ite (present_quiet (by decide) _ _ u) (.refl _ u)) (s.setCpm { s.cpm with permit := none })
  exact (setCpm_quiet _ s _).after ((before.after (queueReport_queued [.permitEnd] .permitEnd [0x00#8] u)).before after)

/-- Beside CPM, an expiry changes the hold lines and the ports alone. -/
theorem expirePermit_sameBehindLines (s : State) :
    SameBehindLines (s.setCpm { s.cpm with permit := none }) (expirePermit s) := by
  refine runAny_rel SameBehindLines .refl (fun _ _ _ => .trans) (fun _ _ => ⟨rfl, rfl⟩) (fun f hf u => ?_) _
  simp only [List.mem_cons, List.not_mem_nil, or_false] at hf
  rcases hf with rfl | rfl
  · exact queueReport_sameBehindLines u _ _
  · exact presentCap_sameBehindLines _ _ u

theorem permitExpiry_due {s : State} {d : Nat} (runs : s.cpm.permit = some d) (due : d ≤ s.now) : permitExpiry s = expirePermit s := by
  unfold permitExpiry
  rw [runs]
  exact if_pos due

/-- Settles O50: PERMIT by the rows of R152 (`servePermit_busy` to `servePermit_starts`), and the expiry in HOLD, where CAP's mask goes
with the permit (`Cpm.mask_hold`). -/
theorem permitRules : Obligations.PermitRules := by
  refine ⟨fun p s h => ⟨fun runs => exec_refused (r := .permit) h (servePermit_busy p [] runs),
    fun free out => exec_refused (r := .permit) h (servePermit_outOfHold p [] free out),
    fun free hold high => exec_refused (r := .permit) h (servePermit_overloaded p [] free hold high),
    fun free hold low => ?_⟩, fun d s on held runs due => ?_⟩
  · have starts := servePermit_starts p [] (s := s.heard p) free hold low
    rw [startPermit_presents (s := s.heard p) free hold] at starts
    exact exec_taken (r := .permit) h starts
  · have hold : s.cpm.monitor = .hold := held.2 (by rw [runs]; rfl)
    obtain ⟨-, rest⟩ := expirePermit_sameBehindLines s
    have presents := ((expirePermit_capKept s).held held).1
    refine ⟨_, expirePermit s, (completes_powered on).trans (by rw [permitExpiry_due runs due]), rfl, expirePermit_queued s, ?_⟩
    simp only [pump_cpm, pump_hls, pump_sbc, pump_pos, pump_wge, pump_tlu, pump_wt, pump_stc]
    rw [presents, rest]
    exact ⟨rfl, Cpm.mask_hold (c := { s.cpm with permit := none }) hold, rfl, rfl, rfl, rfl, rfl, rfl⟩

/-! ### CHART_WRITE (R139) -/

theorem chartWritten_getElem (body : List Byte) (chart : Vector ChartEntry 64) (k : Fin 64) :
    (chartWritten body chart)[k] = if natAt body 0 1 ≤ k.val ∧ k.val < natAt body 0 1 + natAt body 1 1 then
      chartEntryAt body (k.val - natAt body 0 1) else chart[k] := by
  simp [chartWritten]

section chart
variable (p : Port) {body : List Byte} {s : State} (run : runAllowed (natAt body 0 1) (natAt body 1 1) = true)
include run

theorem serveChartWrite_busy (busy : s.committing = true) : serveChartWrite p body s = (.refuse .busy, s) := by
  unfold serveChartWrite
  rw [busy, run]
  rfl

theorem serveChartWrite_takes (idle : s.committing = false) : serveChartWrite p body s =
      (.ok [], cpmEvaluate (s.setCfg { s.cfg with cap := { s.cfg.cap with chart := chartWritten body s.cfg.cap.chart } })) := by
  unfold serveChartWrite
  rw [idle, run]
  rfl

end chart

/-! ### OVERRIDE_SET (R138) -/

section override
variable (slot page hi lo en : Byte)

theorem overrideOf_outside (outside : 3 ≤ slot.toNat ∨ 64 ≤ page.toNat) : overrideOf [slot, page, hi, lo, en] = none := by
  have first : natAt [slot, page, hi, lo, en] 0 1 = slot.toNat := by simp [natAt, beNat]
  have second : natAt [slot, page, hi, lo, en] 1 1 = page.toNat := by simp [natAt, beNat]
  unfold overrideOf
  rw [first, second]
  obtain slots | pages := outside
  · exact dif_neg (Nat.not_lt.2 slots)
  · have off : ¬page.toNat ≤ 63 := Nat.not_le.2 pages
    simp only [off, if_false, dite_eq_ite, ite_self]

theorem overrideOf_inside {i : Fin 3} (names : slot.toNat = i.val) (chart : page.toNat ≤ 63) :
    overrideOf [slot, page, hi, lo, en] =
      some (i, { page := page.toNat, value := hi.toNat * 256 + lo.toNat, enable := en.getLsbD 0 }) := by
  simp [overrideOf, natAt, beNat, byteAt, names, chart]

end override

/-- Settles O51: the chart by its entries (`chartWritten_getElem`), the override by its fields (`overrideOf_inside`). -/
theorem chartAndOverrideWrites : Obligations.ChartAndOverrideWrites := by
  refine ⟨fun p body s h run => ⟨fun busy => exec_refused (r := .chartWrite) h (serveChartWrite_busy p run busy), fun idle => ?_⟩,
    fun p slot page hi lo en s h => ⟨fun outside => exec_refused (r := .overrideSet) h ?_, fun i names chart => ?_⟩⟩
  · exact ⟨exec_taken (r := .chartWrite) h (serveChartWrite_takes p (s := s.heard p) run idle), chartWritten_getElem body _⟩
  · simp only [serve, serveOverrideSet, overrideOf_outside slot page hi lo en outside]
  · refine exec_taken (r := .overrideSet) h ?_
    simp only [serve, serveOverrideSet, overrideOf_inside slot page hi lo en names chart]
    rfl

end Sys2Proof.Machine
end

section
/-! PROOFS. What no event and no request outside STC changes of STC (R148, R192, R201 to R204): the ground of O14. -/

namespace Sys2Proof.Machine

/-! ### What has no part in STC -/

/-- Operating state, settings, image and COMMIT are as they were. -/
def StcUntouched (s t : State) : Prop := t.stc = s.stc

theorem StcUntouched.portFree : PortFree StcUntouched where
  refl _ := rfl
  trans h k := Eq.trans k h
  mpt _ _ := rfl
  sched _ _ := rfl

theorem StcUntouched.refl (s : State) : StcUntouched s s := rfl

theorem StcUntouched.trans {s t u : State} (h : StcUntouched s t) (k : StcUntouched t u) : StcUntouched s u := Eq.trans k h

theorem Delivered.stcUntouched {s t : State} (h : Delivered s t) : StcUntouched s t := h.stc
theorem HandedOn.stcUntouched {s t : State} (h : HandedOn s t) : StcUntouched s t := h.stc
theorem OnlyBus.stcUntouched {s t : State} (h : OnlyBus s t) : StcUntouched s t := h.stc
theorem Judged.stcUntouched {s t : State} (h : Judged s t) : StcUntouched s t := by
  unfold StcUntouched
  rw [h.rest]

theorem present_stcUntouched (src : HoldSource) (mask : LineMask) (s : State) : StcUntouched s (present src mask s) :=
  (present_judged src mask s).stcUntouched

/-! ### Polls, the bus and its timers (R19 to R37) -/

theorem afterAttempt_stcUntouched (ok : Bool) (s : State) : StcUntouched s (afterAttempt ok s) := rel_ite rfl (rel_ite rfl rfl)

theorem pollDone_stcUntouched (t : Txn) (r : Role) (obs : PollObs) {after : Bool → PollOutcome → State → State}
    (h : ∀ b o s, StcUntouched s (after b o s)) (s : State) : StcUntouched s (pollDone t r obs after s) := by
  have freed (b : Sbc) : StcUntouched s (s.setSbc b) := rfl
  have applied (e : Entry) (u : State) : StcUntouched u (applyPoll e t.stretched obs u) := (applyPoll_stc e t.stretched obs u).1
  unfold pollDone
  split
  · exact rel_ite ((freed _).trans (applied _ _)) ((freed _).trans ((applied _ _).trans (h _ _ _)))
  · exact (freed _).trans (h _ _ _)

theorem pollTransactionDone_stcUntouched (obs : PollObs) (s : State) : StcUntouched s (pollTransactionDone obs s) := by
  unfold pollTransactionDone
  split
  · split
    · exact pollDone_stcUntouched _ _ _ (fun _ _ u => (afterTransaction_onlyBus _ u).stcUntouched) s
    · exact pollDone_stcUntouched _ _ _ (fun _ _ u => afterAttempt_stcUntouched _ u) s
    · rfl
  · rfl

theorem passthroughDone_stcUntouched (obs : PassObs) (s : State) : StcUntouched s (passthroughDone obs s) := by
  have freed (b : Sbc) (result : List Byte) : StcUntouched s ((s.setSbc b).finishWork .sensorPass result) := rfl
  unfold passthroughDone
  split
  · exact rel_ite ((freed _ _).trans (afterTransaction_onlyBus _ _).stcUntouched) rfl
  · rfl

theorem sensorStale_stcUntouched (r : Role) (s : State) : StcUntouched s (sensorStale r s) := by
  have marked (e : Entry) (b : Sbc) : StcUntouched s (reportEntry e (s.setSbc b)) := rfl
  unfold sensorStale
  split
  · exact rel_ite ((marked _ _).trans (deliverStale_delivered _ _).stcUntouched) rfl
  · rfl

theorem roundTimerExpiry_stcUntouched (s : State) : StcUntouched s (roundTimerExpiry s) := by
  unfold roundTimerExpiry
  split
  · exact rel_ite rfl rfl
  · rfl

theorem stretchTimeout_stcUntouched (s : State) : StcUntouched s (stretchTimeout s) := by
  unfold stretchTimeout
  split <;> rfl

theorem busFreePulseEnd_stcUntouched (s : State) : StcUntouched s (busFreePulseEnd s) := by
  unfold busFreePulseEnd
  split
  · exact rel_ite rfl rfl
  · rfl
  · rfl

theorem recoveryWaitEnd_stcUntouched (dataHigh : Bool) (s : State) : StcUntouched s (recoveryWaitEnd dataHigh s) := by
  unfold recoveryWaitEnd
  split
  · exact rel_ite (rel_ite rfl (busStuck_onlyBus s).stcUntouched) rfl
  · rfl
  · rfl

theorem recoveryAttempt_stcUntouched (s : State) : StcUntouched s (recoveryAttempt s) := by
  unfold recoveryAttempt
  split
  · exact rel_ite (rel_ite rfl rfl) rfl
  · rfl

theorem attemptWaitEnd_stcUntouched (dataHigh : Bool) (s : State) : StcUntouched s (attemptWaitEnd dataHigh s) := by
  unfold attemptWaitEnd
  split
  · refine rel_ite (rel_ite ?_ rfl) rfl
    split <;> rfl
  · rfl
  · rfl

/-! ### The other timers (R101, R153, R185, R215) -/

theorem tareTimeout_stcUntouched (s : State) : StcUntouched s (tareTimeout s) := by
  unfold tareTimeout
  split
  · exact rel_ite (endTare_stc _ s) rfl
  · rfl

theorem permitExpiry_stcUntouched (s : State) : StcUntouched s (permitExpiry s) := by
  unfold permitExpiry
  split
  · exact rel_ite (expirePermit_handedOn s).stcUntouched rfl
  · rfl

theorem senseExpiry_stcUntouched (levels : LineMask) (s : State) : StcUntouched s (senseExpiry levels s) := by
  have taken (u : State) (h : Hls) : StcUntouched u (u.setHls h) := rfl
  have sampled (u : State) : StcUntouched u (sense levels u) :=
    (taken u _).trans ((queueAll_handedOn _ _ _).stcUntouched.trans (rel_ite (present_stcUntouched _ _ _) (.refl _)))
  exact rel_ite (sampled _) rfl

theorem discardExpiry_stcUntouched (i : Fin 4) (s : State) : StcUntouched s (discardExpiry i s) := by
  unfold discardExpiry
  split
  · exact rel_ite rfl rfl
  · rfl

/-! ### Requests to the other blocks -/

section owners
variable (p : Port) (body : List Byte) (s : State)

theorem servePollWrite_stcUntouched : StcUntouched s (servePollWrite p body s).2 := by
  unfold servePollWrite
  have judged := StcUntouched.portFree.eitherRefusal (if s.committing then some .busy else none)
    (pollRefusal (pollDefsOf body)) s
  dsimp only
  split
  · next e =>
    rw [e] at judged
    exact judged
  · next e =>
    rw [e] at judged
    exact judged.trans (takePollWrite_besideStale _ _).2.1

theorem serveSensorPass_stcUntouched : StcUntouched s (serveSensorPass p body s).2 := by
  refine StcUntouched.portFree.serveDelayed _ _ _ (fun _ u => StcUntouched.portFree.eitherRefusal _ _ u) (fun u => ?_) s
  cases passOf body with
  | none => rfl
  | some x =>
    have waits : StcUntouched u (u.setSbc { u.sbc with pass := some x }) := rfl
    exact waits.trans (rel_ite (endWaitingPass_onlyBus _ _).stcUntouched rfl)

theorem serveBusRestart_stcUntouched : StcUntouched s (serveBusRestart p body s).2 := by
  unfold serveBusRestart
  split
  · split <;> rfl
  · split <;> rfl
  · rfl
  · rfl

theorem serveSetAssortment_stcUntouched : StcUntouched s (serveSetAssortment p body s).2 := by
  unfold serveSetAssortment
  dsimp only
  split <;> rfl

theorem serveVoidLift_stcUntouched : StcUntouched s (serveVoidLift p body s).2 := by
  unfold serveVoidLift
  split
  · rfl
  · exact (handBunkTotal_handedOn _ _).stcUntouched

theorem serveAssignLift_stcUntouched : StcUntouched s (serveAssignLift p body s).2 := by
  have assigned (t : Tlu) : StcUntouched s (s.setTlu t) := rfl
  unfold serveAssignLift
  split
  · rfl
  · exact ((assigned _).trans (rel_ite (reportTripClosed_handedOn _ _).stcUntouched rfl)).trans
      (handBunkTotal_handedOn _ _).stcUntouched

theorem serveTripClose_stcUntouched : StcUntouched s (serveTripClose p body s).2 := by
  have closed : StcUntouched s (s.setTlu s.tlu.closeOrdered) := rfl
  unfold serveTripClose
  split
  · exact closed.trans ((reportTripClosed_handedOn _ _).stcUntouched.trans (handBunkTotal_handedOn _ _).stcUntouched)
  · rfl

theorem serveTare_stcUntouched : StcUntouched s (serveTare p body s).2 := by
  have begun (u : State) : StcUntouched u (startTare p u) := rfl
  exact StcUntouched.portFree.serveDelayed p .tare body (fun _ u => .refl u)
    (fun u => rel_ite ((begun u).trans (endTare_stc _ _)) (begun u)) s

theorem serveCalSpan_stcUntouched : StcUntouched s (serveCalSpan p body s).2 := by
  have begun (mref : Nat) (u : State) : StcUntouched u (startCal mref u) := rfl
  exact StcUntouched.portFree.serveDelayed p .calSpan body (fun _ u => .refl u)
    (fun u => rel_ite ((begun _ u).trans (endCal_stc _ _)) (begun _ u)) s

theorem serveOverrideSet_stcUntouched : StcUntouched s (serveOverrideSet p body s).2 := by
  unfold serveOverrideSet
  split
  · next i o _ => exact (cpmTake_handedOn (fun c => { c with overrides := c.overrides.set i o }) s).stcUntouched
  · rfl

theorem servePermit_stcUntouched : StcUntouched s (servePermit p body s).2 := by
  unfold servePermit
  split
  · rfl
  · split
    · rfl
    · split
      · rfl
      · exact (startPermit_handedOn s).stcUntouched

theorem serveWatchWrite_stcUntouched : StcUntouched s (serveWatchWrite p body s).2 := by
  unfold serveWatchWrite
  split
  · rfl
  · split
    · rfl
    · split
      · rfl
      · exact (takeWatchWrite_handedOn _ _ s).stcUntouched

theorem serveCaptureRead_stcUntouched : StcUntouched s (serveCaptureRead p body s).2 := by
  unfold serveCaptureRead
  split <;> rfl

theorem serveHoldManual_stcUntouched : StcUntouched s (serveHoldManual p body s).2 := by
  unfold serveHoldManual
  split
  · exact present_stcUntouched _ _ s
  · rfl

theorem serveLineFaultClear_stcUntouched : StcUntouched s (serveLineFaultClear p body s).2 := by
  have cleared (h : Hls) : StcUntouched s (s.setHls h) := rfl
  unfold serveLineFaultClear
  split
  · exact (cleared _).trans (rel_ite (present_stcUntouched _ _ _) rfl)
  · rfl

theorem serveReportEnable_stcUntouched : StcUntouched s (serveReportEnable p body s).2 := by
  unfold serveReportEnable
  dsimp only
  split <;> rfl

/-- The requests that STC takes, with the one that writes the chart. -/
def Req.ofStc : Req → Bool
  | .chartWrite | .paramWrite | .features | .enterService | .leaveService | .standby | .commit | .restart => true
  | _ => false

/-- Every other request leaves STC as it was (R207, row 8). -/
theorem serve_stcUntouched {r : Req} (h : r.ofStc = false) : StcUntouched s (serve r p body s).2 := by
  cases r
  case chartWrite | paramWrite | features | enterService | leaveService | standby | commit | restart => cases h
  case pose | sensors | pollRead | tallyRead | logRead | tripRead | chartRead | watchRead | linesRead | paramRead =>
    rw [serve_reads rfl]
    exact .refl s
  case status | defineAssortment | deleteAssortment | totalsReset | hitClear => rfl
  case pollWrite => exact servePollWrite_stcUntouched p body s
  case sensorPass => exact serveSensorPass_stcUntouched p body s
  case busRestart => exact serveBusRestart_stcUntouched p body s
  case setAssortment => exact serveSetAssortment_stcUntouched p body s
  case voidLift => exact serveVoidLift_stcUntouched p body s
  case assignLift => exact serveAssignLift_stcUntouched p body s
  case tripClose => exact serveTripClose_stcUntouched p body s
  case tare => exact serveTare_stcUntouched p body s
  case calSpan => exact serveCalSpan_stcUntouched p body s
  case overrideSet => exact serveOverrideSet_stcUntouched p body s
  case permit => exact servePermit_stcUntouched p body s
  case watchWrite => exact serveWatchWrite_stcUntouched p body s
  case captureRead => exact serveCaptureRead_stcUntouched p body s
  case holdManual => exact serveHoldManual_stcUntouched p body s
  case lineFaultClear => exact serveLineFaultClear_stcUntouched p body s
  case reportEnable => exact serveReportEnable_stcUntouched p body s

end owners

end Sys2Proof.Machine
end

section
/-! PROOFS. The order of the levels and of the window parameters through every command and every step (R148, R192 to R195, R201 to
R204): O14. -/

namespace Sys2Proof.Machine

/-! ### The order, block by block (R148, R201) -/

/-- The levels are in order, and the page size is one of its three values (R148, R201). -/
def LevelsOrdered (c : CapParams) : Prop :=
  600 ≤ c.uHold ∧ c.uWarn ≤ c.uHold ∧ c.uRel + 10 ≤ c.uHold ∧ (c.pageSize = 125 ∨ c.pageSize = 250 ∨ c.pageSize = 500)

/-- The window parameters are in order (R201). -/
def WindowOrdered (w : WeighParams) : Prop := 16 ≤ w.n ∧ w.nMin ≤ w.n

theorem settingsOrdered_iff (c : Settings) : SettingsOrdered c ↔ LevelsOrdered c.cap ∧ WindowOrdered c.weigh := by
  unfold SettingsOrdered LevelsOrdered WindowOrdered
  tauto

/-! ### A parameter written (R202) -/

section written
variable {c : Settings} (ordered : SettingsOrdered c)
include ordered

/-- In order, no range is empty: those that end at a working value begin below it. -/
theorem Param.range_le (q : Param) : (q.range c).1 ≤ (q.range c).2 := by
  obtain ⟨hold, -, -, n, -⟩ := ordered
  cases q
  case nMin | uWarn | uRel => simp only [Param.range]; omega
  all_goals norm_num [Param.range]

/-- The value taken lies in the parameter's range (R202). -/
theorem Param.taken_mem (q : Param) (v : Int) : (q.range c).1 ≤ q.taken c v ∧ q.taken c v ≤ (q.range c).2 :=
  ⟨le_max_left _ _, max_le (q.range_le ordered) (min_le_left _ _)⟩

/-- Stored with its companions, a value of the parameter's range leaves the settings in order: U_hold takes U_warn and U_rel along,
N takes N_min. -/
theorem storeAll_ordered {q : Param} {v : Int} (low : (q.range c).1 ≤ v) (high : v ≤ (q.range c).2)
    (page : q = .pageSize → v = 125 ∨ v = 250 ∨ v = 500) :
    SettingsOrdered (storeAll (q.companions c v) (q.store v.toNat c)) := by
  obtain ⟨hold, warn, rel, n, nMin, size⟩ := ordered
  cases q
  case uHold =>
    have low : (600 : Int) ≤ v := low
    unfold Param.companions
    by_cases belowWarn : v < c.cap.uWarn <;> by_cases belowRel : v - 10 < c.cap.uRel <;>
      simp only [belowWarn, belowRel, if_true, if_false, List.nil_append, List.cons_append, storeAll, List.foldl, Param.store,
        SettingsOrdered] <;> omega
  case n =>
    have low : (16 : Int) ≤ v := low
    unfold Param.companions
    by_cases below : v < c.weigh.nMin <;>
      simp only [below, if_true, if_false, storeAll, List.foldl, Param.store, SettingsOrdered] <;> omega
  case uWarn =>
    have high : v ≤ c.cap.uHold := high.trans (min_le_right _ _)
    exact ⟨hold, Int.toNat_le.2 high, rel, n, nMin, size⟩
  case uRel =>
    have high : v ≤ (c.cap.uHold : Int) - 10 := high
    have low : (500 : Int) ≤ v := low
    exact ⟨hold, warn, by change v.toNat + 10 ≤ c.cap.uHold; omega, n, nMin, size⟩
  case nMin =>
    have high : v ≤ c.weigh.n := high
    exact ⟨hold, warn, rel, n, Int.toNat_le.2 high, size⟩
  case pageSize =>
    refine ⟨hold, warn, rel, n, nMin, ?_⟩
    obtain rfl | rfl | rfl := page rfl <;> simp [storeAll, Param.companions, Param.store]
  all_goals exact ⟨hold, warn, rel, n, nMin, size⟩

end written

/-! ### What every operation keeps -/

/-- The order holds on from one state to another if it held. -/
def OrderKept (s t : State) : Prop := s.stc.ordered → t.stc.ordered

theorem StcUntouched.orderKept {s t : State} (h : StcUntouched s t) : OrderKept s t := fun ordered => h ▸ ordered

theorem OrderKept.refl (s : State) : OrderKept s s := id

theorem OrderKept.trans {s t u : State} (h : OrderKept s t) (k : OrderKept t u) : OrderKept s u := k ∘ h

theorem OrderKept.portFree : PortFree OrderKept where
  refl := .refl
  trans := .trans
  mpt _ _ := id
  sched _ _ := id

/-- New working settings keep the order if they are in order wherever the old ones were. -/
theorem setCfg_orderKept {s : State} {c : Settings} (h : SettingsOrdered s.cfg → SettingsOrdered c) : OrderKept s (s.setCfg c) :=
  fun ⟨working, image, commit⟩ => ⟨h working, image, commit⟩

theorem takeParam_orderKept (q : Param) {v : Int} (good : badPageSize q v = false) (s : State) :
    OrderKept s (takeParam q (q.taken s.cfg v) s) := by
  rintro ⟨working, image, commit⟩
  obtain ⟨low, high⟩ := q.taken_mem working v
  have page (size : q = .pageSize) : q.taken s.cfg v = 125 ∨ q.taken s.cfg v = 250 ∨ q.taken s.cfg v = 500 := by
    subst size
    obtain other | rfl | rfl | rfl := badPageSize_eq_false.1 good
    · exact absurd rfl other
    · exact .inl rfl
    · exact .inr (.inl rfl)
    · exact .inr (.inr rfl)
  have stored : SettingsOrdered (takeParam q (q.taken s.cfg v) s).cfg := by
    rw [takeParam_cfg]
    exact storeAll_ordered working low high page
  rw [takeParam_stc]
  exact ⟨stored, image, commit⟩

/-! ### The operating states and the starts (R192 to R195, R204) -/

/-- A change of the operating state changes nothing else of STC (R192). -/
theorem changeState_stc (new : OpState) (s : State) : (changeState new s).stc = { s.stc with op := new } := by
  refine StcUntouched.portFree.runAny (fun f hf u => ?_) (s.setStc { s.stc with op := new })
  rw [stateHandOvers_eq] at hf
  obtain rfl | hf := List.mem_cons.1 hf
  · rfl
  obtain rfl | rfl | rfl | rfl | rfl | rfl := mem_stateOthers hf
  · exact present_stcUntouched _ _ u
  · exact rel_ite rfl rfl
  · rfl
  · exact (cpmTake_handedOn _ u).stcUntouched
  · exact endCal_stc _ u
  · exact (endWaitingPass_onlyBus _ u).stcUntouched

theorem changeState_orderKept (new : OpState) (s : State) : OrderKept s (changeState new s) := by
  unfold OrderKept
  rw [changeState_stc]
  exact id

/-- Contents in order are installed in order, block by block (R194). -/
theorem install_orderKept (good : Bool) {c : ImageContents} (contents : SettingsOrdered c.settings) (s : State) :
    OrderKept s (install good c s) := by
  obtain ⟨cap, weigh⟩ := (settingsOrdered_iff _).1 contents
  have switches (w : Switches) : OrderKept s (s.setCfg { s.cfg with sw := w }) := setCfg_orderKept id
  have posed (u : State) (g : Geometry) (z : Zones) : OrderKept u (u.setCfg { u.cfg with geo := g, zones := z }) :=
    setCfg_orderKept id
  have weighed (u : State) : OrderKept u (u.setCfg { u.cfg with weigh := c.settings.weigh }) := setCfg_orderKept fun old =>
    (settingsOrdered_iff _).2 ⟨((settingsOrdered_iff _).1 old).1, weigh⟩
  have levelled (u : State) : OrderKept u (u.setCfg { u.cfg with cap := c.settings.cap }) := setCfg_orderKept fun old =>
    (settingsOrdered_iff _).2 ⟨cap, ((settingsOrdered_iff _).1 old).2⟩
  refine (switches _).trans (OrderKept.portFree.runAny (fun f hf u => ?_) _)
  simp only [List.mem_cons, List.not_mem_nil, or_false] at hf
  rcases hf with rfl | rfl | rfl | rfl | rfl
  · exact .refl u
  · exact (posed u _ _).trans (recompute_delivered _).stcUntouched.orderKept
  · exact (weighed u).trans (rel_ite (.refl _) (.refl _))
  · exact (levelled u).trans (cpmEvaluate_handedOn _).stcUntouched.orderKept
  · exact (makeEntries_handedOn _ u).stcUntouched.orderKept

/-- A good image's settings were in order when they were stored, and the defaults are (R194). -/
theorem preloadDone_orderKept (readFailed : Bool) (s : State) : OrderKept s (preloadDone readFailed s) := by
  refine rel_ite (fun ordered => ?_) (.refl s)
  have ⟨_, image, _⟩ := ordered
  have contents : SettingsOrdered (if s.stc.image.good readFailed = true then s.stc.image.contents else defaultContents).settings := by
    split
    · exact image
    · exact defaultSettings_ordered
  have marked (u : State) (a b d e : Bool) : OrderKept u
      (u.setStc { u.stc with preloading := a, settingsBad := b, imageBad := d, marker := e }) := id
  exact ((install_orderKept _ contents s).trans ((marked _ _ _ _ _).trans (changeState_orderKept _ _))) ordered

/-- A reset takes the working settings to the defaults, keeps the image and ends a COMMIT (R193, R203; notes/assumptions/24.md). -/
theorem afterReset_orderKept (warm : Bool) (s : State) : OrderKept s (afterReset warm s) :=
  fun ⟨_, image, _⟩ => ⟨defaultSettings_ordered, image, nofun⟩

theorem supplyLoss_orderKept (backupInterrupted : Bool) (s : State) : OrderKept s (supplyLoss backupInterrupted s) :=
  afterReset_orderKept true s

theorem restartDue_orderKept (p : Port) (f : Option OutFrame) (s : State) : OrderKept s (restartDue p f s) := by
  unfold restartDue
  split
  · exact rel_ite id id
  · exact id

theorem portBreak_orderKept (p : Port) (s : State) : OrderKept s (portBreak p s) := by
  have dropped (u : State) : OrderKept u (dropPass u) := rel_ite id id
  exact rel_ite (.refl s) ((OrderKept.portFree.mpt s _).trans ((rel_ite (dropped _) (.refl _)).trans (restartDue_orderKept _ _ _)))

/-! ### COMMIT (R203) -/

/-- A COMMIT collects the working settings. -/
theorem startCommit_orderKept (s : State) : OrderKept s (startCommit s) := by
  rintro ⟨working, image, -⟩
  refine ⟨working, image, fun x collected => ?_⟩
  cases collected
  exact working

/-- A COMMIT that ends well stores what it collected. -/
theorem commitEnd_orderKept (ok : Bool) (s : State) : OrderKept s (commitEnd ok s) := by
  rintro ⟨working, image, commit⟩
  unfold commitEnd
  split
  · next x collected =>
    split
    · exact ⟨working, commit x collected, nofun⟩
    · exact ⟨working, image, nofun⟩
  · exact ⟨working, image, commit⟩

/-! ### The requests -/

section owners
variable (p : Port) (body : List Byte) (s : State)

theorem serveChartWrite_orderKept : OrderKept s (serveChartWrite p body s).2 := by
  have charted (u : State) (t : Vector ChartEntry 64) :
      OrderKept u (u.setCfg { u.cfg with cap := { u.cfg.cap with chart := t } }) := setCfg_orderKept id
  unfold serveChartWrite
  have judged := OrderKept.portFree.eitherRefusal (if s.committing then some .busy else none)
    (if runAllowed (natAt body 0 1) (natAt body 1 1) then none else some .badField) s
  split
  · next e =>
    rw [e] at judged
    exact judged
  · next e =>
    rw [e] at judged
    exact judged.trans ((charted _ _).trans (cpmEvaluate_handedOn _).stcUntouched.orderKept)

theorem serveParamWrite_orderKept : OrderKept s (serveParamWrite p body s).2 := by
  unfold serveParamWrite
  split
  · exact .refl s
  · dsimp only
    split
    · exact .refl s
    · next good =>
      split
      · exact .refl s
      · exact takeParam_orderKept _ (Bool.eq_false_iff.2 good) s

theorem serveFeatures_orderKept : OrderKept s (serveFeatures p body s).2 := by
  have switched (w : Switches) : OrderKept s (takeSwitches w s) := by
    unfold OrderKept
    rw [(takeSwitches_taken w s).stc]
    exact id
  unfold serveFeatures
  split
  · exact .refl s
  · exact switched _

theorem serveEnterService_orderKept : OrderKept s (serveEnterService p body s).2 := by
  unfold serveEnterService
  split
  · exact .refl s
  · split
    · exact .refl s
    · exact changeState_orderKept _ s

theorem serveLeaveService_orderKept : OrderKept s (serveLeaveService p body s).2 := by
  unfold serveLeaveService
  split
  · exact .refl s
  · split
    · exact .refl s
    · exact changeState_orderKept _ s

theorem serveStandby_orderKept : OrderKept s (serveStandby p body s).2 := by
  unfold serveStandby
  split
  · exact .refl s
  · exact changeState_orderKept _ s

theorem serveCommit_orderKept : OrderKept s (serveCommit p body s).2 :=
  OrderKept.portFree.serveDelayed p .commit body (fun _ u => .refl u) startCommit_orderKept s

theorem serveRestart_orderKept : OrderKept s (serveRestart p body s).2 := by
  unfold serveRestart
  split <;> exact id

end owners

/-- What an owner makes of any request keeps the order (R207, row 8). -/
theorem serve_orderKept (r : Req) (p : Port) (body : List Byte) (s : State) : OrderKept s (serve r p body s).2 := by
  cases other : r.ofStc with
  | false => exact (serve_stcUntouched p body s other).orderKept
  | true =>
    cases r
    case chartWrite => exact serveChartWrite_orderKept p body s
    case paramWrite => exact serveParamWrite_orderKept p body s
    case features => exact serveFeatures_orderKept p body s
    case enterService => exact serveEnterService_orderKept p body s
    case leaveService => exact serveLeaveService_orderKept p body s
    case standby => exact serveStandby_orderKept p body s
    case commit => exact serveCommit_orderKept p body s
    case restart => exact serveRestart_orderKept p body s
    all_goals cases other

/-! ### Every command and every step -/

theorem exec_orderKept {c : Instr} {s t : State} (h : exec c s = .next t) : OrderKept s t := by
  have pf := OrderKept.portFree
  have wakes (u : State) : OrderKept u (wake u) := changeState_orderKept .run u
  have untouched : ∀ {f : State → State}, (∀ u, StcUntouched u (f u)) → completes f s = .next t → OrderKept s t :=
    fun hf h => pf.completes (fun u => (hf u).orderKept) h
  cases c
  case powerOn => cases h; exact afterReset_orderKept _ s
  case supplyLoss => cases h; exact supplyLoss_orderKept _ s
  case restartReset => exact pf.completes (fun u => rel_ite (afterReset_orderKept true u) (.refl u)) h
  case preloadDone => exact pf.completes (preloadDone_orderKept _) h
  case roundTimerExpiry => exact untouched roundTimerExpiry_stcUntouched h
  case pollTransactionDone => exact untouched (pollTransactionDone_stcUntouched _) h
  case stretchTimeout => exact untouched stretchTimeout_stcUntouched h
  case sensorStale => exact untouched (sensorStale_stcUntouched _) h
  case busFreePulseEnd => exact untouched busFreePulseEnd_stcUntouched h
  case recoveryWaitEnd => exact untouched (recoveryWaitEnd_stcUntouched _) h
  case recoveryAttempt => exact untouched recoveryAttempt_stcUntouched h
  case attemptWaitEnd => exact untouched (attemptWaitEnd_stcUntouched _) h
  case passthroughDone => exact untouched (passthroughDone_stcUntouched _) h
  case tareTimeout => exact untouched tareTimeout_stcUntouched h
  case permitExpiry => exact untouched permitExpiry_stcUntouched h
  case senseExpiry => exact untouched (senseExpiry_stcUntouched _) h
  case discardExpiry => exact untouched (discardExpiry_stcUntouched _) h
  case frameGapTimeout | lineReturnsToIdle => exact pf.completes (fun u => rel_ite (pf.mpt u _) (pf.refl u)) h
  case frameBadCheck | stopBitLow => exact pf.completes (fun u => pf.mpt u _) h
  case unknownKind | frameHeld | standbyWake => exact pf.completes (pf.takeAny serve_orderKept wakes _ _ _) h
  case heldFrameHandled => exact pf.completes (pf.heldFrame serve_orderKept wakes _) h
  case frameSent => exact pf.completes (fun u => (pf.mpt u _).trans (restartDue_orderKept _ _ _)) h
  case portBreak => exact pf.completes (portBreak_orderKept _) h
  case commitDone => exact pf.completes (commitEnd_orderKept _) h
  case byteArrival => exact pf.completes (pf.byteIn serve_orderKept wakes _ _) h
  all_goals exact pf.completes (pf.takeRequest serve_orderKept wakes _ _ _) h

theorem step_orderKept {s t : State} (h : step s = .next t) : OrderKept s t := by
  obtain ⟨c, rest, -, k⟩ | ⟨-, rfl⟩ := step_cases h
  · have waited : OrderKept s (s.setPending rest) := id
    exact waited.trans (exec_orderKept k)
  · exact rel_ite id id

/-- Settles O14: a parameter written takes its companions along (`storeAll_ordered`), what COMMIT stores and a start installs was in
order (`commitEnd_orderKept`, `preloadDone_orderKept`), and no other operation touches levels or window parameters. -/
theorem settingsStayOrdered : Obligations.SettingsStayOrdered := fun _ _ ordered h => step_orderKept h ordered

end Sys2Proof.Machine
end

section
/-! PROOFS. What each index of WT asks for, and how judging, making and writing entries keep the WATCH sources presenting it (R161 to
R166, R173, R176): the ground of O10. -/

namespace Sys2Proof.Machine

/-! ### The acting member of a couple (R165) -/

@[simp] theorem evenOf_oddOf (k : Fin 8) : evenOf (oddOf k) = evenOf k := by simp only [evenOf, oddOf, Fin.ext_iff]; omega
@[simp] theorem oddOf_oddOf (k : Fin 8) : oddOf (oddOf k) = oddOf k := by simp only [oddOf, Fin.ext_iff]; omega
@[simp] theorem coupleOf_oddOf (k : Fin 8) : coupleOf (oddOf k) = coupleOf k := by simp only [coupleOf, oddOf, Fin.ext_iff]; omega

theorem val_odd_iff (k : Fin 8) : k.val % 2 = 1 ↔ k = oddOf k := by
  simp only [oddOf, Fin.ext_iff]
  omega

/-! ### What an index asks for (R164, R166) -/

/-- The match state that index `k` acts for: its own, or its pair's where it is the pair's acting member (R164, R166). -/
def Wt.acts (w : Wt) (k : Fin 8) : Bool :=
  if w.chained k then w.pairs[coupleOf k] && decide (k = oddOf k) else w.entries[k].matching

/-- What an acting entry asks for as the match state it acts for is `is` (R164). -/
def holdAsked (d : WatchDef) (is : Bool) : LineMask := if is = true ∧ d.action = .hold then d.holdMask else 0#6

@[simp] theorem holdAsked_false (d : WatchDef) : holdAsked d false = 0#6 := if_neg (by simp)

theorem holdAsked_calm {d : WatchDef} (calm : d.action ≠ .hold) (is : Bool) : holdAsked d is = 0#6 := if_neg fun h => calm h.2

theorem Wt.request_eq (w : Wt) (k : Fin 8) : w.request k = holdAsked w.entries[k].d (w.acts k) := by
  unfold Wt.request holdAsked Wt.acts
  refine if_congr (and_congr_left' ?_) rfl rfl
  cases w.chained k <;> simp [val_odd_iff, and_comm]

theorem Wt.acts_unchained {w : Wt} {k : Fin 8} (alone : w.chained k = false) : w.acts k = w.entries[k].matching :=
  if_neg (by simp [alone])

theorem Wt.acts_chained {w : Wt} {k : Fin 8} (chained : w.chained k = true) :
    w.acts k = (w.pairs[coupleOf k] && decide (k = oddOf k)) := if_pos chained

theorem Wt.chained_oddOf (w : Wt) (k : Fin 8) : w.chained (oddOf k) = w.chained k := w.chained_couple (coupleOf_oddOf k)

theorem Wt.acts_oddOf {w : Wt} {k : Fin 8} (chained : w.chained k = true) : w.acts (oddOf k) = w.pairs[coupleOf k] := by
  rw [Wt.acts_chained ((w.chained_oddOf k).trans chained)]
  simp

/-- Definitions, match states and pairs are all that a request reads. -/
theorem Wt.request_congr {v w : Wt} (defs : ∀ j : Fin 8, v.entries[j].d = w.entries[j].d)
    (matching : ∀ j : Fin 8, v.entries[j].matching = w.entries[j].matching) (pairs : v.pairs = w.pairs) (k : Fin 8) :
    v.request k = w.request k := by
  rw [Wt.request_eq, Wt.request_eq, Wt.acts, Wt.acts, Wt.chained, Wt.chained, defs, defs, matching, pairs]

/-- Nothing is asked for where nothing matches. -/
theorem Wt.request_none {w : Wt} (matching : ∀ j : Fin 8, w.entries[j].matching = false)
    (pairs : ∀ c : Fin 4, w.pairs[c] = false) (k : Fin 8) : w.request k = 0#6 := by
  rw [Wt.request_eq, Wt.acts, matching, pairs]
  simp

section rejudged
variable (w : Wt) (k : Fin 8) {x : WatchEntry} (same : x.d = w.entries[k].d)
include same

theorem Wt.setEntry_chained (j : Fin 8) : (w.setEntry k x).chained j = w.chained j :=
  congrArg WatchDef.chain (w.setEntry_defs k same (evenOf j))

/-- An entry judged afresh changes what it acts for itself, and nothing of a pair before that is judged too. -/
theorem Wt.setEntry_acts (j : Fin 8) :
    (w.setEntry k x).acts j = if w.chained k = false ∧ j = k then x.matching else w.acts j := by
  rw [Wt.acts, w.setEntry_chained k same, Wt.setEntry_get]
  by_cases here : j = k
  · subst here
    cases chained : w.chained j with
    | false => simp
    | true => simp [Wt.acts_chained chained, Wt.setEntry]
  · simp only [here, and_false, if_false]
    rfl

end rejudged

/-- A pair judged afresh changes what its acting member acts for. -/
theorem Wt.setPair_acts (w : Wt) {k : Fin 8} (chained : w.chained k = true) (b : Bool) (j : Fin 8) :
    (w.setPair k b).acts j = if j = oddOf k then b else w.acts j := by
  have chains : (w.setPair k b).chained j = w.chained j := rfl
  rw [Wt.acts, chains, Wt.setPair_get]
  by_cases couple : coupleOf j = coupleOf k
  · rw [(w.chained_couple couple).trans chained, Wt.acts_chained ((w.chained_couple couple).trans chained), if_pos couple]
    have odd : decide (j = oddOf j) = decide (j = oddOf k) := by simp [eq_oddOf_iff j k, couple]
    rw [odd, if_pos rfl]
    by_cases here : j = oddOf k <;> simp [here]
  · have apart : j ≠ oddOf k := fun h => couple ((eq_oddOf_iff j k).1 h).1
    simp only [couple, apart, if_false]
    rfl

/-! ### A judgement (R161 to R166) -/

/-- The edge of an acting entry leaves every source presenting what its index asks for, if before it the acting entry's presented
what the old match state asked for. -/
theorem Acted.held {ev : SourceEvent} {k : Fin 8} {partner : Option (Fin 8)} {was is : Bool} {s t : State}
    (acted : Acted ev k partner was is s t) (others : ∀ j : Fin 8, j ≠ k → s.hls.masks.watch[j] = s.wt.request j)
    (own : s.hls.masks.watch[k] = holdAsked s.wt.entries[k].d was) (acts : s.wt.acts k = is) : t.watchHeld := by
  intro j
  have same : t.wt.request j = s.wt.request j :=
    Wt.request_congr (fun i => by rw [acted.entries]; rfl) (fun i => by rw [acted.entries]; rfl) acted.pairs j
  rw [same]
  by_cases other : j = k
  · subst other
    rw [Wt.request_eq, acts]
    by_cases hold : s.wt.entries[j].d.action = .hold
    · cases was <;> cases is
      case false.true => rw [acted.holds rfl rfl hold, holdAsked, if_pos ⟨rfl, hold⟩]
      case true.false => rw [acted.withdraws rfl rfl hold, holdAsked_false]
      all_goals rw [(acted.stays rfl).1, own]
    · rw [acted.calm hold, own, holdAsked_calm hold, holdAsked_calm hold]
  · rw [acted.others j other, others j other]

/-- An entry judged afresh, its definition as it was, and then its edge or its pair's. -/
theorem judgeEdge_held {s : State} (held : s.watchHeld) (ev : SourceEvent) (k : Fin 8) {x : WatchEntry}
    (same : x.d = s.wt.entries[k].d) :
    (judgeEdge ev k s.wt.entries[k].matching (s.setWt (s.wt.setEntry k x))).watchHeld := by
  have defs := s.wt.setEntry_defs k same
  have acts := s.wt.setEntry_acts k same
  have chains : (s.setWt (s.wt.setEntry k x)).wt.chained k = s.wt.chained k := s.wt.setEntry_chained k same k
  cases chained : s.wt.chained k with
  | false =>
    rw [judgeEdge_unchained (chains.trans chained)]
    refine (actOn_acted ev k none _ _ _).held (fun j other => ?_) ?_ (Wt.acts_unchained (chains.trans chained))
    · rw [State.setWt_hls, State.setWt_wt, held j, Wt.request_eq, Wt.request_eq, defs, acts, if_neg fun h => other h.2]
    · rw [State.setWt_hls, State.setWt_wt, held k, Wt.request_eq, defs, Wt.acts_unchained chained]
  | true =>
    rw [judgeEdge_chained (chains.trans chained), State.setWt_wt, State.setWt_setWt]
    generalize (s.wt.setEntry k x).bothMatch k = both
    have paired := Wt.setPair_acts (s.wt.setEntry k x) (chains.trans chained) both
    have kept (j : Fin 8) : (s.wt.setEntry k x).acts j = s.wt.acts j := (acts j).trans (if_neg fun h => by simp [chained] at h)
    have pair : (s.wt.setEntry k x).pairs = s.wt.pairs := rfl
    have entries : ((s.wt.setEntry k x).setPair k both).entries = (s.wt.setEntry k x).entries := rfl
    refine (actOn_acted ev (oddOf k) _ _ _ _).held (fun j other => ?_) ?_ ((paired _).trans (if_pos rfl))
    · rw [State.setWt_wt, State.setWt_hls, held j, Wt.request_eq, Wt.request_eq, paired, if_neg other, kept,
        entries, defs]
    · rw [State.setWt_wt, State.setWt_hls, held, Wt.request_eq, entries, defs, Wt.acts_oddOf chained, pair]

/-- An event at which WT judges one entry (R161). -/
theorem evalEntry_held {s : State} (held : s.watchHeld) (ev : SourceEvent) (vals : Quantity → Option Marked) (k : Fin 8) :
    (evalEntry ev vals s k).watchHeld := by
  cases enabled : s.wt.entries[k].d.enable with
  | false => rwa [evalEntry_disabled enabled]
  | true =>
    cases carried : vals s.wt.entries[k].d.quantity with
    | none => rwa [evalEntry_unconcerned carried]
    | some m =>
      cases valid : m.ok with
      | true =>
        rw [evalEntry_valid enabled carried valid]
        exact judgeEdge_held held ev k rfl
      | false =>
        have again : s.wt.setEntry k s.wt.entries[k] = s.wt := by simp [Wt.setEntry]
        have kept := judgeEdge_held held ev k (x := s.wt.entries[k]) rfl
        rw [evalEntry_enabled enabled carried, if_neg (by simp [valid])]
        rwa [again] at kept

/-- An index reset at OPEN to GRIPPED (R162). -/
theorem resetLiftMass_held {s : State} (held : s.watchHeld) (k : Fin 8) : (resetLiftMass s k).watchHeld := by
  unfold resetLiftMass
  dsimp only
  split
  · exact judgeEdge_held held .weighed k rfl
  · exact held

/-! ### The entries made (R176) -/

theorem presentNone_leaves (l : List (Fin 8)) (s : State) :
    (l.foldl (fun u k => present (.watch k) 0#6 u) s).wt = s.wt ∧
      ∀ j : Fin 8, (l.foldl (fun u k => present (.watch k) 0#6 u) s).hls.masks.watch[j] =
        if j ∈ l then 0#6 else s.hls.masks.watch[j] := by
  induction l generalizing s with
  | nil => exact ⟨rfl, fun _ => rfl⟩
  | cons k l ih =>
    obtain ⟨wt, watch⟩ := ih (present (.watch k) 0#6 s)
    refine ⟨wt.trans (present_wt _ _ _), fun j => (watch j).trans ?_⟩
    rw [present_watch]
    by_cases later : j ∈ l <;> by_cases here : j = k <;> simp [later, here]

theorem unchain_matching (es : Vector WatchEntry 8) (k : Fin 8) : (unchain es)[k].matching = es[k].matching := by
  have unchained : (unchain es)[k] = if k.val % 2 = 0 ∧ es[k].d.owner = .open_ ∧ es[k].d.chain ∧ es[oddOf k].d.owner = .locked then
      { es[k] with d := { es[k].d with chain := false } } else es[k] := by simp [unchain]
  rw [unchained, apply_ite WatchEntry.matching, ite_self]

/-- The entries made match nothing, and no source asks for a line. -/
theorem makeEntries_held (locked : Vector (Option WatchDef) 8) (s : State) : (makeEntries locked s).watchHeld := by
  intro j
  obtain ⟨wt, watch⟩ := presentNone_leaves (List.finRange 8) (s.setWt { Wt.reset with
    made := true
    entries := unchain (Vector.ofFn (fun i : Fin 8 => WatchEntry.of (startDef locked[i] s.wt.entries[i].d))) })
  unfold makeEntries
  rw [watch, wt, if_pos (List.mem_finRange j)]
  refine (Wt.request_none (fun i => ?_) (fun c => ?_) j).symm
  · rw [State.setWt_wt, unchain_matching]
    simp [WatchEntry.of]
  · simp [Wt.reset]

end Sys2Proof.Machine
end

section
/-! PROOFS. What a taken WATCH_WRITE leaves of the entries, of the pairs and of the WATCH sources (R164 to R166, R173): the ground of O10
and O55. -/

namespace Sys2Proof.Machine

theorem evenOf_even {k : Fin 8} (even : k.val % 2 = 0) : evenOf k = k := by
  simp only [evenOf, Fin.ext_iff]
  omega

theorem oddOf_ne {k : Fin 8} (even : k.val % 2 = 0) : oddOf k ≠ k := by
  simp only [oddOf, ne_eq, Fin.ext_iff]
  omega

/-- The write makes, ends or alters a pair: its match state starts over (R173). -/
def Wt.repairs (w : Wt) (k : Fin 8) (d : WatchDef) : Bool := w.chained k || (decide (k.val % 2 = 0) && d.chain)

/-- The write turns the chain of its couple on or off: the odd member's match state starts over (R173). -/
def Wt.turns (w : Wt) (k : Fin 8) (d : WatchDef) : Bool := decide (k.val % 2 = 0) && (w.chained k != d.chain)

theorem Wt.repairs_even (w : Wt) {k : Fin 8} (even : k.val % 2 = 0) (d : WatchDef) :
    w.repairs k d = (w.entries[k].d.chain || d.chain) ∧ w.turns k d = (w.entries[k].d.chain != d.chain) := by
  have before : w.chained k = w.entries[k].d.chain := congrArg (fun i : Fin 8 => w.entries[i].d.chain) (evenOf_even even)
  unfold Wt.repairs Wt.turns
  simp only [even, before, decide_true, Bool.true_and, and_self]

theorem Wt.repairs_odd (w : Wt) {k : Fin 8} (odd : k.val % 2 ≠ 0) (d : WatchDef) :
    w.repairs k d = w.chained k ∧ w.turns k d = false := by
  unfold Wt.repairs Wt.turns
  simp only [odd, decide_false, Bool.false_and, Bool.or_false, and_self]

/-- A pair taken to not-matching where `b` holds. -/
def Wt.unpairIf (w : Wt) (k : Fin 8) (b : Bool) : Wt := if b = true then w.setPair k false else w

theorem Wt.unpairIf_pairs (w : Wt) (k : Fin 8) (b : Bool) (c : Fin 4) :
    (w.unpairIf k b).pairs[c] = (w.pairs[c] && !(b && decide (c = coupleOf k))) := by
  unfold Wt.unpairIf
  cases b with
  | false => simp
  | true =>
    rw [if_pos rfl, Wt.setPair_get]
    by_cases here : c = coupleOf k <;> simp [here]

theorem Wt.unpairIf_entries (w : Wt) (k : Fin 8) (b : Bool) : (w.unpairIf k b).entries = w.entries := by
  unfold Wt.unpairIf
  split <;> rfl

/-- An entry taken to not-matching where `b` holds. -/
def Wt.unmatchIf (w : Wt) (k : Fin 8) (b : Bool) : Wt := if b = true then w.unmatch k else w

theorem Wt.unmatchIf_get (w : Wt) (k : Fin 8) (b : Bool) (j : Fin 8) :
    (w.unmatchIf k b).entries[j] = { w.entries[j] with matching := w.entries[j].matching && !(b && decide (j = k)) } := by
  unfold Wt.unmatchIf
  cases b with
  | false => simp
  | true => exact w.unmatch_get k j

theorem Wt.unmatchIf_pairs (w : Wt) (k : Fin 8) (b : Bool) : (w.unmatchIf k b).pairs = w.pairs := by
  unfold Wt.unmatchIf
  split <;> rfl

section written
variable (k : Fin 8) (d : WatchDef) (s : State)

/-- The write of entry `k` itself: the definition, and its source withdrawn. -/
def entryWritten : State := present (.watch k) 0#6 (s.setWt (s.wt.setEntry k (.of d)))

/-- The pair of an even entry `k` ended where `b` holds: its match state, and its source withdrawn. -/
def pairEnded (b : Bool) : State :=
  if b = true then present (.watch (oddOf k)) 0#6 (s.setWt (s.wt.setPair k false)) else s

theorem pairEnded_wt (b : Bool) : (pairEnded k s b).wt = s.wt.unpairIf k b := by
  unfold pairEnded Wt.unpairIf
  split
  · exact present_wt _ _ _
  · rfl

theorem pairEnded_watch (b : Bool) (j : Fin 8) :
    (pairEnded k s b).hls.masks.watch[j] = if b = true ∧ j = oddOf k then 0#6 else s.hls.masks.watch[j] := by
  unfold pairEnded
  cases b with
  | false => simp
  | true =>
    rw [if_pos rfl, present_watch]
    simp

theorem takeWatchWrite_even {k : Fin 8} (even : k.val % 2 = 0) : takeWatchWrite k d s =
    (pairEnded k (entryWritten k d s) (s.wt.repairs k d)).setWt
      ((pairEnded k (entryWritten k d s) (s.wt.repairs k d)).wt.unmatchIf (oddOf k) (s.wt.turns k d)) := by
  obtain ⟨repairs, turns⟩ := s.wt.repairs_even even d
  rw [repairs, turns]
  unfold takeWatchWrite Wt.unmatchIf
  rw [if_pos even]
  simp only [bne_iff_ne]
  exact (apply_ite _ _ _ _).symm

theorem takeWatchWrite_odd {k : Fin 8} (odd : k.val % 2 ≠ 0) :
    takeWatchWrite k d s = (entryWritten k d s).setWt ((entryWritten k d s).wt.unpairIf k (s.wt.repairs k d)) := by
  obtain ⟨repairs, -⟩ := s.wt.repairs_odd odd d
  rw [repairs]
  unfold takeWatchWrite Wt.unpairIf
  rw [if_neg odd]
  exact (apply_ite _ _ _ _).symm

/-- WT after a taken WATCH_WRITE (R173). -/
theorem takeWatchWrite_wt : (takeWatchWrite k d s).wt =
    ((s.wt.setEntry k (.of d)).unpairIf k (s.wt.repairs k d)).unmatchIf (oddOf k) (s.wt.turns k d) := by
  have first : (entryWritten k d s).wt = s.wt.setEntry k (.of d) := present_wt _ _ _
  by_cases even : k.val % 2 = 0
  · rw [takeWatchWrite_even d s even, State.setWt_wt, pairEnded_wt, first]
  · obtain ⟨-, turns⟩ := s.wt.repairs_odd even d
    rw [takeWatchWrite_odd d s even, State.setWt_wt, turns, first]
    rfl

/-- The WATCH sources after it: the entry's withdrawn, and a pair's where an even entry is written (R173). -/
theorem takeWatchWrite_watch (j : Fin 8) : (takeWatchWrite k d s).hls.masks.watch[j] =
    if j = k ∨ (k.val % 2 = 0 ∧ s.wt.repairs k d = true ∧ j = oddOf k) then 0#6 else s.hls.masks.watch[j] := by
  have first : (entryWritten k d s).hls.masks.watch[j] = if j = k then 0#6 else s.hls.masks.watch[j] := present_watch _ _ _ _
  by_cases even : k.val % 2 = 0
  · rw [takeWatchWrite_even d s even, State.setWt_hls, pairEnded_watch, first]
    by_cases here : j = k <;> by_cases pair : s.wt.repairs k d = true ∧ j = oddOf k <;>
      simp only [here, pair, even, and_self, or_self, or_true, true_or, true_and, if_true, if_false, ite_self]
  · rw [takeWatchWrite_odd d s even, State.setWt_hls, first]
    simp only [even, false_and, or_false]

theorem takeWatchWrite_here : (takeWatchWrite k d s).wt.entries[k] = .of d := by
  have written : (takeWatchWrite k d s).wt.entries[k] = { WatchEntry.of d with
      matching := (WatchEntry.of d).matching && !(s.wt.turns k d && decide (k = oddOf k)) } := by
    rw [takeWatchWrite_wt, Wt.unmatchIf_get, Wt.unpairIf_entries, Wt.setEntry_get, if_pos rfl]
  exact written

theorem takeWatchWrite_others {j : Fin 8} (other : j ≠ k) : (takeWatchWrite k d s).wt.entries[j] =
    { s.wt.entries[j] with matching := s.wt.entries[j].matching && !(s.wt.turns k d && decide (j = oddOf k)) } := by
  rw [takeWatchWrite_wt, Wt.unmatchIf_get, Wt.unpairIf_entries, Wt.setEntry_get, if_neg other]

theorem takeWatchWrite_pairs (c : Fin 4) : (takeWatchWrite k d s).wt.pairs[c] =
    (s.wt.pairs[c] && !(s.wt.repairs k d && decide (c = coupleOf k))) := by
  rw [takeWatchWrite_wt, Wt.unmatchIf_pairs, Wt.unpairIf_pairs]
  rfl

/-! ### The sources after the write (R164, R166) -/

theorem takeWatchWrite_def (j : Fin 8) : (takeWatchWrite k d s).wt.entries[j].d = if j = k then d else s.wt.entries[j].d := by
  by_cases here : j = k
  · subst here
    rw [takeWatchWrite_here, if_pos rfl]
    rfl
  · rw [takeWatchWrite_others k d s here, if_neg here]

/-- The write ends what an index acts for: its own entry's, and an even entry's pair's. -/
def Wt.ended (w : Wt) (k : Fin 8) (d : WatchDef) (j : Fin 8) : Prop :=
  j = k ∨ (k.val % 2 = 0 ∧ w.repairs k d = true ∧ j = oddOf k)

theorem takeWatchWrite_chained (j : Fin 8) :
    (takeWatchWrite k d s).wt.chained j = if evenOf j = k then d.chain else s.wt.chained j := by
  unfold Wt.chained
  rw [takeWatchWrite_def]
  exact apply_ite _ _ _ _

/-- A couple that is chained after the write has its pair's match state started over. -/
theorem takeWatchWrite_repairs {j : Fin 8} (couple : coupleOf j = coupleOf k)
    (chained : (takeWatchWrite k d s).wt.chained j = true) : s.wt.repairs k d = true := by
  rw [takeWatchWrite_chained, evenOf_couple couple, s.wt.chained_couple couple] at chained
  by_cases even : k.val % 2 = 0
  · rw [if_pos (evenOf_even even)] at chained
    simp [Wt.repairs, even, chained]
  · have notEven : evenOf k ≠ k := by
      simp only [evenOf, ne_eq, Fin.ext_iff]
      omega
    rw [if_neg notEven] at chained
    simp [Wt.repairs, chained]

theorem Wt.turns_repairs {w : Wt} {k : Fin 8} {d : WatchDef} (turns : w.turns k d = true) :
    k.val % 2 = 0 ∧ w.repairs k d = true := by
  obtain ⟨even, differ⟩ := Bool.and_eq_true_iff.1 turns
  have even : k.val % 2 = 0 := of_decide_eq_true even
  refine ⟨even, ?_⟩
  unfold Wt.repairs
  rw [decide_eq_true even]
  cases before : w.chained k <;> cases after : d.chain <;> simp [before, after] at differ ⊢

section going
variable {k d s} {j : Fin 8} (going : ¬s.wt.ended k d j)
include going

theorem takeWatchWrite_chained_going : (takeWatchWrite k d s).wt.chained j = s.wt.chained j := by
  obtain ⟨other, pair⟩ := not_or.1 going
  rw [takeWatchWrite_chained]
  split
  · next member =>
    have acting : k.val % 2 = 0 ∧ j = oddOf k ∧ coupleOf j = coupleOf k := by
      simp only [coupleOf, evenOf, oddOf, Fin.ext_iff] at *
      omega
    obtain ⟨even, odd, couple⟩ := acting
    have alone : s.wt.repairs k d = false := Bool.eq_false_iff.2 fun h => pair ⟨even, h, odd⟩
    obtain ⟨before, after⟩ := Bool.or_eq_false_iff.1 alone
    rw [decide_eq_true even, Bool.true_and] at after
    rw [after, s.wt.chained_couple couple, before]
  · rfl

/-- What is not ended acts as it did. -/
theorem takeWatchWrite_acts : (takeWatchWrite k d s).wt.acts j = s.wt.acts j := by
  have chains := takeWatchWrite_chained_going going
  obtain ⟨other, pair⟩ := not_or.1 going
  cases chained : s.wt.chained j with
  | true =>
    rw [Wt.acts_chained (chains.trans chained), Wt.acts_chained chained, takeWatchWrite_pairs]
    by_cases acting : s.wt.repairs k d = true ∧ coupleOf j = coupleOf k ∧ j = oddOf j
    · obtain ⟨repairs, couple, odd⟩ := acting
      have here : j = oddOf k := (eq_oddOf_iff j k).2 ⟨couple, odd⟩
      have even : k.val % 2 = 0 := by
        simp only [oddOf, Fin.ext_iff] at *
        omega
      exact absurd ⟨even, repairs, here⟩ pair
    · by_cases odd : j = oddOf j
      · have kept : (s.wt.repairs k d && decide (coupleOf j = coupleOf k)) = false :=
          Bool.eq_false_iff.2 fun h => acting ⟨(Bool.and_eq_true_iff.1 h).1, of_decide_eq_true (Bool.and_eq_true_iff.1 h).2, odd⟩
        rw [kept, Bool.not_false, Bool.and_true]
      · rw [decide_eq_false odd, Bool.and_false, Bool.and_false]
  | false =>
    have kept : (s.wt.turns k d && decide (j = oddOf k)) = false := by
      refine Bool.eq_false_iff.2 fun h => ?_
      obtain ⟨turns, odd⟩ := Bool.and_eq_true_iff.1 h
      obtain ⟨even, repairs⟩ := Wt.turns_repairs turns
      exact pair ⟨even, repairs, of_decide_eq_true odd⟩
    rw [Wt.acts_unchained (chains.trans chained), Wt.acts_unchained chained, takeWatchWrite_others k d s other, kept,
      Bool.not_false, Bool.and_true]

end going

/-- What is ended acts for nothing. -/
theorem takeWatchWrite_acts_ended {j : Fin 8} (ended : s.wt.ended k d j) : (takeWatchWrite k d s).wt.acts j = false := by
  have couple : coupleOf j = coupleOf k := by
    rcases ended with rfl | ⟨-, -, rfl⟩
    · rfl
    · exact coupleOf_oddOf k
  cases chained : (takeWatchWrite k d s).wt.chained j with
  | true =>
    rw [Wt.acts_chained chained, takeWatchWrite_pairs, takeWatchWrite_repairs k d s couple chained, decide_eq_true couple]
    simp
  | false =>
    rw [Wt.acts_unchained chained]
    rcases ended with rfl | ⟨even, repairs, rfl⟩
    · rw [takeWatchWrite_here]
      rfl
    · have after : d.chain = false := by
        rwa [takeWatchWrite_chained, evenOf_oddOf, if_pos (evenOf_even even)] at chained
      have turns : s.wt.turns k d = true := by
        unfold Wt.repairs at repairs
        unfold Wt.turns
        rw [after, Bool.and_false, Bool.or_false] at repairs
        rw [after, repairs, decide_eq_true even]
        rfl
      rw [takeWatchWrite_others k d s (oddOf_ne even), turns, decide_eq_true rfl]
      simp

/-- A taken WATCH_WRITE withdraws just the requests of what it ends. -/
theorem takeWatchWrite_held {s : State} (held : s.watchHeld) : (takeWatchWrite k d s).watchHeld := by
  intro j
  rw [takeWatchWrite_watch, Wt.request_eq]
  by_cases ended : s.wt.ended k d j
  · rw [takeWatchWrite_acts_ended k d s ended, holdAsked_false]
    exact if_pos ended
  · rw [takeWatchWrite_acts ended, takeWatchWrite_def, if_neg (not_or.1 ended).1, ← Wt.request_eq, ← held j]
    exact if_neg ended

/-! ### What the write leaves elsewhere -/

/-- The write leaves the other blocks, and WT's copies. -/
theorem takeWatchWrite_judged : Judged s (takeWatchWrite k d s) := by
  have set (u : State) (w : Wt) (copies : w.copies = u.wt.copies) : Judged u (u.setWt w) := setWt_judged u copies
  have first : Judged s (entryWritten k d s) := (set s (s.wt.setEntry k (.of d)) rfl).trans (present_judged _ _ _)
  have second : Judged s (pairEnded k (entryWritten k d s) (s.wt.repairs k d)) :=
    first.trans (rel_ite ((set _ ((entryWritten k d s).wt.setPair k false) rfl).trans (present_judged _ _ _)) (.refl _))
  by_cases even : k.val % 2 = 0
  · rw [takeWatchWrite_even d s even]
    exact second.trans (set _ _ (by unfold Wt.unmatchIf; split <;> rfl))
  · rw [takeWatchWrite_odd d s even]
    exact first.trans (set _ _ (by unfold Wt.unpairIf; split <;> rfl))

end written

end Sys2Proof.Machine
end

section
/-! PROOFS. WATCH_WRITE, HIT_CLEAR, CAPTURE_READ and the filling of the capture record (R163, R168 to R170, R172 to R174): O54 and O55. -/

namespace Sys2Proof.Machine

/-! ### WATCH_WRITE (R172, R173) -/

section judged
variable (k : Fin 8) (d : WatchDef) (s : State)

/-- Rows 3 and 4 of R172, from the cab port. -/
theorem watchJudged_cab :
    (s.wt.entries[k].d.owner = .locked ∨ d.owner = .locked → watchJudged .cab k d s = .error .locked) ∧
    (s.wt.entries[k].d.owner = .open_ → d.owner = .open_ → watchJudged .cab k d s =
      if k.val % 2 = 0 ∧ d.chain ∧ s.wt.entries[oddOf k].d.owner = .locked then .ok ({ d with chain := false }, .clamped)
      else .ok (d, .ok)) := by
  refine ⟨fun locks => if_pos locks, fun here new => if_neg ?_⟩
  rw [here, new]
  decide

/-- Rows 5 and 6 of R172, from the service port. -/
theorem watchJudged_service (idle : s.committing = false) : watchJudged .service k d s =
    if s.wt.wouldConflict k d then .error .conflict else .ok (d, .ok) := if_neg fun h => by simp [idle] at h

end judged

/-- A taken WATCH_WRITE, from the frame to the reply. -/
theorem exec_watchWrite {p : Port} {body : List Byte} {k : Fin 8} {d d' : WatchDef} {c : Code} {s : State}
    (admitted : Admitted p .watchWrite body s) (carries : watchDefOf body = some (k, d)) (uncrossed : limitsCrossed d = false)
    (taken : watchJudged p k d s = .ok (d', c)) : exec (.watchWrite p body) s =
      .next ((takeWatchWrite k d' (s.heard p)).answered p 0x29#8 c (watchReply (takeWatchWrite k d' (s.heard p)).wt [k])) := by
  have taken : watchJudged p k d (s.heard p) = .ok (d', c) := taken
  have served : serve .watchWrite p body (s.heard p) =
      ({ code := c, body := watchReply (takeWatchWrite k d' (s.heard p)).wt [k] }, takeWatchWrite k d' (s.heard p)) := by
    simp only [serve, serveWatchWrite, carries, uncrossed, taken, Bool.false_eq_true, if_false]
  refine (exec_admitted (r := .watchWrite) admitted).trans ?_
  rw [served]
  rfl

/-- Settles O55: the rows of R172 as `watchJudged` has them, and what a taken write leaves (`takeWatchWrite_here`,
`takeWatchWrite_others`, `takeWatchWrite_watch`). -/
theorem watchWrite : Obligations.WatchWrite := by
  refine ⟨fun k d s => ?_, fun p body k d d' c s admitted carries uncrossed taken => ?_⟩
  · intro owner next
    obtain ⟨locked, opened⟩ := watchJudged_cab k d s
    refine ⟨locked, fun here new even chain after => ?_, fun here new unchained => ?_, fun locks works => ?_,
      fun idle even new chain after => ?_, fun idle odd new before chain => ?_, fun idle new chain => ?_⟩
    · exact (opened here new).trans (if_pos ⟨even, chain, after⟩)
    · refine (opened here new).trans (if_neg fun ⟨_, chain, after⟩ => ?_)
      rcases unchained with clear | open_
      · rw [clear] at chain
        cases chain
      · rw [show s.wt.entries[oddOf k].d.owner = .open_ from open_] at after
        cases after
    · exact if_pos ⟨locks, works⟩
    · have after : s.wt.entries[oddOf k].d.owner = .locked := after
      have conflict : s.wt.wouldConflict k d = true := by
        unfold Wt.wouldConflict
        rw [if_pos even, new, chain, after]
        rfl
      rw [watchJudged_service k d s idle, if_pos conflict]
    · have conflict : s.wt.wouldConflict k d = true := by
        unfold Wt.wouldConflict
        rw [if_neg (by omega), new, before, chain]
        rfl
      rw [watchJudged_service k d s idle, if_pos conflict]
    · rw [watchJudged_service k d s idle]
      exact if_neg (by simp [Wt.wouldConflict, new, chain])
  · refine ⟨_, exec_watchWrite admitted carries uncrossed taken, rfl, takeWatchWrite_here k d' _, ?_, fun j other => ?_,
      (takeWatchWrite_judged k d' (s.heard p)).otherBlocks⟩
    · exact (takeWatchWrite_watch k d' _ k).trans (if_pos (.inl rfl))
    · rw [answered_wt, takeWatchWrite_others k d' _ other]
      exact ⟨rfl, rfl, rfl⟩

/-! ### HIT_CLEAR and CAPTURE_READ (R170, R174) -/

theorem hitsCleared_get (p : Port) (marks : Byte) (w : Wt) (k : Fin 8) : (hitsCleared p marks w).entries[k] =
    { w.entries[k] with hit := w.entries[k].hit &&
        !(marks.getLsbD k.val && (decide (p = .service) || decide (w.entries[k].d.owner = .open_))) } := by
  have cleared : (hitsCleared p marks w).entries[k] =
      if marks.getLsbD k.val ∧ (p = .service ∨ w.entries[k].d.owner = .open_) then { w.entries[k] with hit := false }
      else w.entries[k] := by simp [hitsCleared]
  rw [cleared, ← Bool.decide_or]
  by_cases marked : marks.getLsbD k.val = true ∧ (p = .service ∨ w.entries[k].d.owner = .open_)
  · rw [if_pos marked, marked.1, decide_eq_true marked.2]
    simp
  · have passed : (marks.getLsbD k.val && decide (p = .service ∨ w.entries[k].d.owner = .open_)) = false :=
      Bool.eq_false_iff.2 fun h => marked ⟨(Bool.and_eq_true_iff.1 h).1, of_decide_eq_true (Bool.and_eq_true_iff.1 h).2⟩
    rw [if_neg marked, passed]
    simp

/-! ### The filling of the capture record (R168, R169) -/

section capture
variable {k : Fin 8} {s : State}

theorem be1_eq (v : Nat) : be1 v = [BitVec.ofNat 8 v] := by
  unfold be1 beBytes beBytes
  rw [pow_zero, Int.ediv_one]
  rfl

theorem captureReadyBody_eq (c : Capture) :
    captureReadyBody c = [BitVec.ofNat 8 c.entry.val, if c.overrun = true then 0x01#8 else 0x00#8] := by
  unfold captureReadyBody
  rw [be1_eq, be1_eq]
  cases c.overrun <;> rfl

/-- The record is filled while it is EMPTY, with overrun clear, and by a lower entry while it is FULL, with overrun set (R169). -/
theorem offerCapture_fills {overrun : Bool}
    (fills : s.wt.capture = none ∧ overrun = false ∨ ∃ c, s.wt.capture = some c ∧ k.val < c.entry.val ∧ overrun = true) :
    (offerCapture k s).wt.capture = some (s.wt.captureOf k overrun) ∧ ∀ p, (offerCapture k s).port p =
      (s.port p).queueReport .captureReady [BitVec.ofNat 8 k.val, if overrun = true then 0x01#8 else 0x00#8] := by
  have filled : offerCapture k s = (s.setWt { s.wt with capture := some (s.wt.captureOf k overrun) }).queueReport .captureReady
      (captureReadyBody (s.wt.captureOf k overrun)) := by
    unfold offerCapture
    rcases fills with ⟨empty, rfl⟩ | ⟨c, full, lower, rfl⟩
    · rw [empty]
    · rw [full]
      exact if_pos lower
  rw [filled, captureReadyBody_eq]
  exact ⟨rfl, fun p => queueReport_port _ _ _ p⟩

theorem offerCapture_discards {c : Capture} (full : s.wt.capture = some c) (notLower : c.entry.val ≤ k.val) :
    offerCapture k s = s.setWt { s.wt with capture := some { c with overrun := true } } := by
  unfold offerCapture
  rw [full]
  exact if_neg (Nat.not_lt.2 notLower)

/-- WT as entry `k` fires alone: judged on a value, and its hit flag set (R161, R163). -/
def State.fired (s : State) (k : Fin 8) (v : Int) : State := (s.judgeAt k v).setWt ((s.judgeAt k v).wt.setHits k none)

/-- An unchained CAPTURE entry that rises is offered to the record (R163, R169). -/
theorem evalEntry_offers {vals : Quantity → Option Marked} {m : Marked} (ev : SourceEvent)
    (enabled : s.wt.entries[k].d.enable = true) (alone : s.wt.chained k = false) (action : s.wt.entries[k].d.action = .capture)
    (carried : vals s.wt.entries[k].d.quantity = some m) (valid : m.ok = true) (was : s.wt.entries[k].matching = false)
    (is : watchHolds s.wt.entries[k].d m.val = true) :
    evalEntry ev vals s k = offerCapture k (s.fired k m.val) := by
  have judged : (s.judgeAt k m.val).wt.entries[k] = s.wt.entries[k].judged m.val := (judgeAt_get s k k m.val).trans (if_pos rfl)
  have single : (s.judgeAt k m.val).wt.chained k = false := (s.wt.setEntry_chained k (x := s.wt.entries[k].judged m.val) rfl k).trans alone
  have rises : (s.judgeAt k m.val).wt.entries[k].matching = true := by
    rw [judged]
    exact is
  rw [evalEntry_valid enabled carried valid, judgeEdge_unchained single, was, rises]
  refine (fire_rows ev k none (s.judgeAt k m.val)).2.1 ?_
  rw [judged]
  exact action

/-- The record that such a firing fills: the value judged, and WT's copies (R168). -/
theorem captureOf_fired (s : State) (k : Fin 8) (v : Int) (overrun : Bool) :
    (s.fired k v).wt.captureOf k overrun =
      { entry := k, value := v, s := s.wt.pose.s, alpha := s.wt.pose.alpha, beta := s.wt.pose.beta, e := s.wt.pose.e
        r := s.wt.pose.r, h := s.wt.pose.h, live := s.wt.live, u := s.wt.u, lift := s.wt.lift, tag := s.wt.tag
        overrun := overrun } := by
  unfold Wt.captureOf State.fired
  rw [State.setWt_wt, Wt.setHits_get, judgeAt_get, if_pos rfl]
  rfl

end capture

/-- Settles O54: the two requests by their owners, and a firing's offer to the record by its three rows. -/
theorem hitClearAndCaptureRead : Obligations.HitClearAndCaptureRead := by
  refine ⟨fun p marks s admitted => ?_, fun p s admitted => ?_, fun ev vals k m s => ?_⟩
  · exact ⟨hitsCleared p marks s.wt, exec_admitted (r := .hitClear) admitted, rfl, hitsCleared_get p marks s.wt⟩
  · refine (exec_admitted (r := .captureRead) admitted).trans ?_
    simp only [serve, serveCaptureRead, heard_wt]
    cases s.wt.capture <;> rfl
  · intro x enabled alone action carried valid was is t filled
    have acted : Acted ev k none x.matching (watchHolds x.d m.val) (s.judgeAt k m.val) t := evalEntry_alone enabled alone carried valid
    have before : (s.judgeAt k m.val).wt.entries[k] = x.judged m.val := (judgeAt_get s k k m.val).trans (if_pos rfl)
    have offers : t = offerCapture k (s.fired k m.val) := evalEntry_offers ev enabled alone action carried valid was is
    have record (overrun : Bool) : (s.fired k m.val).wt.captureOf k overrun = filled overrun := captureOf_fired s k m.val overrun
    refine ⟨?_, acted.calm (by rw [before]; exact fun hold => by cases action.symm.trans hold), fun empty => ?_,
      fun c full lower => ?_, fun c full notLower => ?_⟩
    · rw [acted.entries, was, is]
      simp [WatchEntry.hits]
    · rw [offers, ← record]
      exact offerCapture_fills (s := s.fired k m.val) (.inl ⟨empty, rfl⟩)
    · rw [offers, ← record]
      exact offerCapture_fills (s := s.fired k m.val) (.inr ⟨c, full, lower, rfl⟩)
    · rw [offers, offerCapture_discards (s := s.fired k m.val) full notLower]
      exact ⟨rfl, rfl⟩

end Sys2Proof.Machine
end

section
/-! PROOFS. The WATCH sources through WT's hand-overs, CPM's evaluations, the pose, the weighing and the bus (R161 to R166, R176): the
ground of O10. -/

namespace Sys2Proof.Machine

/-! ### What has no part in WT's requests -/

/-- Every WATCH source goes on presenting what its index asks for, if it did. -/
def MasksKept (s t : State) : Prop := s.watchHeld → t.watchHeld

theorem MasksKept.refl (s : State) : MasksKept s s := id

theorem MasksKept.trans {s t u : State} (h : MasksKept s t) (k : MasksKept t u) : MasksKept s u := k ∘ h

/-- WT and the hold lines are as they were. -/
theorem MasksKept.same {s t : State} (wt : t.wt = s.wt) (hls : t.hls = s.hls) : MasksKept s t := by
  unfold MasksKept State.watchHeld
  rw [wt, hls]
  exact id

theorem MasksKept.portFree : PortFree MasksKept where
  refl := .refl
  trans := .trans
  mpt _ _ := id
  sched _ _ := id

theorem OnlyBus.masksKept {s t : State} (h : OnlyBus s t) : MasksKept s t := .same h.wt h.hls

theorem runAny_masksKept {fs : List (State → State)} (each : ∀ f ∈ fs, ∀ s, MasksKept s (f s)) (s : State) :
    MasksKept s (runAny fs s) := MasksKept.portFree.runAny each s

/-- A source other than WT's presents a mask (R178). -/
theorem present_masksKept {src : HoldSource} (other : ∀ k, src ≠ .watch k) (mask : LineMask) (s : State) :
    MasksKept s (present src mask s) := by
  intro held k
  have kept := present_get src mask s (.watch k)
  rw [if_neg (Ne.symm (other k))] at kept
  rw [present_wt]
  exact kept.trans (held k)

theorem endTare_masksKept (c : WorkCode) (s : State) : MasksKept s (endTare c s) := .same (endTare_wt c s) (endTare_hls c s)
theorem endCal_masksKept (c : WorkCode) (s : State) : MasksKept s (endCal c s) := .same (endCal_wt c s) (endCal_hls c s)

/-! ### WT's hand-overs (R159, R161, R162) -/

theorem watchEvaluate_masksKept (ev : SourceEvent) (vals : Quantity → Option Marked) (s : State) :
    MasksKept s (watchEvaluate ev vals s) :=
  rel_ite (MasksKept.portFree.foldl (fun _ k held => evalEntry_held held ev vals k) _ s) (.refl s)

theorem wtLive_masksKept (m : Marked) (s : State) : MasksKept s (wtLive m s) :=
  have taken : MasksKept s (s.setWt { s.wt with live := m }) := id
  taken.trans (watchEvaluate_masksKept _ _ _)

theorem wtPose_masksKept (p : Pose) (s : State) : MasksKept s (wtPose p s) :=
  have taken : MasksKept s (s.setWt { s.wt with pose := p }) := id
  taken.trans (watchEvaluate_masksKept _ _ _)

theorem wtUtil_masksKept (u : Marked) (s : State) : MasksKept s (wtUtil u s) :=
  have taken : MasksKept s (s.setWt { s.wt with u := u }) := id
  taken.trans (watchEvaluate_masksKept _ _ _)

theorem wtLift_masksKept (old new : LiftState) (tag mass : Option Nat) (s : State) :
    MasksKept s (wtLift old new tag mass s) := by
  have taken : MasksKept s (s.setWt { s.wt with lift := new, tag := tag }) := id
  have reset := taken.trans (rel_ite (c := old = .open_ ∧ new = .gripped)
    (MasksKept.portFree.foldl (fun _ k held => resetLiftMass_held held k) (List.finRange 8) _) (.refl _))
  unfold wtLift
  dsimp only
  split
  · exact reset.trans (watchEvaluate_masksKept _ _ _)
  · exact reset

theorem handBunkTotal_masksKept (n : Nat) (s : State) : MasksKept s (handBunkTotal n s) :=
  rel_ite (watchEvaluate_masksKept _ _ _) (.refl s)

/-! ### CPM and the pose (R43, R142, R149, R152, R153) -/

theorem presentCap_masksKept (old new : Cpm) (s : State) : MasksKept s (presentCap old new s) :=
  rel_ite (present_masksKept (by simp) _ s) (.refl s)

theorem cpmEvaluate_masksKept (s : State) : MasksKept s (cpmEvaluate s) := by
  have reported (u : State) (r : Report) (body : List Byte) : MasksKept u (u.queueReport r body) := id
  have formed (c : Cpm) : MasksKept s (s.setCpm c) := id
  refine (formed _).trans (runAny_masksKept (fun f hf u => ?_) _)
  simp only [List.mem_cons, List.not_mem_nil, or_false] at hf
  rcases hf with rfl | rfl | rfl | rfl
  · unfold wgeUtil
    split
    · exact rel_ite (.refl u) id
    · exact .refl u
  · exact wtUtil_masksKept _ u
  · exact (rel_ite (reported u _ _) (.refl u)).trans (rel_ite (reported _ _ _) (.refl _))
  · exact presentCap_masksKept _ _ u

theorem cpmTake_masksKept (change : Cpm → Cpm) (s : State) : MasksKept s (cpmTake change s) :=
  have changed : MasksKept s (s.setCpm (change s.cpm)) := id
  changed.trans (cpmEvaluate_masksKept _)

theorem startPermit_masksKept (s : State) : MasksKept s (startPermit s) :=
  have started (c : Cpm) : MasksKept s (s.setCpm c) := id
  (started _).trans (presentCap_masksKept _ _ _)

theorem expirePermit_masksKept (s : State) : MasksKept s (expirePermit s) := by
  have ended (c : Cpm) : MasksKept s (s.setCpm c) := id
  refine (ended _).trans (runAny_masksKept (fun f hf u => ?_) _)
  simp only [List.mem_cons, List.not_mem_nil, or_false] at hf
  rcases hf with rfl | rfl
  · exact id
  · exact presentCap_masksKept _ _ u

theorem recompute_masksKept (s : State) : MasksKept s (recompute s) := by
  have formed (p : Pos) : MasksKept s (s.setPos p) := id
  refine (formed _).trans (runAny_masksKept (fun f hf u => ?_) _)
  simp only [List.mem_cons, List.not_mem_nil, or_false] at hf
  rcases hf with rfl | rfl
  · exact cpmTake_masksKept _ u
  · exact wtPose_masksKept _ u

/-! ### The weighing and the tally (R61 to R67, R114) -/

theorem liveHandOvers_masksKept (m : Marked) : ∀ f ∈ liveHandOvers m, ∀ s, MasksKept s (f s) := by
  intro f hf
  simp only [liveHandOvers, List.mem_cons, List.not_mem_nil, or_false] at hf
  rcases hf with rfl | rfl
  · exact cpmTake_masksKept _
  · exact wtLive_masksKept m

theorem liftHandOvers_masksKept (old new : LiftState) (tag mass : Option Nat) :
    ∀ f ∈ liftHandOvers old new tag mass, ∀ s, MasksKept s (f s) := by
  intro f hf
  unfold liftHandOvers at hf
  split at hf
  · cases hf
  · simp only [List.mem_cons, List.not_mem_nil, or_false] at hf
    rcases hf with rfl | rfl
    · exact cpmTake_masksKept _
    · exact wtLift_masksKept old new tag mass

theorem linkArrival_masksKept (c : Int) (o : Bool) (s : State) : MasksKept s (linkArrival c o s) := by
  obtain ⟨rest, -⟩ := linkWork_leaves c o s
  have worked : MasksKept s (linkWork c o s) := by
    rw [rest]
    exact id
  exact worked.trans (runAny_masksKept (fun f hf => (List.mem_append.1 hf).elim (liftHandOvers_masksKept _ _ _ _ f)
    (liveHandOvers_masksKept _ f)) _)

theorem linkStale_masksKept (s : State) : MasksKept s (linkStale s) := by
  have lost : MasksKept s (s.setWge s.wge.linkLost) := id
  exact lost.trans ((endTare_masksKept _ _).trans ((endCal_masksKept _ _).trans
    (runAny_masksKept (liveHandOvers_masksKept _) _)))

theorem reportTripClosed_masksKept (t : Trip) (s : State) : MasksKept s (reportTripClosed t s) := by
  have reported (u : State) (r : Report) (body : List Byte) : MasksKept u (u.queueReport r body) := id
  exact (reported s _ _).trans (rel_ite (reported _ _ _) (.refl _))

theorem takeCompletedLift_masksKept (c : CompletedLift) (s : State) : MasksKept s (takeCompletedLift c s) := by
  have taken (t : Tlu) (r : Report) (body : List Byte) : MasksKept s ((s.setTlu t).queueReport r body) := id
  exact (taken _ _ _).trans (.trans (rel_ite (reportTripClosed_masksKept _ _) (.refl _)) (handBunkTotal_masksKept _ _))

theorem gripArrival_masksKept (closed : Bool) (s : State) : MasksKept s (gripArrival closed s) := by
  have moved (w : Wge) : MasksKept s (s.setWge w) := id
  have handed (old new : LiftState) (tag mass : Option Nat) (u : State) : MasksKept u (runAny (liftHandOvers old new tag mass) u) :=
    runAny_masksKept (liftHandOvers_masksKept _ _ _ _) u
  unfold gripArrival
  split
  · exact (moved _).trans ((endTare_masksKept _ _).trans (handed _ _ _ _ _))
  · exact .refl s
  · exact .refl s
  · exact rel_ite ((moved _).trans (handed _ _ _ _ _))
      ((moved _).trans ((endCal_masksKept _ _).trans ((takeCompletedLift_masksKept _ _).trans (handed _ _ _ _ _))))

/-! ### Deliveries and polls (R23 to R28) -/

theorem deliverSample_masksKept (r : Role) (returning : Bool) (x : Sample) (s : State) :
    MasksKept s (deliverSample r returning x s) := by
  have posed (p : Pos) : MasksKept s (recompute (s.setPos p)) := recompute_masksKept (s.setPos p)
  cases r
  case link => exact linkArrival_masksKept _ _ s
  case grip => exact gripArrival_masksKept _ s
  case slew | main | outer | tele | tilt => exact posed _

theorem deliverStale_masksKept (r : Role) (s : State) : MasksKept s (deliverStale r s) := by
  have posed (p : Pos) : MasksKept s (recompute (s.setPos p)) := recompute_masksKept (s.setPos p)
  cases r
  case link => exact linkStale_masksKept s
  case grip => exact .refl s
  case slew | main | outer | tele | tilt => exact posed _

theorem startAfresh_masksKept (r : Role) (s : State) : MasksKept s (startAfresh r s) := by
  cases r <;> exact id

theorem applyPoll_masksKept (e : Entry) (st : Bool) (obs : PollObs) (s : State) : MasksKept s (applyPoll e st obs s) := by
  have reported := (pollReported_onlyBus e st obs s).masksKept
  by_cases good : judgePoll e.expectWaking st e.pd.role obs = .ok ∧ e.pd.enable = true
  · obtain ⟨returning, afresh, x, delivers⟩ := applyPoll_delivers e st obs s good.1 good.2
    rw [delivers]
    exact reported.trans (.trans (rel_ite (startAfresh_masksKept _ _) (.refl _)) (deliverSample_masksKept _ _ _ _))
  · rw [applyPoll_undelivered e st obs s good]
    exact reported

theorem pollDone_masksKept (t : Txn) (r : Role) (obs : PollObs) {after : Bool → PollOutcome → State → State}
    (h : ∀ b o s, OnlyBus s (after b o s)) (s : State) : MasksKept s (pollDone t r obs after s) := by
  have freed (b : Sbc) : MasksKept s (s.setSbc b) := id
  unfold pollDone
  split
  · exact rel_ite ((freed _).trans (applyPoll_masksKept _ _ _ _))
      ((freed _).trans ((applyPoll_masksKept _ _ _ _).trans (h _ _ _).masksKept))
  · exact (freed _).trans (h _ _ _).masksKept

theorem afterAttempt_onlyBus (ok : Bool) (s : State) : OnlyBus s (afterAttempt ok s) :=
  rel_ite (setSbc_onlyBus s _) (rel_ite (setSbc_onlyBus s _) (.refl s))

theorem pollTransactionDone_masksKept (obs : PollObs) (s : State) : MasksKept s (pollTransactionDone obs s) := by
  unfold pollTransactionDone
  split
  · split
    · exact pollDone_masksKept _ _ _ (fun _ _ u => afterTransaction_onlyBus _ u) s
    · exact pollDone_masksKept _ _ _ (fun _ _ u => afterAttempt_onlyBus _ u) s
    · exact .refl s
  · exact .refl s

theorem sensorStale_masksKept (r : Role) (s : State) : MasksKept s (sensorStale r s) := by
  have marked (e : Entry) (b : Sbc) : MasksKept s (reportEntry e (s.setSbc b)) := id
  unfold sensorStale
  split
  · exact rel_ite ((marked _ _).trans (deliverStale_masksKept _ _)) (.refl s)
  · exact .refl s

/-! ### The bus and its timers (R20, R31 to R37) -/

theorem passthroughDone_onlyBus (obs : PassObs) (s : State) : OnlyBus s (passthroughDone obs s) := by
  have freed (b : Sbc) (result : List Byte) : OnlyBus s ((s.setSbc b).finishWork .sensorPass result) := rfl
  unfold passthroughDone
  split
  · exact rel_ite ((freed _ _).trans (afterTransaction_onlyBus _ _)) (.refl s)
  · exact .refl s

theorem roundTimerExpiry_onlyBus (s : State) : OnlyBus s (roundTimerExpiry s) := by
  unfold roundTimerExpiry
  split
  · exact rel_ite (setSbc_onlyBus s _) (.refl s)
  · exact .refl s

theorem stretchTimeout_onlyBus (s : State) : OnlyBus s (stretchTimeout s) := by
  unfold stretchTimeout
  split
  · exact setSbc_onlyBus s _
  · exact .refl s

theorem busFreePulseEnd_onlyBus (s : State) : OnlyBus s (busFreePulseEnd s) := by
  unfold busFreePulseEnd
  split
  · exact rel_ite (setSbc_onlyBus s _) (.refl s)
  · exact .refl s
  · exact .refl s

theorem recoveryWaitEnd_onlyBus (dataHigh : Bool) (s : State) : OnlyBus s (recoveryWaitEnd dataHigh s) := by
  unfold recoveryWaitEnd
  split
  · exact rel_ite (rel_ite (setSbc_onlyBus s _) (busStuck_onlyBus s)) (.refl s)
  · exact .refl s
  · exact .refl s

theorem recoveryAttempt_onlyBus (s : State) : OnlyBus s (recoveryAttempt s) := by
  unfold recoveryAttempt
  split
  · exact rel_ite (rel_ite (setSbc_onlyBus s _) (setSbc_onlyBus s _)) (.refl s)
  · exact .refl s

theorem attemptWaitEnd_onlyBus (dataHigh : Bool) (s : State) : OnlyBus s (attemptWaitEnd dataHigh s) := by
  unfold attemptWaitEnd
  split
  · refine rel_ite (rel_ite ?_ (setSbc_onlyBus s _)) (.refl s)
    split <;> exact setSbc_onlyBus s _
  · exact .refl s
  · exact .refl s

/-- A poll list taken, the roles it loses stale, and the pose formed anew (R17, R56). -/
theorem takePollWrite_masksKept (list : List PollDef) (s : State) : MasksKept s (takePollWrite list s) := by
  have listed (b : Sbc) : MasksKept s (s.setSbc b) := id
  have reported (u : State) (r : Report) (body : List Byte) : MasksKept u (u.queueReport r body) := id
  refine (listed _).trans ((runAny_masksKept (fun f hf u => ?_) _).trans (recompute_masksKept _))
  obtain ⟨e, -, rfl⟩ := List.mem_map.1 hf
  have lost (body : List Byte) : MasksKept u (if e.fresh? = true then deliverStale e.pd.role (u.queueReport .sensorState body)
      else u.queueReport .sensorState body) :=
    (reported u _ _).trans (rel_ite (deliverStale_masksKept _ _) (.refl _))
  unfold replaceEvent
  split
  · exact lost _
  · exact rel_ite (lost _) (rel_ite (.refl u) (rel_ite ((reported u _ _).trans (deliverStale_masksKept _ _)) (.refl u)))

/-! ### The other timers (R101, R153, R185, R215) -/

theorem tareTimeout_masksKept (s : State) : MasksKept s (tareTimeout s) := by
  unfold tareTimeout
  split
  · exact rel_ite (endTare_masksKept _ s) (.refl s)
  · exact .refl s

theorem permitExpiry_masksKept (s : State) : MasksKept s (permitExpiry s) := by
  unfold permitExpiry
  split
  · exact rel_ite (expirePermit_masksKept s) (.refl s)
  · exact .refl s

/-- Senses and their timer stand beside the masks. -/
theorem setSense_masksKept (s : State) (x : Vector LineSense 6) (n : Nat) :
    MasksKept s (s.setHls { s.hls with sense := x, senseTimer := n }) := id

theorem senseExpiry_masksKept (levels : LineMask) (s : State) : MasksKept s (senseExpiry levels s) := by
  have reported (r : Report) (bodies : List (List Byte)) (u : State) : MasksKept u (u.queueAll r bodies) :=
    MasksKept.portFree.foldl (f := fun u body => u.queueReport r body) (fun _ _ => id) bodies u
  exact rel_ite ((setSense_masksKept s _ _).trans ((setSense_masksKept _ _ _).trans ((reported _ _ _).trans
    (rel_ite (present_masksKept (by simp) _ _) (.refl _))))) (.refl s)

theorem discardExpiry_masksKept (i : Fin 4) (s : State) : MasksKept s (discardExpiry i s) := by
  unfold discardExpiry
  split
  · exact rel_ite id (.refl s)
  · exact .refl s

/-! ### The operating states and the starts (R176, R192 to R195, R203, R204) -/

theorem changeState_masksKept (new : OpState) (s : State) : MasksKept s (changeState new s) := by
  have changed : MasksKept s (s.setStc { s.stc with op := new }) := id
  refine changed.trans (runAny_masksKept (fun f hf u => ?_) _)
  rw [stateHandOvers_eq] at hf
  obtain rfl | hf := List.mem_cons.1 hf
  · exact id
  obtain rfl | rfl | rfl | rfl | rfl | rfl := mem_stateOthers hf
  · exact present_masksKept (by simp) _ u
  · exact rel_ite id (.refl u)
  · exact id
  · exact cpmTake_masksKept _ u
  · exact endCal_masksKept _ u
  · exact (endWaitingPass_onlyBus _ u).masksKept

/-- The settings are installed in any order, and the entries made match nothing (R176, R194). -/
theorem install_masksKept (good : Bool) (c : ImageContents) (s : State) : MasksKept s (install good c s) := by
  have configured (u : State) (g : Settings) : MasksKept u (u.setCfg g) := id
  rw [install_eq]
  refine (configured s _).trans (runAny_masksKept (fun f hf u => ?_) _)
  obtain rfl | rfl | rfl | rfl | rfl := mem_installers hf
  · exact id
  · exact (configured u _).trans (recompute_masksKept _)
  · exact (configured u _).trans (rel_ite (.refl _) id)
  · exact (configured u _).trans (cpmEvaluate_masksKept _)
  · exact fun _ => makeEntries_held _ u

theorem preloadDone_masksKept (readFailed : Bool) (s : State) : MasksKept s (preloadDone readFailed s) := by
  have marked (u : State) (c : Stc) : MasksKept u (u.setStc c) := id
  exact rel_ite ((install_masksKept _ _ s).trans ((marked _ _).trans (changeState_masksKept _ _))) (.refl s)

/-- A reset leaves no source asking for a line and no entry matching, whatever it retains (R176, R190). -/
theorem afterReset_masksKept (warm : Bool) (s : State) : MasksKept s (afterReset warm s) := by
  intro _ k
  have empty : (afterReset warm s).hls.masks.watch[k] = 0#6 := State.reset_watchHeld k |>.trans (Wt.reset_request k)
  rw [empty]
  cases warm with
  | false => exact (Wt.reset_request k).symm
  | true =>
    have unmatched (j : Fin 8) : (retainedEntries s.wt.entries)[j].matching = false := by simp [retainedEntries, WatchEntry.of]
    exact (Wt.request_none unmatched (fun c => by simp [afterReset, Wt.reset]) k).symm

theorem supplyLoss_masksKept (backupInterrupted : Bool) (s : State) : MasksKept s (supplyLoss backupInterrupted s) :=
  afterReset_masksKept true s

theorem commitEnd_masksKept (ok : Bool) (s : State) : MasksKept s (commitEnd ok s) := by
  unfold commitEnd
  split
  · exact rel_ite id id
  · exact .refl s

theorem restartDue_masksKept (p : Port) (f : Option OutFrame) (s : State) : MasksKept s (restartDue p f s) := by
  unfold restartDue
  split
  · exact rel_ite id (.refl s)
  · exact .refl s

theorem portBreak_masksKept (p : Port) (s : State) : MasksKept s (portBreak p s) := by
  have dropped (u : State) : MasksKept u (dropPass u) := rel_ite id (.refl u)
  exact rel_ite (.refl s) ((MasksKept.portFree.mpt s _).trans ((rel_ite (dropped _) (.refl _)).trans (restartDue_masksKept _ _ _)))

end Sys2Proof.Machine
end

section
/-! PROOFS. The WATCH sources at requests, at every command and at every step (R161 to R166, R173, R176): O10. -/

namespace Sys2Proof.Machine

/-! ### The requests to WT and to the hold lines (R170, R173, R174, R181, R188) -/

section owners
variable (p : Port) (body : List Byte) (s : State)

theorem serveWatchWrite_masksKept : MasksKept s (serveWatchWrite p body s).2 := by
  unfold serveWatchWrite
  split
  · exact .refl s
  · split
    · exact .refl s
    · split
      · exact .refl s
      · exact takeWatchWrite_held _ _

/-- HIT_CLEAR changes no match state (R174). -/
theorem serveHitClear_masksKept : MasksKept s (serveHitClear p body s).2 := by
  intro held k
  have cleared := hitsCleared_get p (byteAt body 0) s.wt
  have pairs : (hitsCleared p (byteAt body 0) s.wt).pairs = s.wt.pairs := rfl
  exact (held k).trans (Wt.request_congr (fun j => by rw [cleared]) (fun j => by rw [cleared]) pairs k).symm

theorem serveCaptureRead_masksKept : MasksKept s (serveCaptureRead p body s).2 := by
  unfold serveCaptureRead
  split <;> exact id

theorem serveHoldManual_masksKept : MasksKept s (serveHoldManual p body s).2 := by
  unfold serveHoldManual
  split
  · exact present_masksKept (by simp) _ s
  · exact .refl s

theorem serveLineFaultClear_masksKept : MasksKept s (serveLineFaultClear p body s).2 := by
  unfold serveLineFaultClear
  split
  · exact (setSense_masksKept s _ _).trans (rel_ite (present_masksKept (by simp) _ _) (.refl _))
  · exact .refl s

/-! ### The requests whose work hands on to WT (R17, R130, R132, R138, R139, R152, R198, R202) -/

theorem servePollWrite_masksKept : MasksKept s (servePollWrite p body s).2 := by
  unfold servePollWrite
  have judged := MasksKept.portFree.eitherRefusal (if s.committing then some .busy else none) (pollRefusal (pollDefsOf body)) s
  dsimp only
  split
  · next e =>
    rw [e] at judged
    exact judged
  · next e =>
    rw [e] at judged
    exact judged.trans (takePollWrite_masksKept _ _)

theorem serveVoidLift_masksKept : MasksKept s (serveVoidLift p body s).2 := by
  have reversed (t : Tlu) : MasksKept s (s.setTlu t) := id
  unfold serveVoidLift
  split
  · exact .refl s
  · exact (reversed _).trans (handBunkTotal_masksKept _ _)

theorem serveAssignLift_masksKept : MasksKept s (serveAssignLift p body s).2 := by
  have assigned (t : Tlu) : MasksKept s (s.setTlu t) := id
  unfold serveAssignLift
  split
  · exact .refl s
  · exact (assigned _).trans (.trans (rel_ite (reportTripClosed_masksKept _ _) (.refl _)) (handBunkTotal_masksKept _ _))

theorem serveTripClose_masksKept : MasksKept s (serveTripClose p body s).2 := by
  have closed (t : Tlu) : MasksKept s (s.setTlu t) := id
  unfold serveTripClose
  split
  · exact (closed _).trans ((reportTripClosed_masksKept _ _).trans (handBunkTotal_masksKept _ _))
  · exact .refl s

theorem serveChartWrite_masksKept : MasksKept s (serveChartWrite p body s).2 := by
  unfold serveChartWrite
  have judged := MasksKept.portFree.eitherRefusal (if s.committing then some .busy else none)
    (if runAllowed (natAt body 0 1) (natAt body 1 1) then none else some .badField) s
  have configured (u : State) (c : Settings) : MasksKept u (u.setCfg c) := id
  split
  · next e =>
    rw [e] at judged
    exact judged
  · next e =>
    rw [e] at judged
    exact (judged.trans (configured _ _)).trans (cpmEvaluate_masksKept _)

theorem serveOverrideSet_masksKept : MasksKept s (serveOverrideSet p body s).2 := by
  unfold serveOverrideSet
  split
  · next i o _ => exact cpmTake_masksKept (fun c => { c with overrides := c.overrides.set i o }) s
  · exact .refl s

theorem servePermit_masksKept : MasksKept s (servePermit p body s).2 := by
  unfold servePermit
  split
  · exact .refl s
  · split
    · exact .refl s
    · split
      · exact .refl s
      · exact startPermit_masksKept s

/-- The act of a parameter's block: a recomputation, an evaluation, or nothing WT reads (R55, R86, R93, R141). -/
theorem Param.act_masksKept (q : Param) (v : Int) (s : State) : MasksKept s (q.act v s) := by
  cases q
  case l1 | l2 | teleMax | column | slewOff | slewLo | slewHi | reachLo | reachHi => exact recompute_masksKept s
  case pageSize | k | fMin | uWarn | uHold | uRel => exact cpmEvaluate_masksKept s
  case z | span | lMin | d | rs | rm | n | nMin | zb | permitS => exact id

theorem takeParam_masksKept (q : Param) (v : Int) (s : State) : MasksKept s (takeParam q v s) := by
  have stored (c : Settings) : MasksKept s (s.setCfg c) := id
  exact (stored _).trans (q.act_masksKept v _)

theorem serveParamWrite_masksKept : MasksKept s (serveParamWrite p body s).2 := by
  unfold serveParamWrite
  split
  · exact .refl s
  · dsimp only
    split
    · exact .refl s
    · split
      · exact .refl s
      · exact takeParam_masksKept _ _ s

theorem serveFeatures_masksKept : MasksKept s (serveFeatures p body s).2 := by
  have configured (u : State) (c : Settings) : MasksKept u (u.setCfg c) := id
  have emptied (u : State) (w : Wge) : MasksKept u (u.setWge w) := id
  have switched (w : Switches) : MasksKept s (takeSwitches w s) :=
    (configured _ _).trans (.trans (rel_ite (.refl _) (emptied _ _)) (cpmEvaluate_masksKept _))
  unfold serveFeatures
  split
  · exact .refl s
  · exact switched _

theorem serveEnterService_masksKept : MasksKept s (serveEnterService p body s).2 := by
  unfold serveEnterService
  split
  · exact .refl s
  · split
    · exact .refl s
    · exact changeState_masksKept _ s

theorem serveLeaveService_masksKept : MasksKept s (serveLeaveService p body s).2 := by
  unfold serveLeaveService
  split
  · exact .refl s
  · split
    · exact .refl s
    · exact changeState_masksKept _ s

theorem serveStandby_masksKept : MasksKept s (serveStandby p body s).2 := by
  unfold serveStandby
  split
  · exact .refl s
  · exact changeState_masksKept _ s

/-! ### The other requests -/

theorem serveSensorPass_masksKept : MasksKept s (serveSensorPass p body s).2 := by
  refine MasksKept.portFree.serveDelayed _ _ _ (fun _ u => MasksKept.portFree.eitherRefusal _ _ u) (fun u => ?_) s
  cases passOf body with
  | none => exact .refl u
  | some x =>
    have waits : MasksKept u (u.setSbc { u.sbc with pass := some x }) := id
    exact waits.trans (rel_ite (endWaitingPass_onlyBus _ _).masksKept (.refl _))

theorem serveBusRestart_masksKept : MasksKept s (serveBusRestart p body s).2 := by
  unfold serveBusRestart
  split
  · split <;> exact id
  · split <;> exact id
  · exact .refl s
  · exact .refl s

theorem serveTare_masksKept : MasksKept s (serveTare p body s).2 := by
  have begun (u : State) : MasksKept u (startTare p u) := id
  exact MasksKept.portFree.serveDelayed p .tare body (fun _ u => .refl u)
    (fun u => rel_ite ((begun u).trans (endTare_masksKept _ _)) (begun u)) s

theorem serveCalSpan_masksKept : MasksKept s (serveCalSpan p body s).2 := by
  have begun (mref : Nat) (u : State) : MasksKept u (startCal mref u) := id
  exact MasksKept.portFree.serveDelayed p .calSpan body (fun _ u => .refl u)
    (fun u => rel_ite ((begun _ u).trans (endCal_masksKept _ _)) (begun _ u)) s

theorem serveCommit_masksKept : MasksKept s (serveCommit p body s).2 := by
  have begun (u : State) : MasksKept u (startCommit u) := id
  exact MasksKept.portFree.serveDelayed p .commit body (fun _ u => .refl u) begun s

theorem serveSetAssortment_masksKept : MasksKept s (serveSetAssortment p body s).2 := by
  unfold serveSetAssortment
  dsimp only
  split <;> exact id

theorem serveRestart_masksKept : MasksKept s (serveRestart p body s).2 := by
  unfold serveRestart
  split <;> exact id

theorem serveReportEnable_masksKept : MasksKept s (serveReportEnable p body s).2 := by
  unfold serveReportEnable
  dsimp only
  split <;> exact id

end owners

/-- What an owner makes of any request keeps the WATCH sources right (R207, row 8). -/
theorem serve_masksKept (r : Req) (p : Port) (body : List Byte) (s : State) : MasksKept s (serve r p body s).2 := by
  cases r
  case pose | sensors | pollRead | tallyRead | logRead | tripRead | chartRead | watchRead | linesRead | paramRead =>
    rw [serve_reads rfl]
    exact .refl s
  case status | defineAssortment | deleteAssortment | totalsReset => exact id
  case pollWrite => exact servePollWrite_masksKept p body s
  case sensorPass => exact serveSensorPass_masksKept p body s
  case busRestart => exact serveBusRestart_masksKept p body s
  case setAssortment => exact serveSetAssortment_masksKept p body s
  case voidLift => exact serveVoidLift_masksKept p body s
  case assignLift => exact serveAssignLift_masksKept p body s
  case tripClose => exact serveTripClose_masksKept p body s
  case tare => exact serveTare_masksKept p body s
  case calSpan => exact serveCalSpan_masksKept p body s
  case chartWrite => exact serveChartWrite_masksKept p body s
  case overrideSet => exact serveOverrideSet_masksKept p body s
  case permit => exact servePermit_masksKept p body s
  case watchWrite => exact serveWatchWrite_masksKept p body s
  case hitClear => exact serveHitClear_masksKept p body s
  case captureRead => exact serveCaptureRead_masksKept p body s
  case holdManual => exact serveHoldManual_masksKept p body s
  case lineFaultClear => exact serveLineFaultClear_masksKept p body s
  case paramWrite => exact serveParamWrite_masksKept p body s
  case features => exact serveFeatures_masksKept p body s
  case enterService => exact serveEnterService_masksKept p body s
  case leaveService => exact serveLeaveService_masksKept p body s
  case standby => exact serveStandby_masksKept p body s
  case commit => exact serveCommit_masksKept p body s
  case restart => exact serveRestart_masksKept p body s
  case reportEnable => exact serveReportEnable_masksKept p body s

/-! ### Every command and every step -/

theorem exec_masksKept {c : Instr} {s t : State} (h : exec c s = .next t) : MasksKept s t := by
  have pf := MasksKept.portFree
  have wakes (u : State) : MasksKept u (wake u) := changeState_masksKept .run u
  have onBus : ∀ {f : State → State}, (∀ u, OnlyBus u (f u)) → completes f s = .next t → MasksKept s t :=
    fun hf h => pf.completes (fun u => (hf u).masksKept) h
  cases c
  case powerOn => cases h; exact afterReset_masksKept _ s
  case supplyLoss => cases h; exact supplyLoss_masksKept _ s
  case restartReset => exact pf.completes (fun u => rel_ite (afterReset_masksKept true u) (.refl u)) h
  case preloadDone => exact pf.completes (preloadDone_masksKept _) h
  case roundTimerExpiry => exact onBus roundTimerExpiry_onlyBus h
  case pollTransactionDone => exact pf.completes (pollTransactionDone_masksKept _) h
  case stretchTimeout => exact onBus stretchTimeout_onlyBus h
  case sensorStale => exact pf.completes (sensorStale_masksKept _) h
  case busFreePulseEnd => exact onBus busFreePulseEnd_onlyBus h
  case recoveryWaitEnd => exact onBus (recoveryWaitEnd_onlyBus _) h
  case recoveryAttempt => exact onBus recoveryAttempt_onlyBus h
  case attemptWaitEnd => exact onBus (attemptWaitEnd_onlyBus _) h
  case passthroughDone => exact onBus (passthroughDone_onlyBus _) h
  case tareTimeout => exact pf.completes tareTimeout_masksKept h
  case permitExpiry => exact pf.completes permitExpiry_masksKept h
  case senseExpiry => exact pf.completes (senseExpiry_masksKept _) h
  case discardExpiry => exact pf.completes (discardExpiry_masksKept _) h
  case frameGapTimeout | lineReturnsToIdle => exact pf.completes (fun u => rel_ite (pf.mpt u _) (pf.refl u)) h
  case frameBadCheck | stopBitLow => exact pf.completes (fun u => pf.mpt u _) h
  case unknownKind | frameHeld | standbyWake => exact pf.completes (pf.takeAny serve_masksKept wakes _ _ _) h
  case heldFrameHandled => exact pf.completes (pf.heldFrame serve_masksKept wakes _) h
  case frameSent => exact pf.completes (fun u => (pf.mpt u _).trans (restartDue_masksKept _ _ _)) h
  case portBreak => exact pf.completes (portBreak_masksKept _) h
  case commitDone => exact pf.completes (commitEnd_masksKept _) h
  case byteArrival => exact pf.completes (pf.byteIn serve_masksKept wakes _ _) h
  all_goals exact pf.completes (pf.takeRequest serve_masksKept wakes _ _ _) h

/-- Settles O10: an entry judged afresh acts on its own or its pair's edge (`judgeEdge_held`), a taken write withdraws just what it
ends (`takeWatchWrite_held`), entries made or reset ask for nothing (`makeEntries_held`, `afterReset_masksKept`), and no other
operation touches a WATCH source or what it reads (`exec_masksKept`). -/
theorem watchMasksKept : Obligations.WatchMasksKept := by
  intro s t held h
  obtain ⟨c, rest, -, runs⟩ | ⟨-, rfl⟩ := step_cases h
  · have waited : MasksKept s (s.setPending rest) := id
    exact exec_masksKept runs (waited held)
  · have passes : MasksKept s (tick s) := rel_ite id (.refl s)
    exact passes held

end Sys2Proof.Machine
end

section
/-! PROOFS. Commanded levels, primary causes, and what a presentation changes and reports (R177, R178, R183, R184): O56. -/

namespace Sys2Proof.Machine

/-! ### Levels and causes (R177, R178, R183) -/

theorem HoldSource.mem_ranked (src : HoldSource) : src ∈ HoldSource.ranked := by
  cases src with
  | state | fault | cap | manual => decide
  | watch k => revert k; decide

/-- The sources stand in the order of their numbers. -/
theorem HoldSource.ranked_sorted :
    HoldSource.ranked.Pairwise (fun a b => sourceNum (some a) ≤ sourceNum (some b)) := by decide

theorem HoldMasks.level_iff (m : HoldMasks) (l : Line) : m.level l = true ↔ ∃ src, names (m.get src) l = true := by
  simp only [HoldMasks.level, List.any_eq_true, HoldSource.mem_ranked, true_and]

theorem HoldMasks.cause_none_iff (m : HoldMasks) (l : Line) : m.cause l = none ↔ m.level l = false := by
  unfold HoldMasks.cause HoldMasks.level
  rw [List.find?_eq_none, List.any_eq_false]

theorem HoldMasks.cause_names {m : HoldMasks} {l : Line} {src : HoldSource} (h : m.cause l = some src) :
    names (m.get src) l = true :=
  List.find?_some (p := fun src => names (m.get src) l) h

/-- Of the sources before the primary cause none names the line, and those after it rank lower (R183). -/
theorem HoldMasks.cause_highest {m : HoldMasks} {l : Line} {src other : HoldSource} (h : m.cause l = some src)
    (named : names (m.get other) l = true) : sourceNum (some src) ≤ sourceNum (some other) := by
  obtain ⟨-, before, after, listing, unnamed⟩ := List.find?_eq_some_iff_append.1 h
  have sorted := HoldSource.ranked_sorted
  have listed := HoldSource.mem_ranked other
  rw [listing] at sorted listed
  rcases List.mem_append.1 listed with earlier | later
  · have no := unnamed other earlier
    simp [named] at no
  · rcases List.mem_cons.1 later with rfl | later
    · exact Nat.le_refl _
    · exact (List.pairwise_cons.1 (List.pairwise_append.1 sorted).2.1).1 other later

theorem HoldMasks.cause_state {m : HoldMasks} {l : Line} (h : names m.state l = true) : m.cause l = some .state :=
  List.find?_cons_of_pos h

/-- The six levels as a mask name the lines commanded ACTIVE. -/
theorem HoldMasks.names_levels (m : HoldMasks) (l : Line) : names m.levels l = m.level l := by
  simp [HoldMasks.levels, HoldMasks.level, HoldSource.ranked, names, HoldMasks.get, BitVec.getLsbD_or, Bool.or_assoc]

theorem State.names_outputs (s : State) (l : Line) : names s.outputs l = (s.powered && s.hls.masks.level l) := by
  unfold State.outputs
  cases s.powered
  · simp [names]
  · exact s.hls.masks.names_levels l

/-! ### Presentations (R178, R184) -/

theorem present_hls (src : HoldSource) (mask : LineMask) (s : State) :
    (present src mask s).hls = { s.hls with masks := s.hls.masks.put src mask } := by
  obtain ⟨m, rest, -⟩ := present_rest src mask s
  rw [rest]
  rfl

/-- Settles O56: the primary cause is the first of the ranked sources that name the line (`HoldMasks.cause_highest`), and a
presentation puts one mask (`present_hls`). -/
theorem levelsAndCauses : Obligations.LevelsAndCauses := by
  refine ⟨fun m l => ⟨m.level_iff l, m.cause_none_iff l, HoldMasks.cause_state, fun src h =>
    ⟨HoldMasks.cause_names h, fun other => HoldMasks.cause_highest h⟩, m.names_levels l⟩, fun s l => ⟨fun on => ?_, fun off => ?_⟩,
    fun src mask s => ⟨?_, ?_, fun other ne => ?_, ?_⟩⟩
  · rw [s.names_outputs, on, Bool.true_and]
  · rw [s.names_outputs, off, Bool.false_and]
  · rw [present_hls]
  · rw [present_hls, HoldMasks.get_put_same]
  · rw [present_hls, HoldMasks.get_put_other _ _ ne]
  · rw [present_hls]
    exact present_queued src mask s

end Sys2Proof.Machine
end

section
/-! PROOFS. Sampling and clearing of the six lines, and the FAULT source after them (R181, R182, R184 to R186, R188): O57 and O58. -/

namespace Sys2Proof.Machine

/-! ### Lines by number -/

theorem Line.idx_val (l : Line) : l.idx.val = l.num := by cases l <;> rfl

theorem Line.mem_all (l : Line) : l ∈ Line.all := by cases l <;> decide

/-! ### FAULT flags (R182, R186) -/

/-- The FAULT source's mask reads the flags of the motion lines alone (R182). -/
theorem faultMask_congr {old new : Vector LineSense 6} (same : ∀ l : Line, l ≠ .alert → (new[l.idx]).fault = (old[l.idx]).fault) :
    faultMask new = faultMask old := by
  have any : (Line.all.filter (fun l => l ≠ .alert)).any (fun l => (new[l.idx]).fault) =
      (Line.all.filter (fun l => l ≠ .alert)).any (fun l => (old[l.idx]).fault) := by
    rw [Bool.eq_iff_iff, List.any_eq_true, List.any_eq_true]
    exact exists_congr fun l => and_congr_right fun motion => by rw [same l (of_decide_eq_true (List.mem_filter.1 motion).2)]
  unfold faultMask
  rw [any]

/-- Where flags are only set, and none of a motion line is, FAULT's mask stays (R182, R186). -/
theorem faultMask_of_no_newFaults {old new : Vector LineSense 6}
    (grows : ∀ l : Line, (old[l.idx]).fault = true → (new[l.idx]).fault = true)
    (unset : ¬((newFaults old new).any (fun l => l ≠ .alert)) = true) : faultMask new = faultMask old := by
  refine faultMask_congr fun l motion => ?_
  cases was : (old[l.idx]).fault with
  | true => exact grows l was
  | false =>
    refine Bool.eq_false_iff.2 fun is => unset (List.any_eq_true.2 ⟨l, ?_, decide_eq_true motion⟩)
    exact List.mem_filter.2 ⟨l.mem_all, by rw [was, is]; rfl⟩

/-! ### A presentation that a condition calls for -/

theorem holdChanges_reports (old new : HoldMasks) :
    (holdChanges old new).map (fun b => (Report.holdChange, b)) = holdReports old new := by
  simp only [holdChanges, holdReports, List.map_map]
  refine List.map_congr_left (fun l _ => ?_)
  cases active : new.level l <;> simp [holdChangeBody, levelNum, active]

theorem holdReports_self (m : HoldMasks) : holdReports m m = [] := by simp [holdReports]

section presentIf
variable (c : Prop) [Decidable c] (src : HoldSource) (mask : LineMask) (s : State)

theorem presentIf_hls : (if c then present src mask s else s).hls =
    { s.hls with masks := if c then s.hls.masks.put src mask else s.hls.masks } := by
  split
  · exact present_hls src mask s
  · rfl

/-- The HOLD_CHANGE reports join whatever other kinds are asked about with them (R184). -/
theorem presentIf_queued {kinds : List Report} (asked : .holdChange ∈ kinds) :
    Queued kinds (holdReports s.hls.masks (if c then present src mask s else s).hls.masks) s
      (if c then present src mask s else s) := by
  split
  · have masked : Queued kinds [] s (s.setHls { s.hls with masks := s.hls.masks.put src mask }) := .same fun _ => ⟨rfl, rfl, rfl⟩
    rw [present_hls, ← holdChanges_reports]
    exact masked.after (queueAll_queued asked _ _)
  · rw [holdReports_self]
    exact .refl _ s

theorem presentIf_sameBehindLines : SameBehindLines s (if c then present src mask s else s) :=
  rel_ite (present_sameBehindLines src mask s) (.refl s)

end presentIf

theorem queueAll_sameBehindLines (s : State) (r : Report) (bodies : List (List Byte)) : SameBehindLines s (s.queueAll r bodies) := by
  obtain ⟨m, rest, slots⟩ := queueAll_rest s r bodies
  rw [rest]
  exact ⟨slots, rfl⟩

theorem setHls_sameBehindLines (s : State) (h : Hls) : SameBehindLines s (s.setHls h) := ⟨rfl, rfl⟩

theorem queueAll_hls (s : State) (r : Report) (bodies : List (List Byte)) : (s.queueAll r bodies).hls = s.hls := by
  obtain ⟨m, rest, -⟩ := queueAll_rest s r bodies
  rw [rest]
  rfl

/-- The blocks that stand behind the hold lines. -/
theorem SameBehindLines.blocks {s t : State} (h : SameBehindLines s t) :
    t.sbc = s.sbc ∧ t.pos = s.pos ∧ t.wge = s.wge ∧ t.tlu = s.tlu ∧ t.cpm = s.cpm ∧ t.wt = s.wt ∧ t.stc = s.stc := by
  obtain ⟨-, rest⟩ := h
  rw [rest]
  exact ⟨rfl, rfl, rfl, rfl, rfl, rfl, rfl⟩

/-! ### A sense expiry (R185, R186) -/

theorem LineSense.sample_agrees (x : LineSense) (level : Bool) :
    x.sample level level = { observed := some level, mismatches := 0, fault := x.fault } := by
  simp [LineSense.sample]

/-- The count goes up, and the flag is set once it is 3. -/
theorem LineSense.sample_differs (x : LineSense) {observed commanded : Bool} (h : observed ≠ commanded) :
    x.sample observed commanded =
      { observed := some observed, mismatches := min 3 (x.mismatches + 1), fault := x.fault || decide (2 ≤ x.mismatches) } := by
  have three : (min 3 (x.mismatches + 1) == 3) = decide (2 ≤ x.mismatches) := by
    rw [Bool.eq_iff_iff, beq_iff_eq, decide_eq_true_eq]
    omega
  simp [LineSense.sample, h, three]

theorem LineSense.sample_observed (x : LineSense) (observed commanded : Bool) :
    (x.sample observed commanded).observed = some observed := rfl

/-- A FAULT flag that is set stays. -/
theorem LineSense.sample_fault {x : LineSense} (h : x.fault = true) (observed commanded : Bool) :
    (x.sample observed commanded).fault = true := by
  simp [LineSense.sample, h]

/-- Each line is sampled against its own commanded level. -/
theorem Hls.sample_line (h : Hls) (levels : LineMask) (l : Line) :
    (h.sample levels)[l.idx] = (h.sense[l.idx]).sample (names levels l) (h.masks.level l) := by
  simp only [Hls.sample, Fin.getElem_fin, Vector.getElem_ofFn, ← HoldMasks.names_levels, names, ← Line.idx_val]

theorem Hls.sample_grows (h : Hls) (levels : LineMask) (l : Line) (was : (h.sense[l.idx]).fault = true) :
    ((h.sample levels)[l.idx]).fault = true := by
  rw [h.sample_line]
  exact LineSense.sample_fault was _ _

/-- The lines sampled and LINE_FAULT queued, before FAULT presents. -/
def sensed (levels : LineMask) (s : State) : State :=
  (s.setHls { s.hls with sense := s.hls.sample levels }).queueAll .lineFault
    ((newFaults s.hls.sense (s.hls.sample levels)).map (lineFaultBody { s.hls with sense := s.hls.sample levels }))

theorem sense_eq (levels : LineMask) (s : State) : sense levels s =
    if (newFaults s.hls.sense (s.hls.sample levels)).any (fun l => l ≠ .alert) = true then
      present .fault (faultMask (s.hls.sample levels)) (sensed levels s) else sensed levels s := rfl

theorem sensed_hls (levels : LineMask) (s : State) : (sensed levels s).hls = { s.hls with sense := s.hls.sample levels } :=
  queueAll_hls _ _ _

theorem sense_sameBehindLines (levels : LineMask) (s : State) : SameBehindLines s (sense levels s) := by
  have sampled : SameBehindLines s (sensed levels s) :=
    (setHls_sameBehindLines s _).trans (queueAll_sameBehindLines _ _ _)
  rw [sense_eq]
  exact sampled.trans (presentIf_sameBehindLines _ _ _ _)

/-- The hold lines after a sense expiry: the samples, and FAULT's mask where a motion line is newly faulty (R182, R186). -/
theorem sense_hls (levels : LineMask) (s : State) : (sense levels s).hls = { s.hls with
    sense := s.hls.sample levels
    masks := if (newFaults s.hls.sense (s.hls.sample levels)).any (fun l => l ≠ .alert) = true then
      s.hls.masks.put .fault (faultMask (s.hls.sample levels)) else s.hls.masks } := by
  rw [sense_eq, presentIf_hls, sensed_hls]

/-- The LINE_FAULT reports of the lines newly faulty (R186). -/
theorem lineFaultBody_sampled (h : Hls) (levels : LineMask) (l : Line) :
    lineFaultBody { h with sense := h.sample levels } l =
      be1 l.num ++ be1 (if h.masks.level l = true then 1 else 0) ++ be1 (if names levels l = true then 1 else 0) := by
  unfold lineFaultBody
  rw [h.sample_line, LineSense.sample_observed]
  cases h.masks.level l <;> cases names levels l <;> rfl

theorem sense_queued (levels : LineMask) (s : State) : Queued [.lineFault, .holdChange]
    ((newFaults s.hls.sense (s.hls.sample levels)).map (fun l => (.lineFault, be1 l.num ++
      be1 (if s.hls.masks.level l = true then 1 else 0) ++ be1 (if names levels l = true then 1 else 0))) ++
      holdReports s.hls.masks (sense levels s).hls.masks) s (sense levels s) := by
  have sampled : Queued [.lineFault, .holdChange] [] s (s.setHls { s.hls with sense := s.hls.sample levels }) :=
    .same fun _ => ⟨rfl, rfl, rfl⟩
  have faults := sampled.after (queueAll_queued (r := .lineFault) (by decide)
    ((newFaults s.hls.sense (s.hls.sample levels)).map (lineFaultBody { s.hls with sense := s.hls.sample levels })) _)
  simp only [List.map_map, Function.comp_def, lineFaultBody_sampled] at faults
  have held := presentIf_queued ((newFaults s.hls.sense (s.hls.sample levels)).any (fun l => l ≠ .alert) = true) .fault
    (faultMask (s.hls.sample levels)) (sensed levels s) (kinds := [.lineFault, .holdChange]) (by decide)
  rw [← sense_eq, sensed_hls] at held
  exact faults.trans held

/-- The sense timer run on for 10 ms (R185). -/
def senseTimed (s : State) : State := s.setHls { s.hls with senseTimer := s.hls.senseTimer + 10 }

theorem senseExpiry_due {s : State} (due : s.hls.senseTimer ≤ s.now) (levels : LineMask) :
    senseExpiry levels s = sense levels (senseTimed s) := if_pos due

theorem sense_senseTimed_line (levels : LineMask) (s : State) (l : Line) : (sense levels (senseTimed s)).hls.sense[l.idx] =
    (s.hls.sense[l.idx]).sample (names levels l) (s.hls.masks.level l) := by
  rw [sense_hls]
  exact (senseTimed s).hls.sample_line levels l

/-- Settles O58: with the timer run on, the lines are sampled one by one (`Hls.sample_line`), and LINE_FAULT goes before what FAULT's
presentation queues (`sense_queued`). -/
theorem senseExpiryResult : Obligations.SenseExpiryResult := by
  intro levels s powered due
  have timed : Queued [.lineFault, .holdChange] [] s (senseTimed s) := .same fun _ => ⟨rfl, rfl, rfl⟩
  have queued := timed.after (sense_queued levels (senseTimed s))
  have behind := (setHls_sameBehindLines s _).trans (sense_sameBehindLines levels (senseTimed s))
  have hls := sense_hls levels (senseTimed s)
  refine ⟨_, sense levels (senseTimed s), by rw [← senseExpiry_due due]; exact completes_powered powered, rfl, ?_, ?_,
    fun l => ?_, fun src other => ?_, behind.blocks⟩
  · rw [pump_hls, hls]
    rfl
  · rw [pump_hls]
    rw [hls] at queued ⊢
    exact queued
  · rw [pump_hls, sense_senseTimed_line]
    refine ⟨rfl, fun agrees => ?_, fun differs => ?_⟩
    · rw [agrees, LineSense.sample_agrees]
      exact ⟨rfl, rfl⟩
    · rw [LineSense.sample_differs _ differs, Bool.or_eq_true, decide_eq_true_eq]
      exact ⟨rfl, Iff.rfl⟩
  · rw [pump_hls, hls]
    dsimp only
    split
    · exact HoldMasks.get_put_other _ _ other
    · rfl

/-! ### HOLD_MANUAL and LINE_FAULT_CLEAR (R181, R188) -/

/-- A body that marks an unknown line, and one that does not (R181, R188). -/
theorem linesAt_unknown {b : Byte} (h : 64 ≤ b.toNat) : linesAt [b] 0 = none := by
  unfold linesAt
  rw [natAt_byte, if_neg (by omega)]

theorem linesAt_known {b : Byte} (h : b.toNat < 64) : linesAt [b] 0 = some (BitVec.ofNat 6 b.toNat) := by
  unfold linesAt
  rw [natAt_byte, if_pos h]

/-- The lines' senses with the FAULT flags and counts of the marked lines cleared (R188). -/
def faultsCleared (marks : LineMask) (old : Vector LineSense 6) : Vector LineSense 6 :=
  Vector.ofFn (fun i : Fin 6 => if marks.getLsbD i then { old[i] with mismatches := 0, fault := false } else old[i])

theorem clearFaults_eq (marks : LineMask) (s : State) : clearFaults marks s =
    if (linesOf marks).any (fun l => l ≠ .alert && (s.hls.sense[l.idx]).fault) = true then
      present .fault (faultMask (faultsCleared marks s.hls.sense)) (s.setHls { s.hls with sense := faultsCleared marks s.hls.sense })
    else s.setHls { s.hls with sense := faultsCleared marks s.hls.sense } := rfl

theorem faultsCleared_get (marks : LineMask) (old : Vector LineSense 6) (i : Fin 6) : (faultsCleared marks old)[i] =
    if marks.getLsbD i.val = true then { old[i] with mismatches := 0, fault := false } else old[i] := by
  simp [faultsCleared]

/-- Where no marked motion line was faulty, FAULT's mask stays (R182, R188). -/
theorem faultMask_faultsCleared {marks : LineMask} {old : Vector LineSense 6}
    (unset : ¬((linesOf marks).any (fun l => l ≠ .alert && (old[l.idx]).fault)) = true) :
    faultMask (faultsCleared marks old) = faultMask old := by
  refine faultMask_congr fun l motion => ?_
  rw [faultsCleared_get]
  split
  · next marked =>
    rw [l.idx_val] at marked
    refine (Bool.eq_false_iff.2 fun was => unset (List.any_eq_true.2 ⟨l, ?_, ?_⟩)).symm
    · exact List.mem_filter.2 ⟨l.mem_all, marked⟩
    · rw [decide_eq_true motion, Bool.true_and]
      exact was
  · rfl

/-- The hold lines after a clearing, where FAULT presented what the flags called for (R182, R188). -/
theorem clearFaults_hls {s : State} (held : s.faultHeld) (marks : LineMask) : (clearFaults marks s).hls = { s.hls with
    sense := faultsCleared marks s.hls.sense
    masks := { s.hls.masks with fault := faultMask (faultsCleared marks s.hls.sense) } } := by
  rw [clearFaults_eq, presentIf_hls]
  dsimp only [State.setHls_hls]
  split
  · rfl
  · next unset =>
    rw [faultMask_faultsCleared unset, ← held]

theorem clearFaults_sameBehindLines (marks : LineMask) (s : State) : SameBehindLines s (clearFaults marks s) := by
  rw [clearFaults_eq]
  exact (setHls_sameBehindLines s _).trans (presentIf_sameBehindLines _ _ _ _)

theorem clearFaults_queued (marks : LineMask) (s : State) :
    Queued [.holdChange] (holdReports s.hls.masks (clearFaults marks s).hls.masks) s (clearFaults marks s) := by
  have cleared : Queued [.holdChange] [] s (s.setHls { s.hls with sense := faultsCleared marks s.hls.sense }) :=
    .same fun _ => ⟨rfl, rfl, rfl⟩
  rw [clearFaults_eq]
  exact cleared.after (presentIf_queued _ _ _ _ (by decide))

theorem heard_sameBehindLines (s : State) (p : Port) : SameBehindLines s (s.heard p) := ⟨by simp, rfl⟩

theorem getLsbD_ofNat_toNat (b : Byte) (i : Fin 6) : (BitVec.ofNat 6 b.toNat).getLsbD i.val = b.getLsbD i.val := by
  rw [BitVec.getLsbD_ofNat, decide_eq_true i.isLt, Bool.true_and]
  rfl

theorem ofNat_toNat_lines {b : Byte} (h : b.toNat < 64) : (BitVec.ofNat 6 b.toNat).toNat = b.toNat := by
  rw [BitVec.toNat_ofNat]
  exact Nat.mod_eq_of_lt h

section requests
variable {p : Port} {b : Byte} {s : State}

theorem serveHoldManual_taken (known : b.toNat < 64) :
    serve .holdManual p [b] s = (.ok (be1 b.toNat ++ be1 (present .manual (BitVec.ofNat 6 b.toNat) s).hls.masks.levels.toNat),
      present .manual (BitVec.ofNat 6 b.toNat) s) := by
  have body : manualBody (present .manual (BitVec.ofNat 6 b.toNat) s).hls =
      be1 b.toNat ++ be1 (present .manual (BitVec.ofNat 6 b.toNat) s).hls.masks.levels.toNat := by
    unfold manualBody
    rw [present_hls]
    exact congrArg (be1 · ++ _) (ofNat_toNat_lines known)
  rw [← body]
  simp only [serve, serveHoldManual, linesAt_known known]

theorem serveLineFaultClear_taken (known : b.toNat < 64) :
    serve .lineFaultClear p [b] s = (.ok (faultsBody (clearFaults (BitVec.ofNat 6 b.toNat) s).hls),
      clearFaults (BitVec.ofNat 6 b.toNat) s) := by
  simp only [serve, serveLineFaultClear, linesAt_known known]

end requests

/-- Settles O57: a known body is served on the state with its frame heard (`serveHoldManual_taken`, `serveLineFaultClear_taken`). -/
theorem holdLineRequests : Obligations.HoldLineRequests := by
  refine ⟨fun p b s admitted => ⟨fun unknown => ?_, fun known => ?_⟩, fun p b s admitted held => ⟨fun unknown => ?_, fun known => ?_⟩⟩
  · exact exec_refused admitted (by simp only [serve, serveHoldManual, linesAt_unknown unknown])
  · have hls := present_hls .manual (BitVec.ofNat 6 b.toNat) (s.heard p)
    have queued := (heard_quiet [.holdChange] s p).after (present_queued .manual (BitVec.ofNat 6 b.toNat) (s.heard p))
    refine ⟨_, exec_taken admitted (serveHoldManual_taken known), ?_, hls, ?_,
      ((heard_sameBehindLines s p).trans (present_sameBehindLines .manual _ _)).blocks⟩
    · rw [answered_hls]
      rfl
    · rw [answered_hls, hls]
      exact queued
  · exact exec_refused admitted (by simp only [serve, serveLineFaultClear, linesAt_unknown unknown])
  · have hls := clearFaults_hls (s := s.heard p) held (BitVec.ofNat 6 b.toNat)
    refine ⟨_, exec_taken admitted (serveLineFaultClear_taken known), ?_, ?_, fun i => ?_, ?_, ?_,
      ((heard_sameBehindLines s p).trans (clearFaults_sameBehindLines _ _)).blocks⟩
    · rw [answered_hls]
      rfl
    · rw [answered_hls]
      exact (heard_quiet [.holdChange] s p).after (clearFaults_queued _ _)
    · rw [answered_hls, hls, ← getLsbD_ofNat_toNat]
      exact faultsCleared_get _ _ _
    · rw [answered_hls, hls]
      rfl
    · rw [answered_hls, hls]
      rfl

end Sys2Proof.Machine
end

section
/-! PROOFS. STATE and FAULT through the hold stage, the deliveries, the bus and the operating states (R179, R182, R192): the ground of
O8. -/

namespace Sys2Proof.Machine

/-! ### What has no part in STATE and FAULT -/

/-- STATE goes on presenting what the operating state calls for, and FAULT what the FAULT flags call for, if they did. -/
structure HoldsKept (s t : State) : Prop where
  state : s.stateHeld → t.stateHeld
  fault : s.faultHeld → t.faultHeld

theorem HoldsKept.refl (s : State) : HoldsKept s s := ⟨id, id⟩

theorem HoldsKept.trans {s t u : State} (h : HoldsKept s t) (k : HoldsKept t u) : HoldsKept s u :=
  ⟨k.state ∘ h.state, k.fault ∘ h.fault⟩

theorem HoldsKept.portFree : PortFree HoldsKept where
  refl := .refl
  trans := .trans
  mpt _ _ := ⟨id, id⟩
  sched _ _ := ⟨id, id⟩

/-- STATE's mask, beside the CAP and WATCH masks. -/
theorem Hls.besideMasks_state {g h : Hls} (e : g.besideMasks = h.besideMasks) : g.masks.state = h.masks.state := by
  simpa [Hls.besideMasks] using congrArg (fun x => x.masks.state) e

/-- What FAULT presents and the flags it reads, beside the CAP and WATCH masks. -/
theorem Hls.besideMasks_fault {g h : Hls} (e : g.besideMasks = h.besideMasks) :
    g.masks.fault = h.masks.fault ∧ g.sense = h.sense :=
  ⟨by simpa [Hls.besideMasks] using congrArg (fun x => x.masks.fault) e,
    by simpa [Hls.besideMasks] using congrArg Hls.sense e⟩

theorem State.faultHeld_of_beside {s t : State} (hls : t.hls.besideMasks = s.hls.besideMasks) (held : s.faultHeld) : t.faultHeld := by
  obtain ⟨mask, senses⟩ := Hls.besideMasks_fault hls
  unfold State.faultHeld
  rw [mask, senses]
  exact held

theorem HoldsKept.of_beside {s t : State} (op : t.stc.op = s.stc.op) (hls : t.hls.besideMasks = s.hls.besideMasks) :
    HoldsKept s t where
  state held := by
    unfold State.stateHeld
    rw [Hls.besideMasks_state hls, op]
    exact held
  fault := State.faultHeld_of_beside hls

theorem Delivered.holdsKept {s t : State} (h : Delivered s t) : HoldsKept s t := .of_beside (by rw [h.stc]) h.hls
theorem HandedOn.holdsKept {s t : State} (h : HandedOn s t) : HoldsKept s t := h.delivered.holdsKept
theorem OnlyBus.holdsKept {s t : State} (h : OnlyBus s t) : HoldsKept s t := .of_beside (by rw [h.stc]) (by rw [h.hls])

theorem setTlu_holdsKept (s : State) (t : Tlu) : HoldsKept s (s.setTlu t) := ⟨id, id⟩
theorem setSbc_holdsKept (s : State) (b : Sbc) : HoldsKept s (s.setSbc b) := ⟨id, id⟩
theorem setCfg_holdsKept (s : State) (c : Settings) : HoldsKept s (s.setCfg c) := ⟨id, id⟩

/-! ### Presentations, sampling and clearing (R178, R182, R186, R188) -/

theorem present_faultHeld {src : HoldSource} (other : src ≠ .fault) (mask : LineMask) {s : State} (held : s.faultHeld) :
    (present src mask s).faultHeld := by
  have kept := present_get src mask s .fault
  rw [if_neg other.symm] at kept
  unfold State.faultHeld
  rw [present_hls] at kept ⊢
  exact kept.trans held

theorem present_manual_holdsKept (mask : LineMask) (s : State) : HoldsKept s (present .manual mask s) where
  state held := by
    unfold State.stateHeld
    obtain ⟨-, -, -, -, -, -, stc⟩ := (present_sameBehindLines .manual mask s).blocks
    rw [present_hls, stc]
    exact held
  fault := present_faultHeld (by decide) mask

/-- FAULT presents afresh where a motion line is newly faulty, and elsewhere the mask called for stays (R182, R186). -/
theorem sense_holdsKept (levels : LineMask) (s : State) : HoldsKept s (sense levels s) where
  state held := by
    obtain ⟨-, -, -, -, -, -, stc⟩ := (sense_sameBehindLines levels s).blocks
    unfold State.stateHeld
    rw [stc, sense_hls]
    dsimp only
    split <;> exact held
  fault held := by
    unfold State.faultHeld
    rw [sense_hls]
    dsimp only
    split
    · rfl
    · next unset => exact held.trans (faultMask_of_no_newFaults (s.hls.sample_grows levels) unset).symm

theorem clearFaults_holdsKept (marks : LineMask) (s : State) : HoldsKept s (clearFaults marks s) where
  state held := by
    obtain ⟨-, -, -, -, -, -, stc⟩ := (clearFaults_sameBehindLines marks s).blocks
    unfold State.stateHeld
    rw [stc, clearFaults_eq, presentIf_hls]
    dsimp only [State.setHls_hls]
    split <;> exact held
  fault held := by
    unfold State.faultHeld
    rw [clearFaults_hls held]

/-! ### The operating states (R179, R192) -/

/-- At a change of the operating state STATE alone of the two may present. -/
theorem stateHandOvers_beside {old new : OpState} {bad : Bool} {f : State → State} (hf : f ∈ stateHandOvers old new bad) :
    f = present .state (stateMask new) ∨ ∀ s, (f s).hls.besideMasks = s.hls.besideMasks := by
  rw [stateHandOvers_eq] at hf
  obtain rfl | hf := List.mem_cons.1 hf
  · exact .inr fun s => rfl
  obtain rfl | rfl | rfl | rfl | rfl | rfl := mem_stateOthers hf
  · exact .inl rfl
  · exact .inr fun s => rel_ite (R := fun s t => t.hls.besideMasks = s.hls.besideMasks) rfl rfl
  · exact .inr fun s => rfl
  · exact .inr fun s => (cpmTake_handedOn _ s).hls
  · exact .inr fun s => (endCal_delivered _ s).hls
  · exact .inr fun s => congrArg _ (endWaitingPass_onlyBus _ s).hls

theorem present_state_mask (mask : LineMask) (s : State) : (present .state mask s).hls.masks.state = mask := by
  rw [present_hls]
  rfl

/-- STATE's mask is presented where the new state calls for another, and stays where it calls for the same (R179). -/
theorem changeState_stateHeld (new : OpState) {s : State} (held : s.stateHeld) : (changeState new s).stateHeld := by
  have keeps : ∀ f ∈ stateHandOvers s.stc.op new s.stc.settingsBad, ∀ u : State,
      u.hls.masks.state = stateMask new → (f u).hls.masks.state = stateMask new := by
    intro f hf u mask
    obtain rfl | beside := stateHandOvers_beside hf
    · exact present_state_mask _ u
    · exact (Hls.besideMasks_state (beside u)).trans mask
  unfold State.stateHeld
  rw [changeState_stc]
  by_cases same : stateMask s.stc.op = stateMask new
  · exact runAny_keeps (fun u => u.hls.masks.state = stateMask new) (fun _ _ h => h) keeps (held.trans same)
  · exact runAny_brings (fun u => u.hls.masks.state = stateMask new) (fun _ _ h => h) keeps
      ⟨_, by simp [stateHandOvers, same], present_state_mask (stateMask new)⟩ _

theorem changeState_holdsKept (new : OpState) (s : State) : HoldsKept s (changeState new s) where
  state := changeState_stateHeld new
  fault held := by
    refine runAny_keeps State.faultHeld (fun _ _ h => h) (fun f hf u kept => ?_) (s := s.setStc { s.stc with op := new }) held
    obtain rfl | beside := stateHandOvers_beside hf
    · exact present_faultHeld (by decide) _ kept
    · exact State.faultHeld_of_beside (beside u) kept

theorem install_holdsKept (good : Bool) (c : ImageContents) (s : State) : HoldsKept s (install good c s) := by
  rw [install_eq]
  refine (setCfg_holdsKept s _).trans (HoldsKept.portFree.runAny (fun f hf u => ?_) _)
  obtain rfl | rfl | rfl | rfl | rfl := mem_installers hf
  · exact setSbc_holdsKept u _
  · exact (setCfg_holdsKept u _).trans (recompute_delivered _).holdsKept
  · rw [installWeigh_eq]
    exact (setCfg_holdsKept u _).trans (setWge_delivered _ _).holdsKept
  · exact (setCfg_holdsKept u _).trans (cpmEvaluate_handedOn _).holdsKept
  · exact (makeEntries_handedOn _ u).holdsKept

theorem preloadDone_holdsKept (readFailed : Bool) (s : State) : HoldsKept s (preloadDone readFailed s) := by
  have marked (u : State) (a b d e : Bool) : HoldsKept u
      (u.setStc { u.stc with preloading := a, settingsBad := b, imageBad := d, marker := e }) := ⟨id, id⟩
  exact rel_ite ((install_holdsKept _ _ s).trans ((marked _ _ _ _ _).trans (changeState_holdsKept _ _))) (.refl s)

/-- After a reset the part is in START with the motion lines held and no line faulty (R179, R190). -/
theorem afterReset_holdsKept (warm : Bool) (s : State) : HoldsKept s (afterReset warm s) := ⟨fun _ => rfl, fun _ => rfl⟩

theorem supplyLoss_holdsKept (backupInterrupted : Bool) (s : State) : HoldsKept s (supplyLoss backupInterrupted s) :=
  ⟨fun _ => rfl, fun _ => rfl⟩

theorem commitEnd_holdsKept (ok : Bool) (s : State) : HoldsKept s (commitEnd ok s) := by
  unfold commitEnd
  split
  · split <;> exact ⟨id, id⟩
  · exact .refl s

/-! ### Polls and the poll list (R17, R23 to R28) -/

theorem applyPoll_holdsKept (e : Entry) (st : Bool) (obs : PollObs) (s : State) : HoldsKept s (applyPoll e st obs s) := by
  have reported := (pollReported_onlyBus e st obs s).holdsKept
  by_cases good : judgePoll e.expectWaking st e.pd.role obs = .ok ∧ e.pd.enable = true
  · obtain ⟨returning, afresh, x, delivers⟩ := applyPoll_delivers e st obs s good.1 good.2
    rw [delivers]
    exact reported.trans (.trans (rel_ite (startAfresh_delivered _ _).holdsKept (.refl _)) (deliverSample_delivered _ _ _ _).holdsKept)
  · rw [applyPoll_undelivered e st obs s good]
    exact reported

theorem pollDone_holdsKept (t : Txn) (r : Role) (obs : PollObs) {after : Bool → PollOutcome → State → State}
    (h : ∀ b o s, OnlyBus s (after b o s)) (s : State) : HoldsKept s (pollDone t r obs after s) := by
  unfold pollDone
  split
  · exact rel_ite ((setSbc_holdsKept s _).trans (applyPoll_holdsKept _ _ _ _))
      ((setSbc_holdsKept s _).trans ((applyPoll_holdsKept _ _ _ _).trans (h _ _ _).holdsKept))
  · exact (setSbc_holdsKept s _).trans (h _ _ _).holdsKept

theorem pollTransactionDone_holdsKept (obs : PollObs) (s : State) : HoldsKept s (pollTransactionDone obs s) := by
  unfold pollTransactionDone
  split
  · split
    · exact pollDone_holdsKept _ _ _ (fun _ _ u => afterTransaction_onlyBus _ u) s
    · exact pollDone_holdsKept _ _ _ (fun _ _ u => afterAttempt_onlyBus _ u) s
    · exact .refl s
  · exact .refl s

theorem sensorStale_holdsKept (r : Role) (s : State) : HoldsKept s (sensorStale r s) := by
  unfold sensorStale
  split
  · exact rel_ite (((setSbc_holdsKept s _).trans (reportEntry_onlyBus _ _).holdsKept).trans (deliverStale_delivered _ _).holdsKept)
      (.refl s)
  · exact .refl s

theorem takePollWrite_holdsKept (list : List PollDef) (s : State) : HoldsKept s (takePollWrite list s) := by
  rw [takePollWrite_eq]
  exact ((setSbc_holdsKept s _).trans (replaceAll_rel _ _ .refl (fun _ _ _ => .trans) HoldsKept.portFree.sched
    (fun _ _ only _ => only.holdsKept) (fun _ _ => (deliverStale_delivered _ _).holdsKept) _)).trans (recompute_delivered _).holdsKept

/-! ### The other timers and the ports (R101, R153, R185, R204, R215, R216) -/

theorem tareTimeout_holdsKept (s : State) : HoldsKept s (tareTimeout s) := by
  unfold tareTimeout
  split
  · exact rel_ite (endTare_delivered _ s).holdsKept (.refl s)
  · exact .refl s

theorem permitExpiry_holdsKept (s : State) : HoldsKept s (permitExpiry s) := by
  unfold permitExpiry
  split
  · exact rel_ite (expirePermit_handedOn s).holdsKept (.refl s)
  · exact .refl s

theorem senseExpiry_holdsKept (levels : LineMask) (s : State) : HoldsKept s (senseExpiry levels s) := by
  have timed : HoldsKept s (senseTimed s) := ⟨id, id⟩
  exact rel_ite (timed.trans (sense_holdsKept levels _)) (.refl s)

theorem discardExpiry_holdsKept (i : Fin 4) (s : State) : HoldsKept s (discardExpiry i s) := by
  unfold discardExpiry
  split
  · exact rel_ite (HoldsKept.portFree.mpt s _) (.refl s)
  · exact .refl s

theorem restartDue_holdsKept (p : Port) (f : Option OutFrame) (s : State) : HoldsKept s (restartDue p f s) := by
  unfold restartDue
  split
  · exact rel_ite ⟨id, id⟩ (.refl s)
  · exact .refl s

theorem portBreak_holdsKept (p : Port) (s : State) : HoldsKept s (portBreak p s) := by
  have dropped (u : State) : HoldsKept u (dropPass u) := rel_ite (setSbc_holdsKept u _) (.refl u)
  exact rel_ite (.refl s) ((HoldsKept.portFree.mpt s _).trans ((rel_ite (dropped _) (.refl _)).trans (restartDue_holdsKept _ _ _)))

end Sys2Proof.Machine
end

section
/-! PROOFS. STATE and FAULT at requests, at every command and at every step (R179, R182): O8. -/

namespace Sys2Proof.Machine

/-! ### The requests -/

/-- A relation to the state that each of two answers leaves holds to the state that the one given leaves. -/
theorem rel_ite_answer {R : State → State → Prop} {c : Prop} [Decidable c] {s : State} {x y : Answer × State} (h : R s x.2)
    (k : R s y.2) : R s (if c then x else y).2 := by
  split
  · exact h
  · exact k

section owners
variable (p : Port) (body : List Byte) (s : State)

theorem servePollWrite_holdsKept : HoldsKept s (servePollWrite p body s).2 := by
  have judged := HoldsKept.portFree.eitherRefusal (if s.committing then some .busy else none) (pollRefusal (pollDefsOf body)) s
  unfold servePollWrite
  dsimp only
  split
  · next e =>
    rw [e] at judged
    exact judged
  · next e =>
    rw [e] at judged
    exact judged.trans (takePollWrite_holdsKept _ _)

theorem serveSensorPass_holdsKept : HoldsKept s (serveSensorPass p body s).2 := by
  refine HoldsKept.portFree.serveDelayed _ _ _ (fun _ u => HoldsKept.portFree.eitherRefusal _ _ u) (fun u => ?_) s
  cases passOf body with
  | none => exact .refl u
  | some x => exact (setSbc_holdsKept u _).trans (rel_ite (endWaitingPass_onlyBus _ _).holdsKept (.refl _))

theorem serveBusRestart_holdsKept : HoldsKept s (serveBusRestart p body s).2 := by
  unfold serveBusRestart
  split
  · exact rel_ite_answer (setSbc_holdsKept s _) (setSbc_holdsKept s _)
  · exact rel_ite_answer (.refl s) (setSbc_holdsKept s _)
  · exact .refl s
  · exact .refl s

theorem serveSetAssortment_holdsKept : HoldsKept s (serveSetAssortment p body s).2 :=
  rel_ite_answer (setTlu_holdsKept s _) (.refl s)

theorem serveVoidLift_holdsKept : HoldsKept s (serveVoidLift p body s).2 := by
  unfold serveVoidLift
  split
  · exact .refl s
  · exact (setTlu_holdsKept s _).trans (handBunkTotal_handedOn _ _).holdsKept

theorem serveAssignLift_holdsKept : HoldsKept s (serveAssignLift p body s).2 := by
  unfold serveAssignLift
  split
  · exact .refl s
  · exact (setTlu_holdsKept s _).trans (.trans (rel_ite (reportTripClosed_handedOn _ _).holdsKept (.refl _))
      (handBunkTotal_handedOn _ _).holdsKept)

theorem serveTripClose_holdsKept : HoldsKept s (serveTripClose p body s).2 := by
  unfold serveTripClose
  split
  · exact (setTlu_holdsKept s _).trans ((reportTripClosed_handedOn _ _).trans (handBunkTotal_handedOn _ _)).holdsKept
  · exact .refl s

theorem serveTare_holdsKept : HoldsKept s (serveTare p body s).2 := by
  have begun (u : State) : HoldsKept u (startTare p u) := ⟨id, id⟩
  exact HoldsKept.portFree.serveDelayed p .tare body (fun _ u => .refl u)
    (fun u => rel_ite ((begun u).trans (endTare_delivered _ _).holdsKept) (begun u)) s

theorem serveCalSpan_holdsKept : HoldsKept s (serveCalSpan p body s).2 := by
  have begun (mref : Nat) (u : State) : HoldsKept u (startCal mref u) := ⟨id, id⟩
  exact HoldsKept.portFree.serveDelayed p .calSpan body (fun _ u => .refl u)
    (fun u => rel_ite ((begun _ u).trans (endCal_delivered _ _).holdsKept) (begun _ u)) s

theorem serveChartWrite_holdsKept : HoldsKept s (serveChartWrite p body s).2 := by
  have judged := HoldsKept.portFree.eitherRefusal (if s.committing then some .busy else none)
    (if runAllowed (natAt body 0 1) (natAt body 1 1) then none else some .badField) s
  unfold serveChartWrite
  split
  · next e =>
    rw [e] at judged
    exact judged
  · next e =>
    rw [e] at judged
    exact (judged.trans (setCfg_holdsKept _ _)).trans (cpmEvaluate_handedOn _).holdsKept

theorem serveOverrideSet_holdsKept : HoldsKept s (serveOverrideSet p body s).2 := by
  unfold serveOverrideSet
  split
  · next i o _ => exact (cpmTake_handedOn (fun c => { c with overrides := c.overrides.set i o }) s).holdsKept
  · exact .refl s

theorem servePermit_holdsKept : HoldsKept s (servePermit p body s).2 :=
  rel_ite_answer (.refl s) (rel_ite_answer (.refl s) (rel_ite_answer (.refl s) (startPermit_handedOn s).holdsKept))

theorem serveWatchWrite_holdsKept : HoldsKept s (serveWatchWrite p body s).2 := by
  unfold serveWatchWrite
  split
  · exact .refl s
  · refine rel_ite_answer (.refl s) ?_
    split
    · exact .refl s
    · exact (takeWatchWrite_handedOn _ _ s).holdsKept

theorem serveCaptureRead_holdsKept : HoldsKept s (serveCaptureRead p body s).2 := by
  unfold serveCaptureRead
  split
  · exact (setWt_handedOn s _).holdsKept
  · exact .refl s

theorem serveHoldManual_holdsKept : HoldsKept s (serveHoldManual p body s).2 := by
  unfold serveHoldManual
  split
  · exact present_manual_holdsKept _ s
  · exact .refl s

theorem serveLineFaultClear_holdsKept : HoldsKept s (serveLineFaultClear p body s).2 := by
  unfold serveLineFaultClear
  split
  · exact clearFaults_holdsKept _ s
  · exact .refl s

/-- The act of a parameter's block: a recomputation, an evaluation, or one of WGE's own (R55, R86, R93, R141). -/
theorem Param.act_holdsKept (q : Param) (v : Int) (s : State) : HoldsKept s (q.act v s) := by
  cases q
  case l1 | l2 | teleMax | column | slewOff | slewLo | slewHi | reachLo | reachHi => exact (recompute_delivered s).holdsKept
  case pageSize | k | fMin | uWarn | uHold | uRel => exact (cpmEvaluate_handedOn s).holdsKept
  case z | span | lMin | d | rs | rm | n | nMin | zb | permitS => exact ⟨id, id⟩

theorem serveParamWrite_holdsKept : HoldsKept s (serveParamWrite p body s).2 := by
  have taken (q : Param) (v : Int) : HoldsKept s (takeParam q v s) := (setCfg_holdsKept s _).trans (q.act_holdsKept v _)
  unfold serveParamWrite
  split
  · exact .refl s
  · exact rel_ite_answer (.refl s) (rel_ite_answer (.refl s) (taken _ _))

theorem serveFeatures_holdsKept : HoldsKept s (serveFeatures p body s).2 := by
  have switched (w : Switches) : HoldsKept s (takeSwitches w s) :=
    (setCfg_holdsKept s _).trans (.trans (rel_ite (.refl _) (setWge_delivered _ _).holdsKept) (cpmEvaluate_handedOn _).holdsKept)
  exact rel_ite_answer (.refl s) (switched _)

theorem serveEnterService_holdsKept : HoldsKept s (serveEnterService p body s).2 :=
  rel_ite_answer (.refl s) (rel_ite_answer (.refl s) (changeState_holdsKept _ s))

theorem serveLeaveService_holdsKept : HoldsKept s (serveLeaveService p body s).2 :=
  rel_ite_answer (.refl s) (rel_ite_answer (.refl s) (changeState_holdsKept _ s))

theorem serveStandby_holdsKept : HoldsKept s (serveStandby p body s).2 :=
  rel_ite_answer (.refl s) (changeState_holdsKept _ s)

theorem serveCommit_holdsKept : HoldsKept s (serveCommit p body s).2 := by
  have begun (u : State) : HoldsKept u (startCommit u) := ⟨id, id⟩
  exact HoldsKept.portFree.serveDelayed p .commit body (fun _ u => .refl u) begun s

theorem serveRestart_holdsKept : HoldsKept s (serveRestart p body s).2 := rel_ite_answer (.refl s) ⟨id, id⟩

theorem serveReportEnable_holdsKept : HoldsKept s (serveReportEnable p body s).2 :=
  rel_ite_answer (HoldsKept.portFree.mpt s _) (.refl s)

end owners

/-- What an owner makes of any request keeps STATE and FAULT right (R207, row 8). -/
theorem serve_holdsKept (r : Req) (p : Port) (body : List Byte) (s : State) : HoldsKept s (serve r p body s).2 := by
  cases r
  case pose | sensors | pollRead | tallyRead | logRead | tripRead | chartRead | watchRead | linesRead | paramRead =>
    rw [serve_reads rfl]
    exact .refl s
  case status | defineAssortment | deleteAssortment | totalsReset | hitClear => exact ⟨id, id⟩
  case pollWrite => exact servePollWrite_holdsKept p body s
  case sensorPass => exact serveSensorPass_holdsKept p body s
  case busRestart => exact serveBusRestart_holdsKept p body s
  case setAssortment => exact serveSetAssortment_holdsKept p body s
  case voidLift => exact serveVoidLift_holdsKept p body s
  case assignLift => exact serveAssignLift_holdsKept p body s
  case tripClose => exact serveTripClose_holdsKept p body s
  case tare => exact serveTare_holdsKept p body s
  case calSpan => exact serveCalSpan_holdsKept p body s
  case chartWrite => exact serveChartWrite_holdsKept p body s
  case overrideSet => exact serveOverrideSet_holdsKept p body s
  case permit => exact servePermit_holdsKept p body s
  case watchWrite => exact serveWatchWrite_holdsKept p body s
  case captureRead => exact serveCaptureRead_holdsKept p body s
  case holdManual => exact serveHoldManual_holdsKept p body s
  case lineFaultClear => exact serveLineFaultClear_holdsKept p body s
  case paramWrite => exact serveParamWrite_holdsKept p body s
  case features => exact serveFeatures_holdsKept p body s
  case enterService => exact serveEnterService_holdsKept p body s
  case leaveService => exact serveLeaveService_holdsKept p body s
  case standby => exact serveStandby_holdsKept p body s
  case commit => exact serveCommit_holdsKept p body s
  case restart => exact serveRestart_holdsKept p body s
  case reportEnable => exact serveReportEnable_holdsKept p body s

/-! ### Every command and every step -/

theorem exec_holdsKept {c : Instr} {s t : State} (h : exec c s = .next t) : HoldsKept s t := by
  have pf := HoldsKept.portFree
  have wakes (u : State) : HoldsKept u (wake u) := changeState_holdsKept .run u
  have onBus : ∀ {f : State → State}, (∀ u, OnlyBus u (f u)) → completes f s = .next t → HoldsKept s t :=
    fun hf h => pf.completes (fun u => (hf u).holdsKept) h
  cases c
  case powerOn => cases h; exact afterReset_holdsKept _ s
  case supplyLoss => cases h; exact supplyLoss_holdsKept _ s
  case restartReset => exact pf.completes (fun u => rel_ite (afterReset_holdsKept true u) (.refl u)) h
  case preloadDone => exact pf.completes (preloadDone_holdsKept _) h
  case roundTimerExpiry => exact onBus roundTimerExpiry_onlyBus h
  case pollTransactionDone => exact pf.completes (pollTransactionDone_holdsKept _) h
  case stretchTimeout => exact onBus stretchTimeout_onlyBus h
  case sensorStale => exact pf.completes (sensorStale_holdsKept _) h
  case busFreePulseEnd => exact onBus busFreePulseEnd_onlyBus h
  case recoveryWaitEnd => exact onBus (recoveryWaitEnd_onlyBus _) h
  case recoveryAttempt => exact onBus recoveryAttempt_onlyBus h
  case attemptWaitEnd => exact onBus (attemptWaitEnd_onlyBus _) h
  case passthroughDone => exact onBus (passthroughDone_onlyBus _) h
  case tareTimeout => exact pf.completes tareTimeout_holdsKept h
  case permitExpiry => exact pf.completes permitExpiry_holdsKept h
  case senseExpiry => exact pf.completes (senseExpiry_holdsKept _) h
  case discardExpiry => exact pf.completes (discardExpiry_holdsKept _) h
  case frameGapTimeout | lineReturnsToIdle => exact pf.completes (fun u => rel_ite (pf.mpt u _) (pf.refl u)) h
  case frameBadCheck | stopBitLow => exact pf.completes (fun u => pf.mpt u _) h
  case unknownKind | frameHeld | standbyWake => exact pf.completes (pf.takeAny serve_holdsKept wakes _ _ _) h
  case heldFrameHandled => exact pf.completes (pf.heldFrame serve_holdsKept wakes _) h
  case frameSent => exact pf.completes (fun u => (pf.mpt u _).trans (restartDue_holdsKept _ _ _)) h
  case portBreak => exact pf.completes (portBreak_holdsKept _) h
  case commitDone => exact pf.completes (commitEnd_holdsKept _) h
  case byteArrival => exact pf.completes (pf.byteIn serve_holdsKept wakes _ _) h
  all_goals exact pf.completes (pf.takeRequest serve_holdsKept wakes _ _ _) h

theorem step_holdsKept {s t : State} (h : step s = .next t) : HoldsKept s t := by
  obtain ⟨c, rest, -, runs⟩ | ⟨-, rfl⟩ := step_cases h
  · have waited : HoldsKept s (s.setPending rest) := ⟨id, id⟩
    exact waited.trans (exec_holdsKept runs)
  · exact rel_ite ⟨id, id⟩ (.refl s)

/-- Settles O8: a change of the operating state has STATE present what the new one calls for (`changeState_stateHeld`), sampling and
clearing have FAULT present what the flags call for (`sense_holdsKept`, `clearFaults_holdsKept`), and no other operation touches
either source or what it reads (`exec_holdsKept`). -/
theorem stateAndFaultMasksKept : Obligations.StateAndFaultMasksKept :=
  ⟨fun _ _ held h => (step_holdsKept h).state held, fun _ _ held h => (step_holdsKept h).fault held⟩

end Sys2Proof.Machine
end

section
/-! PROOFS. The operating state through requests and through every command (R192, R196 to R200): O16. -/

namespace Sys2Proof.Machine

/-! ### What keeps the operating state -/

/-- A part that is not in STANDBY keeps its operating state; one in STANDBY may have been woken (R192, R200). -/
def OpKept (s t : State) : Prop := s.stc.op ≠ .standby → t.stc.op = s.stc.op

theorem OpKept.of_op {s t : State} (op : t.stc.op = s.stc.op) : OpKept s t := fun _ => op

theorem OpKept.portFree : PortFree OpKept where
  refl _ := .of_op rfl
  trans h k awake := (k (h awake ▸ awake)).trans (h awake)
  mpt _ _ := .of_op rfl
  sched _ _ := .of_op rfl

theorem OpKept.refl (s : State) : OpKept s s := OpKept.portFree.refl s

theorem OpKept.trans {s t u : State} (h : OpKept s t) (k : OpKept t u) : OpKept s u := OpKept.portFree.trans h k

theorem StcUntouched.opKept {s t : State} (h : StcUntouched s t) : OpKept s t := .of_op (congrArg Stc.op h)

/-! ### COMMIT's end and the ports (R203, R204, R216) -/

theorem commitEnd_opKept (ok : Bool) (s : State) : OpKept s (commitEnd ok s) := by
  unfold commitEnd
  split
  · exact rel_ite (.of_op rfl) (.of_op rfl)
  · exact .refl s

/-- A RESTART whose reply is over marks the reset as due; the part is in START only with the reset (R204). -/
theorem restartDue_opKept (p : Port) (f : Option OutFrame) (s : State) : OpKept s (restartDue p f s) := by
  unfold restartDue
  split
  · exact rel_ite (.of_op rfl) (.refl s)
  · exact .refl s

theorem portBreak_opKept (p : Port) (s : State) : OpKept s (portBreak p s) := by
  have dropped (u : State) : OpKept u (dropPass u) := rel_ite (.of_op rfl) (.refl u)
  exact rel_ite (.refl s) ((OpKept.portFree.mpt s _).trans ((rel_ite (dropped _) (.refl _)).trans (restartDue_opKept _ _ _)))

/-! ### The requests -/

section owners
variable (p : Port) (body : List Byte) (s : State)

theorem serveChartWrite_opKept : OpKept s (serveChartWrite p body s).2 := by
  have charted (u : State) (c : Settings) : OpKept u (u.setCfg c) := .of_op rfl
  have judged := OpKept.portFree.eitherRefusal (if s.committing then some .busy else none)
    (if runAllowed (natAt body 0 1) (natAt body 1 1) then none else some .badField) s
  unfold serveChartWrite
  split
  · next e =>
    rw [e] at judged
    exact judged
  · next e =>
    rw [e] at judged
    exact judged.trans ((charted _ _).trans (cpmEvaluate_handedOn _).stcUntouched.opKept)

theorem serveParamWrite_opKept : OpKept s (serveParamWrite p body s).2 := by
  have taken (q : Param) (v : Int) : OpKept s (takeParam q v s) := .of_op (by rw [takeParam_stc])
  unfold serveParamWrite
  split
  · exact .refl s
  · exact rel_ite_answer (.refl s) (rel_ite_answer (.refl s) (taken _ _))

theorem serveFeatures_opKept : OpKept s (serveFeatures p body s).2 := by
  have switched (w : Switches) : OpKept s (takeSwitches w s) := .of_op (by rw [(takeSwitches_taken w s).stc])
  exact rel_ite_answer (.refl s) (switched _)

theorem serveCommit_opKept : OpKept s (serveCommit p body s).2 := by
  have begun (u : State) : OpKept u (startCommit u) := .of_op rfl
  exact OpKept.portFree.serveDelayed p .commit body (fun _ u => .refl u) begun s

theorem serveRestart_opKept : OpKept s (serveRestart p body s).2 := rel_ite_answer (.refl s) (.of_op rfl)

/-- The requests that change the operating state of a part that is not in STANDBY (R196, R198, R199). -/
def Req.changesOp : Req → Bool
  | .enterService | .leaveService | .standby => true
  | _ => false

/-- Every other request leaves the operating state as its owner found it (R207, row 8). -/
theorem serve_opKept {r : Req} (other : r.changesOp = false) : OpKept s (serve r p body s).2 := by
  cases stc : r.ofStc with
  | false => exact (serve_stcUntouched p body s stc).opKept
  | true =>
    cases r
    case enterService | leaveService | standby => cases other
    case chartWrite => exact serveChartWrite_opKept p body s
    case paramWrite => exact serveParamWrite_opKept p body s
    case features => exact serveFeatures_opKept p body s
    case commit => exact serveCommit_opKept p body s
    case restart => exact serveRestart_opKept p body s
    all_goals cases stc

/-- Judged outside STANDBY, no request wakes the part (R207, row 2). -/
theorem judgeKnown_opKept {r : Req} (other : r.changesOp = false) : OpKept s (judgeKnown r (serve r) p body s).2 := by
  intro awake
  unfold judgeKnown
  split
  · rfl
  · next standby => exact absurd standby awake
  all_goals
    split
    · rfl
    · exact serve_opKept p body s other awake

end owners

/-! ### Every command -/

/-- The commands that may change the operating state of a part that is not in STANDBY (R192). -/
def changesOp : Instr → Bool
  | .enterService _ _ => true
  | .leaveService _ _ => true
  | .standby _ _ => true
  | c => carriesAnyFrame c || isStart c

theorem exec_opKept {c : Instr} (other : changesOp c = false) {s t : State} (h : exec c s = .next t) : OpKept s t := by
  have pf := OpKept.portFree
  have untouched : ∀ {f : State → State}, (∀ u, StcUntouched u (f u)) → completes f s = .next t → OpKept s t :=
    fun hf h => pf.completes (fun u => (hf u).opKept) h
  have frame : ∀ {r : Req} {p : Port} {body : List Byte}, completes (takeRequest r (serve r) p body) s = .next t →
      r.changesOp = false → OpKept s t :=
    fun h other => pf.completes (pf.takeFrame _ _ _ fun u => judgeKnown_opKept _ _ u other) h
  cases c
  case powerOn | supplyLoss | restartReset | preloadDone | unknownKind | frameHeld | standbyWake | heldFrameHandled |
    byteArrival | enterService | leaveService | standby => cases other
  case roundTimerExpiry => exact untouched roundTimerExpiry_stcUntouched h
  case pollTransactionDone => exact untouched (pollTransactionDone_stcUntouched _) h
  case stretchTimeout => exact untouched stretchTimeout_stcUntouched h
  case sensorStale => exact untouched (sensorStale_stcUntouched _) h
  case busFreePulseEnd => exact untouched busFreePulseEnd_stcUntouched h
  case recoveryWaitEnd => exact untouched (recoveryWaitEnd_stcUntouched _) h
  case recoveryAttempt => exact untouched recoveryAttempt_stcUntouched h
  case attemptWaitEnd => exact untouched (attemptWaitEnd_stcUntouched _) h
  case passthroughDone => exact untouched (passthroughDone_stcUntouched _) h
  case tareTimeout => exact untouched tareTimeout_stcUntouched h
  case permitExpiry => exact untouched permitExpiry_stcUntouched h
  case senseExpiry => exact untouched (senseExpiry_stcUntouched _) h
  case discardExpiry => exact untouched (discardExpiry_stcUntouched _) h
  case frameGapTimeout | lineReturnsToIdle => exact pf.completes (fun u => rel_ite (pf.mpt u _) (pf.refl u)) h
  case frameBadCheck | stopBitLow => exact pf.completes (fun u => pf.mpt u _) h
  case frameSent => exact pf.completes (fun u => (pf.mpt u _).trans (restartDue_opKept _ _ _)) h
  case portBreak => exact pf.completes (portBreak_opKept _) h
  case commitDone => exact pf.completes (commitEnd_opKept _) h
  all_goals exact frame h rfl

/-- Settles O16: only ENTER_SERVICE, LEAVE_SERVICE and STANDBY have an owner that changes the operating state (`serve_opKept`), and no
event but a start or a wake from STANDBY does (`exec_opKept`). -/
theorem operatingStateChangers : Obligations.OperatingStateChangers := by
  intro c s t noFrame noStart working noEnter noLeave noStandby h
  have other : changesOp c = false := by
    unfold changesOp
    split
    · exact absurd rfl (noEnter _ _)
    · exact absurd rfl (noLeave _ _)
    · exact absurd rfl (noStandby _ _)
    · rw [noFrame, noStart]
      rfl
  have awake : s.stc.op ≠ .standby := by
    obtain run | service := working
    · rw [run]
      decide
    · rw [service]
      decide
  exact exec_opKept other h awake

end Sys2Proof.Machine
end

section
/-! PROOFS. The report queues through reports, hand-overs, deliveries, the bus and the operating states (R217): the ground of O12. -/

namespace Sys2Proof.Machine

/-! ### One port (R209, R217) -/

/-- A port's report queue holds at most 16 reports (R217). -/
def PortState.queueFits (q : PortState) : Prop := q.queue.length ≤ 16

theorem Mpt.queuesFit_iff (m : Mpt) : m.queuesFit ↔ ∀ p, (m.port p).queueFits :=
  ⟨fun ⟨cab, service⟩ p => by cases p <;> [exact cab; exact service], fun each => ⟨each .cab, each .service⟩⟩

/-- A report that finds 16 waiting is lost (R217). -/
theorem PortState.queueReport_fits {q : PortState} (fits : q.queueFits) (r : Report) (body : List Byte) :
    (q.queueReport r body).queueFits := by
  unfold PortState.queueReport
  split
  · split
    · next room =>
      unfold PortState.queueFits
      rw [List.length_append]
      exact room
    · exact fits
  · exact fits

section pump
variable {q : PortState}

/-- A transmitter that is sending goes on (R209). -/
theorem PortState.pump_sending {f : OutFrame} (tx : q.tx = some f) : q.pump = q := by simp [PortState.pump, tx]

variable (idle : q.tx = none)
include idle

/-- A waiting reply goes first (R209). -/
theorem PortState.pump_reply {f : OutFrame} (reply : q.reply = some f) : q.pump = { q with tx := some f, reply := none } := by
  simp [PortState.pump, idle, reply]

variable (unanswered : q.reply = none)
include unanswered

/-- No report goes before a held frame's reply (R208; notes/assumptions/9.md). -/
theorem PortState.pump_held (held : q.held ≠ none) : q.pump = q := by
  simp [PortState.pump, idle, unanswered, Option.isSome_iff_ne_none.2 held]

theorem PortState.pump_empty (queue : q.queue = []) : q.pump = q := by simp [PortState.pump, idle, unanswered, queue]

/-- The oldest report goes, with GAP after a loss (R209, R217). -/
theorem PortState.pump_report (free : q.held = none) {f : OutFrame} {rest : List OutFrame} (queue : q.queue = f :: rest) :
    q.pump = { q with tx := some { f with status := if q.gap then 1#8 else 0#8 }, queue := rest, gap := false } := by
  simp [PortState.pump, idle, unanswered, free, queue]

end pump

/-- A transmitter still idle after its turn had nothing to send, or a held frame's turn comes first, and no report joins a queue by
it (R209; notes/assumptions/9.md). -/
theorem PortState.pump_serves (q : PortState) : q.pump.served ∧ (q.queueFits → q.pump.queueFits) := by
  cases tx : q.tx with
  | some f =>
    rw [pump_sending tx]
    exact ⟨fun idle => (Option.some_ne_none f (tx.symm.trans idle)).elim, id⟩
  | none =>
    cases reply : q.reply with
    | some f =>
      rw [pump_reply tx reply]
      exact ⟨nofun, id⟩
    | none =>
      by_cases held : q.held = none
      · cases queue : q.queue with
        | nil =>
          rw [pump_empty tx reply queue]
          exact ⟨fun _ => ⟨reply, fun _ => queue⟩, id⟩
        | cons f rest =>
          rw [pump_report tx reply held queue]
          refine ⟨nofun, fun fits => ?_⟩
          unfold queueFits at fits ⊢
          rw [queue] at fits
          exact (Nat.le_succ _).trans fits
      · rw [pump_held tx reply held]
        exact ⟨fun _ => ⟨reply, fun free => absurd free held⟩, id⟩

/-! ### What keeps the queues -/

/-- The report queues hold at most 16 reports still, if they did (R217). -/
def QueuesKept (s t : State) : Prop := s.mpt.queuesFit → t.mpt.queuesFit

theorem QueuesKept.refl (s : State) : QueuesKept s s := id

theorem QueuesKept.trans {s t u : State} (h : QueuesKept s t) (k : QueuesKept t u) : QueuesKept s u := k ∘ h

/-- The queues of both ports are as they were. -/
theorem QueuesKept.same {s t : State} (h : ∀ p, (t.port p).queue = (s.port p).queue) : QueuesKept s t := by
  unfold QueuesKept
  simp only [Mpt.queuesFit_iff]
  intro fits p
  have len := congrArg List.length (h p)
  exact len.trans_le (fits p)

theorem setSbc_queuesKept (s : State) (b : Sbc) : QueuesKept s (s.setSbc b) := id
theorem setPos_queuesKept (s : State) (p : Pos) : QueuesKept s (s.setPos p) := id
theorem setWge_queuesKept (s : State) (w : Wge) : QueuesKept s (s.setWge w) := id
theorem setTlu_queuesKept (s : State) (t : Tlu) : QueuesKept s (s.setTlu t) := id
theorem setCpm_queuesKept (s : State) (c : Cpm) : QueuesKept s (s.setCpm c) := id
theorem setWt_queuesKept (s : State) (w : Wt) : QueuesKept s (s.setWt w) := id
theorem setHls_queuesKept (s : State) (h : Hls) : QueuesKept s (s.setHls h) := id
theorem setStc_queuesKept (s : State) (c : Stc) : QueuesKept s (s.setStc c) := id
theorem setCfg_queuesKept (s : State) (c : Settings) : QueuesKept s (s.setCfg c) := id
theorem setSched_queuesKept (s : State) (l : List Nat) : QueuesKept s (s.setSched l) := id

/-- The delayed slots stand beside the queues. -/
theorem setSlots_queuesKept (s : State) (slots : Vector (Option DelayedSlot) 4) :
    QueuesKept s (s.setMpt { s.mpt with slots := slots }) := id

theorem finishWork_queuesKept (s : State) (k : DelayedKind) (result : List Byte) : QueuesKept s (s.finishWork k result) :=
  setSlots_queuesKept s _

theorem setPort_queuesKept {s : State} {p : Port} {q : PortState} (fits : (s.port p).queueFits → q.queueFits) :
    QueuesKept s (s.setPort p q) := by
  rintro ⟨cab, service⟩
  cases p
  · exact ⟨fits cab, service⟩
  · exact ⟨cab, fits service⟩

theorem queueReport_queuesKept (s : State) (r : Report) (body : List Byte) : QueuesKept s (s.queueReport r body) :=
  fun ⟨cab, service⟩ => ⟨PortState.queueReport_fits cab r body, PortState.queueReport_fits service r body⟩

theorem pump_queuesKept (s : State) : QueuesKept s s.pump :=
  fun ⟨cab, service⟩ => ⟨(PortState.pump_serves _).2 cab, (PortState.pump_serves _).2 service⟩

theorem foldl_queuesKept {α : Type} {f : State → α → State} (each : ∀ s a, QueuesKept s (f s a)) (l : List α) (s : State) :
    QueuesKept s (l.foldl f s) := by
  induction l generalizing s with
  | nil => exact .refl s
  | cons a l ih => exact (each s a).trans (ih _)

theorem runAny_queuesKept {fs : List (State → State)} (each : ∀ f ∈ fs, ∀ s, QueuesKept s (f s)) (s : State) :
    QueuesKept s (runAny fs s) :=
  runAny_rel QueuesKept .refl (fun _ _ _ => .trans) setSched_queuesKept each s

theorem queueAll_queuesKept (s : State) (r : Report) (bodies : List (List Byte)) : QueuesKept s (s.queueAll r bodies) :=
  foldl_queuesKept (fun s b => queueReport_queuesKept s r b) bodies s

theorem present_queuesKept (src : HoldSource) (mask : LineMask) (s : State) : QueuesKept s (present src mask s) :=
  (setHls_queuesKept s _).trans (queueAll_queuesKept _ _ _)

theorem endTare_queuesKept (c : WorkCode) (s : State) : QueuesKept s (endTare c s) := .same fun p => by rw [endTare_port]
theorem endCal_queuesKept (c : WorkCode) (s : State) : QueuesKept s (endCal c s) := .same fun p => by rw [endCal_port]

/-! ### WT's hand-overs (R159 to R166, R169) -/

theorem offerCapture_queuesKept (k : Fin 8) (s : State) : QueuesKept s (offerCapture k s) := by
  have filled (w : Wt) (body : List Byte) : QueuesKept s ((s.setWt w).queueReport .captureReady body) :=
    (setWt_queuesKept s w).trans (queueReport_queuesKept _ _ _)
  unfold offerCapture
  split
  · exact filled _ _
  · exact rel_ite (filled _ _) (setWt_queuesKept s _)

theorem fire_queuesKept (ev : SourceEvent) (k : Fin 8) (partner : Option (Fin 8)) (s : State) :
    QueuesKept s (fire ev k partner s) := by
  unfold fire
  refine (setWt_queuesKept s (s.wt.setHits k partner)).trans ?_
  split
  · exact queueReport_queuesKept _ _ _
  · exact offerCapture_queuesKept _ _
  · exact present_queuesKept _ _ _

theorem withdraw_queuesKept (k : Fin 8) (s : State) : QueuesKept s (withdraw k s) :=
  rel_ite (present_queuesKept _ _ _) (.refl s)

theorem judgeEdge_queuesKept (ev : SourceEvent) (k : Fin 8) (was : Bool) (s : State) : QueuesKept s (judgeEdge ev k was s) :=
  rel_ite ((setWt_queuesKept s _).trans (rel_ite (fire_queuesKept _ _ _ _) (rel_ite (withdraw_queuesKept _ _) (.refl _))))
    (rel_ite (fire_queuesKept _ _ _ _) (rel_ite (withdraw_queuesKept _ _) (.refl s)))

theorem evalEntry_queuesKept (ev : SourceEvent) (vals : Quantity → Option Marked) (s : State) (k : Fin 8) :
    QueuesKept s (evalEntry ev vals s k) := by
  refine rel_ite ?_ (.refl s)
  split
  · exact .refl s
  · exact (rel_ite (setWt_queuesKept s _) (.refl s)).trans (judgeEdge_queuesKept _ _ _ _)

theorem watchEvaluate_queuesKept (ev : SourceEvent) (vals : Quantity → Option Marked) (s : State) :
    QueuesKept s (watchEvaluate ev vals s) :=
  rel_ite (foldl_queuesKept (evalEntry_queuesKept ev vals) _ s) (.refl s)

theorem wtLive_queuesKept (m : Marked) (s : State) : QueuesKept s (wtLive m s) :=
  (setWt_queuesKept s _).trans (watchEvaluate_queuesKept _ _ _)

theorem wtPose_queuesKept (p : Pose) (s : State) : QueuesKept s (wtPose p s) :=
  (setWt_queuesKept s _).trans (watchEvaluate_queuesKept _ _ _)

theorem wtUtil_queuesKept (u : Marked) (s : State) : QueuesKept s (wtUtil u s) :=
  (setWt_queuesKept s _).trans (watchEvaluate_queuesKept _ _ _)

theorem resetLiftMass_queuesKept (s : State) (k : Fin 8) : QueuesKept s (resetLiftMass s k) :=
  rel_ite ((setWt_queuesKept s _).trans (judgeEdge_queuesKept _ _ _ _)) (.refl s)

theorem wtLift_queuesKept (old new : LiftState) (tag mass : Option Nat) (s : State) : QueuesKept s (wtLift old new tag mass s) := by
  have reset := (setWt_queuesKept s { s.wt with lift := new, tag := tag }).trans (rel_ite (c := old = .open_ ∧ new = .gripped)
    (foldl_queuesKept resetLiftMass_queuesKept (List.finRange 8) _) (.refl _))
  unfold wtLift
  dsimp only
  split
  · exact reset.trans (watchEvaluate_queuesKept _ _ _)
  · exact reset

theorem makeEntries_queuesKept (locked : Vector (Option WatchDef) 8) (s : State) : QueuesKept s (makeEntries locked s) :=
  (setWt_queuesKept s _).trans (foldl_queuesKept (fun s k => present_queuesKept (.watch k) 0#6 s) _ _)

theorem takeWatchWrite_queuesKept (k : Fin 8) (d : WatchDef) (s : State) : QueuesKept s (takeWatchWrite k d s) := by
  have written := (setWt_queuesKept s (s.wt.setEntry k (.of d))).trans (present_queuesKept (.watch k) 0#6 _)
  have ended (u : State) (w : Wt) : QueuesKept u (present (.watch (oddOf k)) 0#6 (u.setWt w)) :=
    (setWt_queuesKept u w).trans (present_queuesKept _ _ _)
  exact written.trans (rel_ite ((rel_ite (ended _ _) (.refl _)).trans (rel_ite (setWt_queuesKept _ _) (.refl _)))
    (rel_ite (setWt_queuesKept _ _) (.refl _)))

/-! ### CPM and the pose (R43, R142, R149, R152, R153) -/

theorem wgeUtil_queuesKept (u : Nat) (s : State) : QueuesKept s (wgeUtil u s) := by
  unfold wgeUtil
  split
  · exact rel_ite (.refl s) (setWge_queuesKept s _)
  · exact .refl s

theorem presentCap_queuesKept (old new : Cpm) (s : State) : QueuesKept s (presentCap old new s) :=
  rel_ite (present_queuesKept _ _ s) (.refl s)

theorem cpmEvaluate_queuesKept (s : State) : QueuesKept s (cpmEvaluate s) := by
  refine (setCpm_queuesKept s _).trans (runAny_queuesKept (fun f hf u => ?_) _)
  simp only [List.mem_cons, List.not_mem_nil, or_false] at hf
  obtain rfl | rfl | rfl | rfl := hf
  · exact wgeUtil_queuesKept _ u
  · exact wtUtil_queuesKept _ u
  · exact (rel_ite (queueReport_queuesKept u _ _) (.refl u)).trans (rel_ite (queueReport_queuesKept _ _ _) (.refl _))
  · exact presentCap_queuesKept _ _ u

theorem cpmTake_queuesKept (change : Cpm → Cpm) (s : State) : QueuesKept s (cpmTake change s) :=
  (setCpm_queuesKept s (change s.cpm)).trans (cpmEvaluate_queuesKept _)

theorem startPermit_queuesKept (s : State) : QueuesKept s (startPermit s) :=
  (setCpm_queuesKept s _).trans (presentCap_queuesKept _ _ _)

theorem expirePermit_queuesKept (s : State) : QueuesKept s (expirePermit s) := by
  refine (setCpm_queuesKept s _).trans (runAny_queuesKept (fun f hf u => ?_) _)
  simp only [List.mem_cons, List.not_mem_nil, or_false] at hf
  obtain rfl | rfl := hf
  · exact queueReport_queuesKept u _ _
  · exact presentCap_queuesKept _ _ u

theorem recompute_queuesKept (s : State) : QueuesKept s (recompute s) := by
  refine (setPos_queuesKept s _).trans (runAny_queuesKept (fun f hf u => ?_) _)
  simp only [List.mem_cons, List.not_mem_nil, or_false] at hf
  obtain rfl | rfl := hf
  · exact cpmTake_queuesKept _ u
  · exact wtPose_queuesKept _ u

/-! ### The tally and the weighing (R61 to R67, R114, R125, R132) -/

theorem reportTripClosed_queuesKept (t : Trip) (s : State) : QueuesKept s (reportTripClosed t s) :=
  (queueReport_queuesKept s _ _).trans (rel_ite (queueReport_queuesKept _ _ _) (.refl _))

theorem handBunkTotal_queuesKept (n : Nat) (s : State) : QueuesKept s (handBunkTotal n s) :=
  rel_ite (watchEvaluate_queuesKept _ _ s) (.refl s)

theorem takeCompletedLift_queuesKept (c : CompletedLift) (s : State) : QueuesKept s (takeCompletedLift c s) :=
  ((setTlu_queuesKept s _).trans (queueReport_queuesKept _ _ _)).trans
    (.trans (rel_ite (reportTripClosed_queuesKept _ _) (.refl _)) (handBunkTotal_queuesKept _ _))

theorem liveHandOvers_queuesKept (m : Marked) : ∀ f ∈ liveHandOvers m, ∀ s, QueuesKept s (f s) := by
  intro f hf
  simp only [liveHandOvers, List.mem_cons, List.not_mem_nil, or_false] at hf
  obtain rfl | rfl := hf
  · exact cpmTake_queuesKept _
  · exact wtLive_queuesKept m

theorem liftHandOvers_queuesKept (old new : LiftState) (tag mass : Option Nat) :
    ∀ f ∈ liftHandOvers old new tag mass, ∀ s, QueuesKept s (f s) := by
  intro f hf
  unfold liftHandOvers at hf
  split at hf
  · cases hf
  · simp only [List.mem_cons, List.not_mem_nil, or_false] at hf
    obtain rfl | rfl := hf
    · exact cpmTake_queuesKept _
    · exact wtLift_queuesKept old new tag mass

theorem linkArrival_queuesKept (c : Int) (o : Bool) (s : State) : QueuesKept s (linkArrival c o s) := by
  obtain ⟨rest, -⟩ := linkWork_leaves c o s
  have worked : QueuesKept s (linkWork c o s) := by
    rw [rest]
    exact id
  exact worked.trans (runAny_queuesKept (fun f hf => (List.mem_append.1 hf).elim (liftHandOvers_queuesKept _ _ _ _ f)
    (liveHandOvers_queuesKept _ f)) _)

theorem linkStale_queuesKept (s : State) : QueuesKept s (linkStale s) :=
  (setWge_queuesKept s _).trans ((endTare_queuesKept _ _).trans ((endCal_queuesKept _ _).trans
    (runAny_queuesKept (liveHandOvers_queuesKept _) _)))

theorem gripArrival_queuesKept (closed : Bool) (s : State) : QueuesKept s (gripArrival closed s) := by
  have handed (old new : LiftState) (tag mass : Option Nat) (u : State) : QueuesKept u (runAny (liftHandOvers old new tag mass) u) :=
    runAny_queuesKept (liftHandOvers_queuesKept _ _ _ _) u
  unfold gripArrival
  split
  · exact (setWge_queuesKept s _).trans ((endTare_queuesKept _ _).trans (handed _ _ _ _ _))
  · exact .refl s
  · exact .refl s
  · exact rel_ite ((setWge_queuesKept s _).trans (handed _ _ _ _ _))
      ((setWge_queuesKept s _).trans ((endCal_queuesKept _ _).trans ((takeCompletedLift_queuesKept _ _).trans (handed _ _ _ _ _))))

/-! ### Deliveries and polls (R23 to R30) -/

theorem deliverSample_queuesKept (r : Role) (returning : Bool) (x : Sample) (s : State) :
    QueuesKept s (deliverSample r returning x s) := by
  cases r
  case link => exact linkArrival_queuesKept _ _ s
  case grip => exact gripArrival_queuesKept _ s
  case slew | main | outer | tele | tilt => exact (setPos_queuesKept s _).trans (recompute_queuesKept _)

theorem deliverStale_queuesKept (r : Role) (s : State) : QueuesKept s (deliverStale r s) := by
  cases r
  case link => exact linkStale_queuesKept s
  case grip => exact .refl s
  case slew | main | outer | tele | tilt => exact (setPos_queuesKept s _).trans (recompute_queuesKept _)

theorem startAfresh_queuesKept (r : Role) (s : State) : QueuesKept s (startAfresh r s) := by
  cases r <;> exact id

theorem reportEntry_queuesKept (e : Entry) (s : State) : QueuesKept s (reportEntry e s) := queueReport_queuesKept s _ _

theorem applyPoll_queuesKept (e : Entry) (st : Bool) (obs : PollObs) (s : State) : QueuesKept s (applyPoll e st obs s) := by
  have reported : QueuesKept s (pollReported e st obs s) :=
    (setSbc_queuesKept s _).trans (rel_ite (reportEntry_queuesKept _ _) (.refl _))
  by_cases good : judgePoll e.expectWaking st e.pd.role obs = .ok ∧ e.pd.enable = true
  · obtain ⟨returning, afresh, x, delivers⟩ := applyPoll_delivers e st obs s good.1 good.2
    rw [delivers]
    exact reported.trans (.trans (rel_ite (startAfresh_queuesKept _ _) (.refl _)) (deliverSample_queuesKept _ _ _ _))
  · rw [applyPoll_undelivered e st obs s good]
    exact reported

theorem pollDone_queuesKept (t : Txn) (r : Role) (obs : PollObs) {after : Bool → PollOutcome → State → State}
    (h : ∀ b o s, QueuesKept s (after b o s)) (s : State) : QueuesKept s (pollDone t r obs after s) := by
  unfold pollDone
  split
  · exact rel_ite ((setSbc_queuesKept s _).trans (applyPoll_queuesKept _ _ _ _))
      ((setSbc_queuesKept s _).trans ((applyPoll_queuesKept _ _ _ _).trans (h _ _ _)))
  · exact (setSbc_queuesKept s _).trans (h _ _ _)

theorem sensorStale_queuesKept (r : Role) (s : State) : QueuesKept s (sensorStale r s) := by
  unfold sensorStale
  split
  · exact rel_ite (((setSbc_queuesKept s _).trans (reportEntry_queuesKept _ _)).trans (deliverStale_queuesKept _ _)) (.refl s)
  · exact .refl s

/-! ### The bus and its timers (R17, R19, R31 to R37) -/

theorem allMissing_queuesKept (s : State) : QueuesKept s (allMissing s) :=
  (setSbc_queuesKept s _).trans (foldl_queuesKept (fun s e => reportEntry_queuesKept e s) _ _)

theorem endWaitingPass_queuesKept (c : WorkCode) (s : State) : QueuesKept s (endWaitingPass c s) :=
  rel_ite ((setSbc_queuesKept s _).trans (finishWork_queuesKept _ _ _)) (.refl s)

theorem busStuck_queuesKept (s : State) : QueuesKept s (busStuck s) :=
  rel_ite ((setSbc_queuesKept s _).trans ((allMissing_queuesKept _).trans (endWaitingPass_queuesKept _ _)))
    (setSbc_queuesKept s _)

theorem afterTransaction_queuesKept (stuck : Bool) (s : State) : QueuesKept s (afterTransaction stuck s) :=
  rel_ite ((rel_ite (allMissing_queuesKept s) (.refl s)).trans (setSbc_queuesKept _ _))
    (rel_ite (busStuck_queuesKept s) (rel_ite (setSbc_queuesKept s _) (setSbc_queuesKept s _)))

theorem afterAttempt_queuesKept (ok : Bool) (s : State) : QueuesKept s (afterAttempt ok s) :=
  rel_ite (setSbc_queuesKept s _) (rel_ite (setSbc_queuesKept s _) (.refl s))

theorem pollTransactionDone_queuesKept (obs : PollObs) (s : State) : QueuesKept s (pollTransactionDone obs s) := by
  unfold pollTransactionDone
  split
  · split
    · exact pollDone_queuesKept _ _ _ (fun _ _ u => afterTransaction_queuesKept _ u) s
    · exact pollDone_queuesKept _ _ _ (fun _ _ u => afterAttempt_queuesKept _ u) s
    · exact .refl s
  · exact .refl s

theorem passthroughDone_queuesKept (obs : PassObs) (s : State) : QueuesKept s (passthroughDone obs s) := by
  unfold passthroughDone
  split
  · exact rel_ite (((setSbc_queuesKept s _).trans (finishWork_queuesKept _ _ _)).trans (afterTransaction_queuesKept _ _)) (.refl s)
  · exact .refl s

theorem roundTimerExpiry_queuesKept (s : State) : QueuesKept s (roundTimerExpiry s) := by
  unfold roundTimerExpiry
  split
  · exact rel_ite (setSbc_queuesKept s _) (.refl s)
  · exact .refl s

theorem stretchTimeout_queuesKept (s : State) : QueuesKept s (stretchTimeout s) := by
  unfold stretchTimeout
  split
  · exact setSbc_queuesKept s _
  · exact .refl s

theorem busFreePulseEnd_queuesKept (s : State) : QueuesKept s (busFreePulseEnd s) := by
  unfold busFreePulseEnd
  split
  · exact rel_ite (setSbc_queuesKept s _) (.refl s)
  · exact .refl s
  · exact .refl s

theorem recoveryWaitEnd_queuesKept (dataHigh : Bool) (s : State) : QueuesKept s (recoveryWaitEnd dataHigh s) := by
  unfold recoveryWaitEnd
  split
  · exact rel_ite (rel_ite (setSbc_queuesKept s _) (busStuck_queuesKept s)) (.refl s)
  · exact .refl s
  · exact .refl s

theorem recoveryAttempt_queuesKept (s : State) : QueuesKept s (recoveryAttempt s) := by
  unfold recoveryAttempt
  split
  · exact rel_ite (rel_ite (setSbc_queuesKept s _) (setSbc_queuesKept s _)) (.refl s)
  · exact .refl s

theorem attemptWaitEnd_queuesKept (dataHigh : Bool) (s : State) : QueuesKept s (attemptWaitEnd dataHigh s) := by
  unfold attemptWaitEnd
  split
  · refine rel_ite (rel_ite ?_ (setSbc_queuesKept s _)) (.refl s)
    split <;> exact setSbc_queuesKept s _
  · exact .refl s
  · exact .refl s

theorem replaceEvent_queuesKept (new : List Entry) (e : Entry) (s : State) : QueuesKept s (replaceEvent new e s) := by
  have lost (body : List Byte) : QueuesKept s (if e.fresh? = true then deliverStale e.pd.role (s.queueReport .sensorState body)
      else s.queueReport .sensorState body) :=
    (queueReport_queuesKept s _ _).trans (rel_ite (deliverStale_queuesKept _ _) (.refl _))
  unfold replaceEvent
  split
  · exact lost _
  · exact rel_ite (lost _) (rel_ite (.refl s)
      (rel_ite ((reportEntry_queuesKept _ s).trans (deliverStale_queuesKept _ _)) (.refl s)))

theorem takePollWrite_queuesKept (list : List PollDef) (s : State) : QueuesKept s (takePollWrite list s) := by
  refine (setSbc_queuesKept s _).trans ((runAny_queuesKept (fun f hf u => ?_) _).trans (recompute_queuesKept _))
  obtain ⟨e, -, rfl⟩ := List.mem_map.1 hf
  exact replaceEvent_queuesKept _ e u

/-! ### The other timers (R101, R153, R185, R203, R215) -/

theorem tareTimeout_queuesKept (s : State) : QueuesKept s (tareTimeout s) := by
  unfold tareTimeout
  split
  · exact rel_ite (endTare_queuesKept _ s) (.refl s)
  · exact .refl s

theorem permitExpiry_queuesKept (s : State) : QueuesKept s (permitExpiry s) := by
  unfold permitExpiry
  split
  · exact rel_ite (expirePermit_queuesKept s) (.refl s)
  · exact .refl s

theorem sense_queuesKept (levels : LineMask) (s : State) : QueuesKept s (sense levels s) :=
  ((setHls_queuesKept s _).trans (queueAll_queuesKept _ _ _)).trans (rel_ite (present_queuesKept _ _ _) (.refl _))

theorem senseExpiry_queuesKept (levels : LineMask) (s : State) : QueuesKept s (senseExpiry levels s) :=
  rel_ite ((setHls_queuesKept s _).trans (sense_queuesKept levels _)) (.refl s)

theorem discardExpiry_queuesKept (i : Fin 4) (s : State) : QueuesKept s (discardExpiry i s) := by
  unfold discardExpiry
  split
  · exact rel_ite (setSlots_queuesKept s _) (.refl s)
  · exact .refl s

theorem commitEnd_queuesKept (ok : Bool) (s : State) : QueuesKept s (commitEnd ok s) := by
  have ended (c : Stc) (result : List Byte) : QueuesKept s ((s.setStc c).finishWork .commit result) :=
    (setStc_queuesKept s c).trans (finishWork_queuesKept _ _ _)
  unfold commitEnd
  split
  · exact rel_ite (ended _ _) (ended _ _)
  · exact .refl s

/-! ### The operating states and the starts (R192 to R195, R204, R220) -/

theorem changeState_queuesKept (new : OpState) (s : State) : QueuesKept s (changeState new s) := by
  refine (setStc_queuesKept s { s.stc with op := new }).trans (runAny_queuesKept (fun f hf u => ?_) _)
  rw [stateHandOvers_eq] at hf
  obtain rfl | hf := List.mem_cons.1 hf
  · exact queueReport_queuesKept u _ _
  obtain rfl | rfl | rfl | rfl | rfl | rfl := mem_stateOthers hf
  · exact present_queuesKept _ _ u
  · exact rel_ite (setSbc_queuesKept u _) (.refl u)
  · exact setSbc_queuesKept u _
  · exact cpmTake_queuesKept _ u
  · exact endCal_queuesKept _ u
  · exact endWaitingPass_queuesKept _ u

theorem install_queuesKept (good : Bool) (c : ImageContents) (s : State) : QueuesKept s (install good c s) := by
  rw [install_eq]
  refine (setCfg_queuesKept s _).trans (runAny_queuesKept (fun f hf u => ?_) _)
  obtain rfl | rfl | rfl | rfl | rfl := mem_installers hf
  · exact setSbc_queuesKept u _
  · exact (setCfg_queuesKept u _).trans (recompute_queuesKept _)
  · rw [installWeigh_eq]
    exact (setCfg_queuesKept u _).trans (setWge_queuesKept _ _)
  · exact (setCfg_queuesKept u _).trans (cpmEvaluate_queuesKept _)
  · exact makeEntries_queuesKept _ u

theorem preloadDone_queuesKept (readFailed : Bool) (s : State) : QueuesKept s (preloadDone readFailed s) :=
  rel_ite ((install_queuesKept _ _ s).trans ((setStc_queuesKept _ _).trans (changeState_queuesKept _ _))) (.refl s)

/-- A reset leaves the queues empty (R220). -/
theorem afterReset_queuesFit (warm : Bool) (s : State) : (afterReset warm s).mpt.queuesFit := ⟨Nat.zero_le _, Nat.zero_le _⟩

/-- A reset leaves the transmitters idle with nothing to send (R220). -/
theorem afterReset_served (warm : Bool) (s : State) :
    (afterReset warm s).mpt.cab.served ∧ (afterReset warm s).mpt.service.served :=
  ⟨PortState.reset_served _, PortState.reset_served _⟩

end Sys2Proof.Machine
end

section
/-! PROOFS. The report queues at requests, frames and port breaks, and the transmitters and queues at every command and every step
(R207 to R209, R216, R217): O12. -/

namespace Sys2Proof.Machine

/-! ### The owners of the requests -/

theorem eitherRefusal_queuesKept (a b : Option Code) (s : State) : QueuesKept s (eitherRefusal a b s).2 := by
  unfold eitherRefusal
  split
  · obtain ⟨i, l, e, -⟩ := s.pick_eq 2
    rw [e]
    exact setSched_queuesKept s l
  · exact .refl s
  · exact .refl s

theorem takeSlot_queuesKept (s : State) (p : Port) (k : DelayedKind) (body : List Byte) : QueuesKept s (s.takeSlot p k body) := by
  unfold State.takeSlot
  split
  · exact setSlots_queuesKept s _
  · exact .refl s

theorem serveDelayed_queuesKept (p : Port) (k : DelayedKind) (body : List Byte) {judge : Bool → State → Option Code × State}
    {start : State → State} (judges : ∀ b s, QueuesKept s (judge b s).2) (starts : ∀ s, QueuesKept s (start s)) (s : State) :
    QueuesKept s (serveDelayed p k body judge start s).2 := by
  have judged := judges s.mpt.freeSlot.isSome s
  unfold serveDelayed
  split
  · split
    · exact .refl s
    · exact setSlots_queuesKept s _
  · refine rel_ite_answer (.refl s) ?_
    split
    · next e =>
      rw [e] at judged
      exact judged
    · next e =>
      rw [e] at judged
      exact judged.trans ((takeSlot_queuesKept _ _ _ _).trans (starts _))

section owners
variable (p : Port) (body : List Byte) (s : State)

theorem servePollWrite_queuesKept : QueuesKept s (servePollWrite p body s).2 := by
  have judged := eitherRefusal_queuesKept (if s.committing then some .busy else none) (pollRefusal (pollDefsOf body)) s
  unfold servePollWrite
  dsimp only
  split
  · next e =>
    rw [e] at judged
    exact judged
  · next e =>
    rw [e] at judged
    exact judged.trans (takePollWrite_queuesKept _ _)

theorem serveSensorPass_queuesKept : QueuesKept s (serveSensorPass p body s).2 := by
  refine serveDelayed_queuesKept _ _ _ (fun _ u => eitherRefusal_queuesKept _ _ u) (fun u => ?_) s
  cases passOf body with
  | none => exact .refl u
  | some x => exact (setSbc_queuesKept u _).trans (rel_ite (endWaitingPass_queuesKept _ _) (.refl _))

theorem serveBusRestart_queuesKept : QueuesKept s (serveBusRestart p body s).2 := by
  unfold serveBusRestart
  split
  · exact rel_ite_answer (setSbc_queuesKept s _) (setSbc_queuesKept s _)
  · exact rel_ite_answer (.refl s) (setSbc_queuesKept s _)
  · exact .refl s
  · exact .refl s

theorem serveVoidLift_queuesKept : QueuesKept s (serveVoidLift p body s).2 := by
  unfold serveVoidLift
  split
  · exact .refl s
  · exact (setTlu_queuesKept s _).trans (handBunkTotal_queuesKept _ _)

theorem serveAssignLift_queuesKept : QueuesKept s (serveAssignLift p body s).2 := by
  unfold serveAssignLift
  split
  · exact .refl s
  · exact (setTlu_queuesKept s _).trans (.trans (rel_ite (reportTripClosed_queuesKept _ _) (.refl _)) (handBunkTotal_queuesKept _ _))

theorem serveTripClose_queuesKept : QueuesKept s (serveTripClose p body s).2 :=
  rel_ite_answer ((setTlu_queuesKept s _).trans ((reportTripClosed_queuesKept _ _).trans (handBunkTotal_queuesKept _ _))) (.refl s)

theorem serveTare_queuesKept : QueuesKept s (serveTare p body s).2 :=
  serveDelayed_queuesKept p .tare body (fun _ u => .refl u)
    (fun u => rel_ite ((setWge_queuesKept u _).trans (endTare_queuesKept _ _)) (setWge_queuesKept u _)) s

theorem serveCalSpan_queuesKept : QueuesKept s (serveCalSpan p body s).2 :=
  serveDelayed_queuesKept p .calSpan body (fun _ u => .refl u)
    (fun u => rel_ite ((setWge_queuesKept u _).trans (endCal_queuesKept _ _)) (setWge_queuesKept u _)) s

theorem serveCommit_queuesKept : QueuesKept s (serveCommit p body s).2 :=
  serveDelayed_queuesKept p .commit body (fun _ u => .refl u) (fun u => setStc_queuesKept u _) s

theorem serveChartWrite_queuesKept : QueuesKept s (serveChartWrite p body s).2 := by
  have judged := eitherRefusal_queuesKept (if s.committing then some .busy else none)
    (if runAllowed (natAt body 0 1) (natAt body 1 1) then none else some .badField) s
  unfold serveChartWrite
  split
  · next e =>
    rw [e] at judged
    exact judged
  · next e =>
    rw [e] at judged
    exact judged.trans ((setCfg_queuesKept _ _).trans (cpmEvaluate_queuesKept _))

theorem serveOverrideSet_queuesKept : QueuesKept s (serveOverrideSet p body s).2 := by
  unfold serveOverrideSet
  split
  · next i o _ => exact cpmTake_queuesKept (fun c => { c with overrides := c.overrides.set i o }) s
  · exact .refl s

theorem servePermit_queuesKept : QueuesKept s (servePermit p body s).2 :=
  rel_ite_answer (.refl s) (rel_ite_answer (.refl s) (rel_ite_answer (.refl s) (startPermit_queuesKept s)))

theorem serveWatchWrite_queuesKept : QueuesKept s (serveWatchWrite p body s).2 := by
  unfold serveWatchWrite
  split
  · exact .refl s
  · refine rel_ite_answer (.refl s) ?_
    split
    · exact .refl s
    · exact takeWatchWrite_queuesKept _ _ s

theorem serveCaptureRead_queuesKept : QueuesKept s (serveCaptureRead p body s).2 := by
  unfold serveCaptureRead
  split
  · exact setWt_queuesKept s _
  · exact .refl s

theorem serveHoldManual_queuesKept : QueuesKept s (serveHoldManual p body s).2 := by
  unfold serveHoldManual
  split
  · exact present_queuesKept _ _ s
  · exact .refl s

theorem serveLineFaultClear_queuesKept : QueuesKept s (serveLineFaultClear p body s).2 := by
  unfold serveLineFaultClear
  split
  · exact (setHls_queuesKept s _).trans (rel_ite (present_queuesKept _ _ _) (.refl _))
  · exact .refl s

/-- The act of a parameter's block: a recomputation, an evaluation, or one of WGE's own (R55, R86, R93, R141). -/
theorem Param.act_queuesKept (q : Param) (v : Int) (s : State) : QueuesKept s (q.act v s) := by
  cases q
  case l1 | l2 | teleMax | column | slewOff | slewLo | slewHi | reachLo | reachHi => exact recompute_queuesKept s
  case pageSize | k | fMin | uWarn | uHold | uRel => exact cpmEvaluate_queuesKept s
  case z | span => exact setWge_queuesKept s _
  case lMin | d | rs | rm | n | nMin | zb | permitS => exact .refl s

theorem serveParamWrite_queuesKept : QueuesKept s (serveParamWrite p body s).2 := by
  have taken (q : Param) (v : Int) : QueuesKept s (takeParam q v s) := (setCfg_queuesKept s _).trans (q.act_queuesKept v _)
  unfold serveParamWrite
  split
  · exact .refl s
  · exact rel_ite_answer (.refl s) (rel_ite_answer (.refl s) (taken _ _))

theorem serveFeatures_queuesKept : QueuesKept s (serveFeatures p body s).2 :=
  rel_ite_answer (.refl s) ((setCfg_queuesKept s _).trans (.trans (rel_ite (.refl _) (setWge_queuesKept _ _))
    (cpmEvaluate_queuesKept _)))

theorem serveEnterService_queuesKept : QueuesKept s (serveEnterService p body s).2 :=
  rel_ite_answer (.refl s) (rel_ite_answer (.refl s) (changeState_queuesKept _ s))

theorem serveLeaveService_queuesKept : QueuesKept s (serveLeaveService p body s).2 :=
  rel_ite_answer (.refl s) (rel_ite_answer (.refl s) (changeState_queuesKept _ s))

theorem serveStandby_queuesKept : QueuesKept s (serveStandby p body s).2 :=
  rel_ite_answer (.refl s) (changeState_queuesKept _ s)

theorem serveReportEnable_queuesKept : QueuesKept s (serveReportEnable p body s).2 :=
  rel_ite_answer (setPort_queuesKept id) (.refl s)

end owners

/-- What an owner makes of any request keeps the queues within 16 (R207, row 8). -/
theorem serve_queuesKept (r : Req) (p : Port) (body : List Byte) (s : State) : QueuesKept s (serve r p body s).2 := by
  cases r
  case pose | sensors | pollRead | tallyRead | logRead | tripRead | chartRead | watchRead | linesRead | paramRead =>
    rw [serve_reads rfl]
    exact .refl s
  case status => exact setSbc_queuesKept s _
  case setAssortment => exact rel_ite_answer (setTlu_queuesKept s _) (.refl s)
  case defineAssortment | deleteAssortment | totalsReset => exact setTlu_queuesKept s _
  case hitClear => exact setWt_queuesKept s _
  case restart => exact rel_ite_answer (.refl s) (setStc_queuesKept s _)
  case pollWrite => exact servePollWrite_queuesKept p body s
  case sensorPass => exact serveSensorPass_queuesKept p body s
  case busRestart => exact serveBusRestart_queuesKept p body s
  case voidLift => exact serveVoidLift_queuesKept p body s
  case assignLift => exact serveAssignLift_queuesKept p body s
  case tripClose => exact serveTripClose_queuesKept p body s
  case tare => exact serveTare_queuesKept p body s
  case calSpan => exact serveCalSpan_queuesKept p body s
  case chartWrite => exact serveChartWrite_queuesKept p body s
  case overrideSet => exact serveOverrideSet_queuesKept p body s
  case permit => exact servePermit_queuesKept p body s
  case watchWrite => exact serveWatchWrite_queuesKept p body s
  case captureRead => exact serveCaptureRead_queuesKept p body s
  case holdManual => exact serveHoldManual_queuesKept p body s
  case lineFaultClear => exact serveLineFaultClear_queuesKept p body s
  case paramWrite => exact serveParamWrite_queuesKept p body s
  case features => exact serveFeatures_queuesKept p body s
  case enterService => exact serveEnterService_queuesKept p body s
  case leaveService => exact serveLeaveService_queuesKept p body s
  case standby => exact serveStandby_queuesKept p body s
  case commit => exact serveCommit_queuesKept p body s
  case reportEnable => exact serveReportEnable_queuesKept p body s

/-! ### Frames and ports (R204, R206 to R209, R216) -/

theorem judgeKnown_queuesKept (r : Req) (p : Port) (body : List Byte) (s : State) :
    QueuesKept s (judgeKnown r (serve r) p body s).2 := by
  unfold judgeKnown
  split
  · exact .refl s
  · exact changeState_queuesKept _ s
  all_goals
    split
    · exact .refl s
    · exact serve_queuesKept r p body s

theorem judgeFrame_queuesKept (p : Port) (kind : Byte) (body : List Byte) (s : State) :
    QueuesKept s (judgeFrame p kind body s).2 := by
  unfold judgeFrame
  split
  · exact judgeKnown_queuesKept _ p body s
  · unfold judgeUnknown
    split
    · exact .refl s
    · exact changeState_queuesKept _ s
    · exact .refl s
    · exact .refl s

theorem handle_queuesKept (p : Port) (kind : Byte) {judge : State → Answer × State} (judges : ∀ s, QueuesKept s (judge s).2)
    (s : State) : QueuesKept s (handle p kind judge s) :=
  (judges s).trans (setPort_queuesKept id)

theorem takeFrame_queuesKept (p : Port) (kind : Byte) (body : List Byte) {judge : State → Answer × State}
    (judges : ∀ s, QueuesKept s (judge s).2) (s : State) : QueuesKept s (takeFrame p kind body judge s) := by
  have heard (x : Rx) : QueuesKept s (s.setPort p { s.port p with rx := x }) := setPort_queuesKept id
  have held (x : Rx) (h : Option (Byte × List Byte)) :
      QueuesKept s ((s.setPort p { s.port p with rx := x }).setPort p { s.port p with rx := x, held := h }) := by
    rw [State.setPort_setPort]
    exact setPort_queuesKept id
  exact rel_ite (.refl s) (rel_ite (heard _) (rel_ite (held _ _) ((heard _).trans (handle_queuesKept p kind judges _))))

theorem takeAny_queuesKept (p : Port) (kind : Byte) (body : List Byte) (s : State) : QueuesKept s (takeAny p kind body s) :=
  takeFrame_queuesKept _ _ _ (judgeFrame_queuesKept p kind body) s

theorem heldFrame_queuesKept (p : Port) (s : State) : QueuesKept s (heldFrame p s) := by
  have freed (h : Option (Byte × List Byte)) : QueuesKept s (s.setPort p { s.port p with held := h }) := setPort_queuesKept id
  unfold heldFrame
  dsimp only
  split
  · exact rel_ite (.refl s) ((freed none).trans (handle_queuesKept _ _ (judgeFrame_queuesKept _ _ _) _))
  · exact .refl s

theorem byteIn_queuesKept (p : Port) (b : Byte) (s : State) : QueuesKept s (byteIn p b s) := by
  have taken (x : Rx) (n : Nat) : QueuesKept s (s.setPort p { s.port p with rx := x, lastByte := n }) := setPort_queuesKept id
  unfold byteIn
  dsimp only
  refine rel_ite (.refl s) ?_
  split
  · exact taken _ _
  · exact (taken .hunt s.now).trans (rel_ite (takeAny_queuesKept _ _ _ _) (.refl _))

theorem restartDue_queuesKept (p : Port) (f : Option OutFrame) (s : State) : QueuesKept s (restartDue p f s) := by
  unfold restartDue
  split
  · exact rel_ite (setStc_queuesKept s _) (.refl s)
  · exact .refl s

theorem frameSent_queuesKept (p : Port) (s : State) : QueuesKept s (frameSent p s) := by
  have sent : QueuesKept s (s.setPort p { s.port p with tx := none }) := setPort_queuesKept id
  exact sent.trans (restartDue_queuesKept _ _ _)

theorem hunt_queuesKept (p : Port) (s : State) : QueuesKept s (hunt p s) := setPort_queuesKept id

theorem lineIdle_queuesKept (p : Port) (s : State) : QueuesKept s (lineIdle p s) := rel_ite (setPort_queuesKept id) (.refl s)

/-- A break empties its port's queue (R216). -/
theorem portBreak_queuesKept (p : Port) (s : State) : QueuesKept s (portBreak p s) := by
  have broken : QueuesKept s (s.setPort p (s.port p).broken) := setPort_queuesKept fun _ => Nat.zero_le _
  have dropped (u : State) : QueuesKept u (dropPass u) := rel_ite (setSbc_queuesKept u _) (.refl u)
  exact rel_ite (.refl s) ((broken.trans (setSlots_queuesKept _ _)).trans
    ((rel_ite (dropped _) (.refl _)).trans (restartDue_queuesKept _ _ _)))

/-! ### Every command and every step -/

theorem completes_queuesKept {f : State → State} (hf : ∀ s, QueuesKept s (f s)) {s t : State} (h : completes f s = .next t) :
    QueuesKept s t := by
  cases h
  exact rel_ite ((hf s).trans (pump_queuesKept _)) (.refl s)

theorem exec_queuesKept {c : Instr} {s t : State} (h : exec c s = .next t) : QueuesKept s t := by
  have reset (warm : Bool) (u : State) : QueuesKept u (afterReset warm u) := fun _ => afterReset_queuesFit warm u
  cases c
  case powerOn => cases h; exact reset _ s
  case supplyLoss => cases h; exact reset true s
  case restartReset => exact completes_queuesKept (fun u => rel_ite (reset true u) (.refl u)) h
  case preloadDone => exact completes_queuesKept (preloadDone_queuesKept _) h
  case roundTimerExpiry => exact completes_queuesKept roundTimerExpiry_queuesKept h
  case pollTransactionDone => exact completes_queuesKept (pollTransactionDone_queuesKept _) h
  case stretchTimeout => exact completes_queuesKept stretchTimeout_queuesKept h
  case sensorStale => exact completes_queuesKept (sensorStale_queuesKept _) h
  case busFreePulseEnd => exact completes_queuesKept busFreePulseEnd_queuesKept h
  case recoveryWaitEnd => exact completes_queuesKept (recoveryWaitEnd_queuesKept _) h
  case recoveryAttempt => exact completes_queuesKept recoveryAttempt_queuesKept h
  case attemptWaitEnd => exact completes_queuesKept (attemptWaitEnd_queuesKept _) h
  case passthroughDone => exact completes_queuesKept (passthroughDone_queuesKept _) h
  case tareTimeout => exact completes_queuesKept tareTimeout_queuesKept h
  case permitExpiry => exact completes_queuesKept permitExpiry_queuesKept h
  case senseExpiry => exact completes_queuesKept (senseExpiry_queuesKept _) h
  case discardExpiry => exact completes_queuesKept (discardExpiry_queuesKept _) h
  case frameGapTimeout => exact completes_queuesKept (fun u => rel_ite (hunt_queuesKept _ u) (.refl u)) h
  case frameBadCheck | stopBitLow => exact completes_queuesKept (hunt_queuesKept _) h
  case lineReturnsToIdle => exact completes_queuesKept (lineIdle_queuesKept _) h
  case unknownKind | frameHeld | standbyWake => exact completes_queuesKept (takeAny_queuesKept _ _ _) h
  case heldFrameHandled => exact completes_queuesKept (heldFrame_queuesKept _) h
  case frameSent => exact completes_queuesKept (frameSent_queuesKept _) h
  case portBreak => exact completes_queuesKept (portBreak_queuesKept _) h
  case commitDone => exact completes_queuesKept (commitEnd_queuesKept _) h
  case byteArrival => exact completes_queuesKept (byteIn_queuesKept _ _) h
  all_goals exact completes_queuesKept (takeFrame_queuesKept _ _ _ (judgeKnown_queuesKept _ _ _)) h

/-- Both transmitters are served (R209). -/
def Mpt.served (m : Mpt) : Prop := m.cab.served ∧ m.service.served

/-- An event ends with both transmitters begun (R209; notes/assumptions/8.md); with the supply away nothing moves. -/
theorem completes_served {f : State → State} {s t : State} (served : s.mpt.served) (h : completes f s = .next t) : t.mpt.served := by
  cases h
  split
  · exact ⟨(PortState.pump_serves _).1, (PortState.pump_serves _).1⟩
  · exact served

theorem exec_served {c : Instr} {s t : State} (served : s.mpt.served) (h : exec c s = .next t) : t.mpt.served := by
  cases c
  case powerOn => cases h; exact afterReset_served _ s
  case supplyLoss => cases h; exact afterReset_served true s
  all_goals exact completes_served served h

/-- The time base leaves the ports alone (R8). -/
theorem tick_mpt (s : State) : (tick s).mpt = s.mpt := by
  unfold tick
  split <;> rfl

/-- Settles O12: every event ends with the transmitters begun (`completes_served`), a reset leaves them nothing to send
(`afterReset_served`), and no operation lets a queue grow but a report that finds room (`PortState.queueReport_fits`,
`exec_queuesKept`). -/
theorem portLawsKept : Obligations.PortLawsKept := by
  refine ⟨fun s t cab service h => ?_, fun s t fits h => ?_⟩
  · obtain ⟨c, rest, -, runs⟩ | ⟨-, rfl⟩ := step_cases h
    · have waited : (s.setPending rest).mpt.served := ⟨cab, service⟩
      exact exec_served waited runs
    · rw [tick_mpt]
      exact ⟨cab, service⟩
  · obtain ⟨c, rest, -, runs⟩ | ⟨-, rfl⟩ := step_cases h
    · exact exec_queuesKept runs fits
    · rw [tick_mpt]
      exact fits

end Sys2Proof.Machine
end

section
/-! PROOFS. Frames refused, held, and repeated (R200, R207, R208, R213, R214): O17, O19 and O47. -/

namespace Sys2Proof.Machine

/-! ### The judgement of a frame (R207) -/

/-- In START every request is START_BUSY (R207, row 1). -/
theorem judgeKnown_start {s : State} (op : s.stc.op = .start) (r : Req) (owner : Port → List Byte → State → Answer × State) (p : Port)
    (body : List Byte) : judgeKnown r owner p body s = (.refuse .startBusy, s) := by
  simp [judgeKnown, op]

/-- In RUN and SERVICE a request that rows 4 to 6 refuse does not reach its owner (R207). -/
theorem judgeKnown_refused {r : Req} {p : Port} {body : List Byte} {s : State} {c : Code} (op : s.stc.op = .run ∨ s.stc.op = .service)
    (refused : refusal p s.stc.op r body = some c) (owner : Port → List Byte → State → Answer × State) :
    judgeKnown r owner p body s = (.refuse c, s) := by
  unfold judgeKnown
  rcases op with op | op <;> simp only [op] at refused ⊢ <;> rw [refused]

section refusals
variable {p : Port} {op : OpState} {r : Req}

/-- The cab lockout of SERVICE (R197; R207, row 4). -/
theorem refusal_locked (no : admits .cab .service r = false) (body : List Byte) : refusal .cab .service r body = some .locked := by
  simp [refusal, lockedOut, no]

/-- A request that its port does not admit, the cab lockout aside (R207, row 5). -/
theorem refusal_wrongState (no : admits p op r = false) (unlocked : p = .service ∨ op = .run) (body : List Byte) :
    refusal p op r body = some .wrongState := by
  rcases unlocked with rfl | rfl <;> simp [refusal, lockedOut, no]

/-- A body of a length that its kind does not allow (R207, row 6). -/
theorem refusal_badField {body : List Byte} (admitted : admits p op r = true) (unfit : bodyFits r body = false) :
    refusal p op r body = some .badField := by
  simp [refusal, lockedOut, admitted, unfit]

end refusals

/-- A frame of a kind that names no request is judged by the state alone (R207, rows 1 to 3). -/
theorem judgeFrame_unknown {kind : Byte} (unknown : Req.ofCode kind = none) (p : Port) (body : List Byte) (s : State) :
    judgeFrame p kind body s = judgeUnknown s := by
  simp [judgeFrame, unknown]

/-! ### A frame refused on a port that is ready -/

section ready
variable {p : Port} {s t : State} {c : Code} (ready : Ready p s)
include ready

/-- A frame that is refused is answered with an empty body (R207). -/
theorem completes_refused {judge : State → Answer × State} (refused : judge (s.heard p) = (.refuse c, t)) (kind : Byte)
    (body : List Byte) : completes (takeFrame p kind body judge) s = .next (t.answered p kind c []) := by
  rw [completes_takeFrame ready, refused]
  rfl

theorem exec_frame_refused {r : Req} {body : List Byte} (refused : judgeKnown r (serve r) p body (s.heard p) = (.refuse c, t)) :
    exec (r.frame p body) s = .next (t.answered p r.code c []) := by
  rw [exec_frame]
  exact completes_refused ready refused _ _

theorem exec_unknownKind_refused {kind : Byte} (unknown : Req.ofCode kind = none) (refused : judgeUnknown (s.heard p) = (.refuse c, t))
    (body : List Byte) : exec (.unknownKind p kind body) s = .next (t.answered p kind c []) :=
  completes_refused ready ((judgeFrame_unknown unknown p body _).trans refused) _ _

end ready

/-- Settles O17: the rows of R207 in order, each a refusal of the frame on a port that is ready. -/
theorem refusedFrames : Obligations.RefusedFrames := by
  refine ⟨fun r p body s ready start => ?_, fun r p body s ready working => ⟨?locked, ?wrongState, ?badField⟩,
    fun p kind body s ready unknown => ⟨?known, ?start, ?standby⟩⟩
  · exact exec_frame_refused ready (judgeKnown_start (s := s.heard p) start r _ p body)
  case locked =>
    rintro no rfl service
    rw [service] at no
    refine exec_frame_refused ready (judgeKnown_refused (s := s.heard .cab) working ?_ _)
    rw [heard_stc, service]
    exact refusal_locked no body
  case wrongState =>
    exact fun no unlocked => exec_frame_refused ready
      (judgeKnown_refused (s := s.heard p) working (refusal_wrongState no unlocked body) _)
  case badField =>
    exact fun admitted unfit => exec_frame_refused ready
      (judgeKnown_refused (s := s.heard p) working (refusal_badField admitted unfit) _)
  case known =>
    intro working
    refine exec_unknownKind_refused ready unknown ?_ body
    rcases working with op | op <;> simp [judgeUnknown, op]
  case start => exact fun op => exec_unknownKind_refused ready unknown (by simp [judgeUnknown, op]) body
  case standby => exact fun op => exec_unknownKind_refused ready unknown (by simp [judgeUnknown, op, wake]) body

/-! ### Frames held (R208) -/

section held
variable {p : Port} {s : State} (whole : (s.port p).breakOn = false)
include whole

/-- A frame that finds the reply path busy is held. -/
theorem takeFrame_holds (unheld : (s.port p).held = none) (busy : (s.port p).replyBusy = true) (kind : Byte) (body : List Byte)
    (judge : State → Answer × State) :
    takeFrame p kind body judge s = s.setPort p { s.port p with rx := .hunt, held := some (kind, body) } := by
  simp [takeFrame, whole, unheld, busy]

/-- A frame that finds another held is discarded without a reply. -/
theorem takeFrame_discards (holding : (s.port p).held.isSome = true) (kind : Byte) (body : List Byte) (judge : State → Answer × State) :
    takeFrame p kind body judge s = s.heard p := by
  simp [takeFrame, whole, holding, State.heard]

end held

/-- A held frame whose turn has come is handled on a port that holds none (R208). -/
theorem heldFrame_due {p : Port} {kind : Byte} {body : List Byte} {s : State} (held : (s.port p).held = some (kind, body))
    (free : (s.port p).replyBusy = false) (undue : s.stc.restart ≠ .due) :
    heldFrame p s = handle p kind (judgeFrame p kind body) (s.setPort p { s.port p with held := none }) := by
  simp [heldFrame, held, free, undue]

/-- A frame on a port that is ready, with its receiver in HUNT, is judged in the state as it stands. -/
theorem takeFrame_hunting {p : Port} {s : State} (ready : Ready p s) (hunting : (s.port p).rx = .hunt) (kind : Byte) (body : List Byte)
    (judge : State → Answer × State) : takeFrame p kind body judge s = handle p kind judge s := by
  have heard : s.heard p = s := by
    unfold State.heard
    rw [← hunting]
    exact congrArg s.setMpt (Mpt.setPort_self s.mpt p)
  rw [takeFrame_ready ready, heard]
  rfl

/-- Settles O19: the event of a held frame is that of the same frame received with none held. -/
theorem heldFrames : Obligations.HeldFrames := by
  refine ⟨fun p kind body s powered whole => ⟨fun unheld busy => ?_, fun holding => ?_⟩,
    fun p r body s powered whole hunting held free undue => ⟨_, completes_powered (f := heldFrame p) powered, ?_⟩⟩
  · refine (completes_powered (f := takeAny p kind body) powered).trans ?_
    unfold takeAny
    rw [takeFrame_holds whole unheld busy]
  · refine (completes_powered (f := takeAny p kind body) powered).trans ?_
    unfold takeAny
    rw [takeFrame_discards whole holding]
  · have same : (s.setPort p { s.port p with held := none }).port p = { s.port p with held := none } := State.port_setPort_same _ _ _
    have ready : Ready p (s.setPort p { s.port p with held := none }) :=
      ⟨powered, by rw [same]; exact whole, by rw [same], by rw [same]; exact free⟩
    rw [exec_frame, completes_powered ready.1, heldFrame_due held free undue]
    unfold takeRequest
    rw [takeFrame_hunting ready (by rw [same]; exact hunting), funext (judgeFrame_code r p body)]

/-! ### Repeats of delayed requests (R214) -/

/-- The owner of a delayed request looks at the slots first (R213, R214). -/
theorem serve_delayed {r : Req} {k : DelayedKind} (delayed : r.delayed = some k) (p : Port) (body : List Byte) :
    ∃ judge start, ∀ s, serve r p body s = serveDelayed p k body judge start s := by
  cases r
  case tare | calSpan | sensorPass | commit =>
    cases delayed
    exact ⟨_, _, fun _ => rfl⟩
  all_goals cases delayed

section repeats
variable {p : Port} {k : DelayedKind} {body : List Byte} {s : State} (judge : Bool → State → Option Code × State)
  (start : State → State)

theorem serveDelayed_working {i : Fin 4} {d : DelayedSlot} (found : s.mpt.matching p k body = some (i, d)) (works : d.state = .working) :
    serveDelayed p k body judge start s = (.refuse .pending, s) := by
  simp [serveDelayed, found, works]

theorem serveDelayed_done {i : Fin 4} {d : DelayedSlot} {result : List Byte} {u : Nat}
    (found : s.mpt.matching p k body = some (i, d)) (done : d.state = .done result u) :
    serveDelayed p k body judge start s = (.ok result, s.freeDelayed i) := by
  simp [serveDelayed, found, done]

theorem serveDelayed_conflicts (unmatched : s.mpt.matching p k body = none) (other : s.mpt.conflicting p k body = true) :
    serveDelayed p k body judge start s = (.refuse .busy, s) := by
  simp [serveDelayed, unmatched, other]

end repeats

/-- Settles O47: the slots are looked at before the owner judges (`serve_delayed`). -/
theorem delayedRepeats : Obligations.DelayedRepeats := by
  intro r k p body s delayed admitted
  obtain ⟨judge, start, serves⟩ := serve_delayed delayed p body
  have slots := heard_slots s p
  rw [← Mpt.matching_congr slots p k body, ← Mpt.conflicting_congr slots p k body]
  refine ⟨fun i d found works => ?_, fun i d result u found done => ?_, fun unmatched other => ?_⟩
  · exact exec_refused admitted ((serves _).trans (serveDelayed_working judge start found works))
  · exact exec_taken admitted ((serves _).trans (serveDelayed_done judge start found done))
  · exact exec_refused admitted ((serves _).trans (serveDelayed_conflicts judge start unmatched other))

end Sys2Proof.Machine
end

section
/-! PROOFS. The receiver, byte by byte and frame by frame (R206): O20, O21 and O22. -/

namespace Sys2Proof.Machine

/-! ### The receiver's table (R206) -/

theorem Rx.take_hunt (b : Byte) : Rx.hunt.take b = (if b = 0xA5#8 then .length else .hunt, none) := rfl

theorem Rx.take_length (b : Byte) :
    Rx.length.take b = (if 1 ≤ b.toNat ∧ b.toNat ≤ 250 then .content b.toNat [] else .hunt, none) := rfl

theorem Rx.take_content_more {len : Nat} {got : List Byte} (more : got.length + 1 < len + 2) (b : Byte) :
    (Rx.content len got).take b = (.content len (got ++ [b]), none) := if_pos more

theorem Rx.take_content_last {len : Nat} {got : List Byte} (last : got.length + 1 = len + 2) (b : Byte) :
    (Rx.content len got).take b = (.hunt, some (len, got ++ [b])) := if_neg (by omega)

/-! ### The gap (R206; notes/assumptions/11.md) -/

theorem PortState.gapOver_iff (q : PortState) (now : Nat) : q.gapOver now = true ↔ q.rx ≠ .hunt ∧ q.lastByte + 20 < now := by
  simp only [PortState.gapOver, Bool.and_eq_true, decide_eq_true_eq]
  rfl

/-- The receiver state in which a byte that comes now is examined. -/
def PortState.examining (q : PortState) (now : Nat) : Rx := if q.gapOver now then .hunt else q.rx

section examining
variable {q : PortState} {now : Nat}

/-- A byte in time is examined in the state as it stands. -/
theorem PortState.examining_inTime (inTime : now ≤ q.lastByte + 20) : q.examining now = q.rx :=
  if_neg fun gap => absurd ((q.gapOver_iff now).1 gap).2 (by omega)

theorem PortState.examining_hunt (hunting : q.rx = .hunt) : q.examining now = .hunt := by simp [PortState.examining, hunting]

/-- The byte that ends a gap is examined in HUNT. -/
theorem PortState.examining_late (late : q.lastByte + 20 < now) : q.examining now = .hunt := by
  by_cases hunting : q.rx = .hunt
  · exact examining_hunt hunting
  · exact if_pos ((q.gapOver_iff now).2 ⟨hunting, late⟩)

end examining

/-! ### One byte (R206) -/

section byte
variable {p : Port} {b : Byte} {s : State} (whole : (s.port p).breakOn = false)
include whole

/-- A byte that completes no frame moves the receiver. -/
theorem byteIn_goesOn {x : Rx} (takes : ((s.port p).examining s.now).take b = (x, none)) :
    byteIn p b s = s.setPort p { s.port p with rx := x, lastByte := s.now } := by
  unfold PortState.examining at takes
  simp only [byteIn, whole, Bool.false_eq_true, if_false, takes]

/-- A byte that completes a frame has its CHECK tested. -/
theorem byteIn_completes {x : Rx} {len : Nat} {got : List Byte} (takes : ((s.port p).examining s.now).take b = (x, some (len, got))) :
    byteIn p b s =
      if checkPasses len got then
        takeAny p (byteAt got 0) ((got.take len).drop 1) (s.setPort p { s.port p with rx := .hunt, lastByte := s.now })
      else s.setPort p { s.port p with rx := .hunt, lastByte := s.now } := by
  unfold PortState.examining at takes
  simp only [byteIn, whole, Bool.false_eq_true, if_false, takes]

/-- The event of a byte that completes no frame. -/
theorem exec_byteArrival_goesOn (powered : s.powered = true) {x : Rx} (takes : ((s.port p).examining s.now).take b = (x, none)) :
    exec (.byteArrival p b) s = .next (s.setPort p { s.port p with rx := x, lastByte := s.now }).pump := by
  refine (completes_powered (f := byteIn p b) powered).trans ?_
  rw [byteIn_goesOn whole takes]

end byte

/-- Settles O20: the receiver's table in the state that the gap test gives (`PortState.examining`), and the three discards. -/
theorem receiverTable : Obligations.ReceiverTable := by
  refine ⟨fun p b s powered whole => ?_, fun p s powered => ⟨fun collecting late => ?_, ?_, ?_⟩⟩
  · intro now
    refine ⟨fun hunting => ?_, fun length inTime => ?_, fun len got content inTime more => ?_, fun late => ?_⟩ <;>
      apply exec_byteArrival_goesOn whole powered
    · rw [PortState.examining_hunt hunting, Rx.take_hunt]
    · rw [PortState.examining_inTime inTime, length, Rx.take_length]
    · rw [PortState.examining_inTime inTime, content, Rx.take_content_more more]
    · rw [PortState.examining_late late, Rx.take_hunt]
  · have ended : gapTimeout p s = s.heard p := if_pos (((s.port p).gapOver_iff s.now).2 ⟨collecting, late⟩)
    refine (completes_powered (f := gapTimeout p) powered).trans ?_
    rw [ended]
  · exact completes_powered (f := discardPartial p) powered
  · exact completes_powered (f := discardPartial p) powered

/-- Settles O22: the event of the completing byte is that of the frame's own command in the state the byte leaves. -/
theorem completingByteIsTheFrame : Obligations.CompletingByteIsTheFrame := by
  intro p b len got s ⟨powered, whole, _, _⟩ content full _ inTime u
  have takes : ((s.port p).examining s.now).take b = (.hunt, some (len, got ++ [b])) := by
    rw [PortState.examining_inTime inTime, content, Rx.take_content_last (by omega)]
  have event : exec (.byteArrival p b) s = .next (byteIn p b s).pump := completes_powered (f := byteIn p b) powered
  have frame : checkPasses len (got ++ [b]) = true →
      exec (.byteArrival p b) s = completes (takeAny p (byteAt (got ++ [b]) 0) (((got ++ [b]).take len).drop 1)) u := by
    intro passes
    rw [event, byteIn_completes whole takes, if_pos passes, completes_powered (s := u) powered]
  refine ⟨fun r passes code => ?_, fun passes _ => frame passes, fun fails => ?_⟩
  · rw [frame passes, exec_frame, ← code]
    unfold takeAny takeRequest
    rw [funext (judgeFrame_code r p _)]
  · rw [event, byteIn_completes whole takes, if_neg (by simp [fails])]

/-! ### Two-byte numbers (R13) -/

theorem be2_eq (n : Nat) : be2 n = [BitVec.ofNat 8 (n / 256), BitVec.ofNat 8 n] := by
  have byte (m : Nat) : BitVec.ofInt 8 (m : Int) = BitVec.ofNat 8 m := BitVec.ofInt_natCast 8 m
  simp only [be2, beBytes, pow_one, pow_zero, Int.ediv_one, byte]
  rw [← byte (n / 256)]
  rfl

theorem beNat_be2 {n : Nat} (small : n < 65536) : beNat (be2 n) = n := by
  rw [be2_eq]
  simp only [beNat, List.foldl, BitVec.toNat_ofNat]
  omega

/-! ### A whole frame (R206) -/

/-- The bytes from KIND to CHECK, fed one by one, are collected whole. -/
theorem Rx.foldl_content {len : Nat} {bytes : List Byte} (nonempty : bytes ≠ []) {got : List Byte}
    (all : got.length + bytes.length = len + 2) (done : Option (Nat × List Byte)) :
    bytes.foldl (fun (x : Rx × Option (Nat × List Byte)) b => x.1.take b) (.content len got, done) =
      (.hunt, some (len, got ++ bytes)) := by
  induction bytes generalizing got done with
  | nil => exact absurd rfl nonempty
  | cons b rest ih =>
    cases rest with
    | nil => exact Rx.take_content_last all b
    | cons c rest =>
      have more : got.length + 1 < len + 2 := by
        simp only [List.length_cons] at all
        omega
      rw [List.foldl_cons, Rx.take_content_more more, ih (by simp) (by simp at all ⊢; omega)]
      simp

/-- The CHECK laid out after the bytes from KIND passes the test. -/
theorem checkPasses_laidOut (inner : List Byte) : checkPasses inner.length (inner ++ be2 (checkOf inner).toNat) = true := by
  unfold checkPasses
  rw [List.take_left, List.drop_left, beNat_be2 (checkOf inner).isLt, BitVec.ofNat_toNat, BitVec.setWidth_eq]
  exact beq_self_eq_true _

/-- Settles O21: SYNC, LEN, then the content (`Rx.foldl_content`). -/
theorem wireFramesAreReceived : Obligations.WireFramesAreReceived := by
  intro kind body fits inner feed wire got
  have len : inner.length ≤ 250 := by simp only [inner, List.length_cons]; omega
  have lenByte : (BitVec.ofNat 8 inner.length).toNat = inner.length := by
    rw [BitVec.toNat_ofNat]
    omega
  have size : got.length = inner.length + 2 := by simp [got, be2_length]
  refine ⟨?_, checkPasses_laidOut inner, rfl, ?_⟩
  · have sync : Rx.hunt.take 0xA5#8 = (.length, none) := rfl
    have length : Rx.length.take (BitVec.ofNat 8 inner.length) = (.content inner.length [], none) := by
      rw [Rx.take_length, lenByte, if_pos ⟨by simp [inner], len⟩]
    have content := Rx.foldl_content (len := inner.length) (bytes := got) (got := []) (by simp [got, inner]) (by simpa using size) none
    calc wire.foldl feed (.hunt, none)
        = got.foldl feed ((Rx.hunt.take 0xA5#8).1.take (BitVec.ofNat 8 inner.length)) := rfl
      _ = (.hunt, some (inner.length, got)) := by rw [sync, length]; exact content
  · simp [got, inner]

end Sys2Proof.Machine
end

section
/-! PROOFS. The transmitter's order, and the reports (R207, R209, R217, R218): O23 and O25. -/

namespace Sys2Proof.Machine

/-! ### The transmitter (R209, R217) -/

/-- With no RESTART under way, a frame sent leaves its transmitter idle and changes nothing else (R204, R209). -/
theorem frameSent_eq {s : State} (restart : s.stc.restart = .none_) (p : Port) :
    frameSent p s = s.setPort p { s.port p with tx := none } := by
  unfold frameSent restartDue
  split
  · exact if_neg (by simp [restart])
  · rfl

/-- Settles O23: what the transmitter begins once its frame has gone (`PortState.pump_reply`, `PortState.pump_report`). -/
theorem transmitterOrder : Obligations.TransmitterOrder := by
  intro p f s powered restart _
  refine ⟨_, completes_powered (f := frameSent p) powered, ?_⟩
  rw [frameSent_eq restart, pump_port, State.port_setPort_same]
  have idle : ({ s.port p with tx := none } : PortState).tx = none := rfl
  refine ⟨fun r reply => ?_, fun r rest unanswered free queue => ?_, fun unanswered queue => ?_,
    rfl, rfl, rfl, rfl, rfl, rfl, rfl, State.setPort_slots _ _ _⟩
  · rw [PortState.pump_reply idle reply]
    exact ⟨rfl, rfl, rfl, rfl⟩
  · rw [PortState.pump_report idle unanswered free queue]
    exact ⟨rfl, rfl, rfl⟩
  · rw [PortState.pump_empty idle unanswered queue]

/-! ### REPORT_ENABLE (R218) -/

/-- A mask is answered as it was sent (R13, R218). -/
theorem be2_mask (hi lo : Byte) : be2 (hi.toNat * 256 + lo.toNat) = [hi, lo] := by
  have high := hi.isLt
  have low := lo.isLt
  have first : BitVec.ofNat 8 ((hi.toNat * 256 + lo.toNat) / 256) = hi := BitVec.eq_of_toNat_eq (by rw [BitVec.toNat_ofNat]; omega)
  have second : BitVec.ofNat 8 (hi.toNat * 256 + lo.toNat) = lo := BitVec.eq_of_toNat_eq (by rw [BitVec.toNat_ofNat]; omega)
  rw [be2_eq, first, second]

/-- A mask names none of bits 10 to 15 exactly when its first byte is below 4 (R218). -/
theorem natAt_mask_lt (hi lo : Byte) : natAt [hi, lo] 0 2 < 0x400 ↔ hi.toNat < 4 := by
  have low := lo.isLt
  rw [natAt_two]
  omega

/-- Settles O25: REPORT_ENABLE as MPT serves it, and a report as a port's queue meets it. -/
theorem reportRules : Obligations.ReportRules := by
  refine ⟨fun p hi lo s admitted => ?_, fun s r body p => queueReport_port s r body p⟩
  split
  · next named =>
    have served : serve .reportEnable p [hi, lo] (s.heard p) =
        (.ok [hi, lo], (s.heard p).setPort p { (s.heard p).port p with enable := BitVec.ofNat 16 (hi.toNat * 256 + lo.toNat) }) := by
      refine (if_pos ((natAt_mask_lt hi lo).2 named)).trans ?_
      rw [natAt_two, be2_mask]
    exact exec_taken (r := .reportEnable) admitted served
  · next unnamed =>
    have served : serve .reportEnable p [hi, lo] (s.heard p) = (.refuse .badField, s.heard p) :=
      if_neg fun small => unnamed ((natAt_mask_lt hi lo).1 small)
    exact exec_refused (r := .reportEnable) admitted served

end Sys2Proof.Machine
end

section
/-! PROOFS. The step with a command waiting: O1. -/

namespace Sys2Proof.Machine

/-- With a command waiting, a step is that command on the queue's rest; `step_idle` is the empty queue's. -/
theorem step_front {c : Instr} {rest : List Instr} {s : State} (h : s.pending = c :: rest) :
    step s = exec c (s.setPending rest) := by
  unfold step
  rw [h]

/-- Settles O1: the waiting branch of `step` (`step_front`). -/
theorem stepRunsFrontCommand : Obligations.StepRunsFrontCommand :=
  fun _ _ _ waiting => step_front waiting

end Sys2Proof.Machine
end
